-- ==== Sys2Proof/Word.lean ====
section
/-! DEFINITION. The byte, the unit numbers and the few plain types every other file of the model uses.

The IGX-96 numbers its units as 00_scope.md "Numbering of units" sets out. -/

namespace Sys2Proof

/-- One byte of a port, of a DOM or TAB object, or of a memory (R577). -/
abbrev Byte := BitVec 8

/-- Output loop L0–L7. -/
abbrev LoopId := Fin 8
/-- Phase cell P00–P95. -/
abbrev CellId := Fin 96
/-- Block B00–B23. -/
abbrev BlockId := Fin 24
/-- Region RG0–RG7. -/
abbrev RegionId := Fin 8
/-- Front-stage channel F0–F7. -/
abbrev ChannelId := Fin 8
/-- Amdin port AML0, AML1. -/
abbrev PortId := Fin 2
/-- Ring 0–15 of the stream memory (R681). -/
abbrev RingId := Fin 16
/-- Coefficient bank 0–3 of a loop (R164). -/
abbrev BankId := Fin 4

/-- A dictionary address: index × 256 + subindex (R574). -/
abbrev Addr := Nat

/-- The four dictionary requesters, in the round-robin order of R39. -/
inductive Requester where
  | twoWire | can | stream | twin
  deriving DecidableEq, Repr

/-- The fault classes of R340. -/
inductive FaultClass where
  | ocPk | ocVl | ocNeg | imon | readback | bflt
  | ovpAbs | ovpSet | uvp | itrip | vbusLo | vbusHi | control
  | fbOv | fbUv | vinOv | vinUv | foc | fbCtrl
  deriving DecidableEq, Repr

/-- A thermal sensor (R474). -/
inductive Sensor where
  | tmon (b : BlockId)
  | die (r : RegionId)
  | central
  deriving DecidableEq, Repr

/-- A table object (05_compensation_tables.md, R473). -/
inductive TableId where
  | rip (k : LoopId)
  | tim (k : LoopId)
  | lsat (b : BlockId)
  | fbTim
  | eff
  deriving DecidableEq, Repr

/-- One latch field of the device (R782). -/
inductive LatchId where
  /-- bit `b` of LOOP_FLT -/
  | loop (k : LoopId) (b : Fin 16)
  /-- bit `b` of CELL_FLT -/
  | cell (n : CellId) (b : Fin 5)
  /-- BFLT of a block -/
  | block (b : BlockId)
  /-- bit `b` of FB_FLT -/
  | fb (b : Fin 5)
  /-- bit of FOC_FLT -/
  | foc (f : ChannelId)
  /-- RS_LATCH of TH_FLT -/
  | restart
  deriving DecidableEq, Repr

/-- An object that holds latch fields. -/
inductive LatchObj where
  | loop (k : LoopId)
  | cell (n : CellId)
  | block (b : BlockId)
  | fb
  | foc
  deriving DecidableEq, Repr

/-- A set-point source (R395). -/
inductive SpSource where
  | amdin | vrefin | spin
  deriving DecidableEq, Repr

/-- A core loop, or loop FB. -/
inductive LoopOrFb where
  | loop (k : LoopId)
  | fb
  deriving DecidableEq, Repr

/-- The unit of a report or of an event record, in the encoding of R377. -/
inductive UnitId where
  | cell (n : CellId)
  | block (b : BlockId)
  | loop (k : LoopId)
  | fb
  | channel (f : ChannelId)
  | region (r : RegionId)
  /-- A record whose unit R377 has no code for (the device itself): code 0, number 0. -/
  | chip
  deriving DecidableEq, Repr

/-- A collector of the hatching tree (R371). -/
inductive CollectorId where
  | block (b : BlockId)
  | region (r : RegionId)
  | chip
  deriving DecidableEq, Repr

/-- A cause: a class together with the loop it affects, or loop FB (08_protection.md, before R371). -/
structure Cause where
  cls : FaultClass
  loop : LoopOrFb
  deriving DecidableEq, Repr

/-- The two directions of the share bus (R81). -/
inductive BusDir where
  | up | down
  deriving DecidableEq, Repr

/-- The five transmission phases of a training (R438). -/
inductive TrainPhase where
  | pattern | cap | rate | test | done
  deriving DecidableEq, Repr

end Sys2Proof
end

