-- ==== Sys2Proof/Syntax.lean ====
section
/-! DEFINITION. The commands of the block: one constructor of `Instr` per row of the table of operations and events.

The table gives no operands; those below are the ones the spec's rules for the row name (a unit number, a written value,
a converter code, a received frame). Log entry 1. -/

namespace Sys2Proof

/-- What the analogue nets, the clocks and the memories bring to one master sample tick (R184). -/
structure SampleIn where
  /-- time of the tick in counts of 500 ps, on the axis of the IMON apertures (R118) -/
  tick : Nat
  /-- window ADC codes of the remote pair, latest first, apertures t0 − 10 ns, t0 − 20 ns, … (R106) -/
  remote : List (Fin 4096)
  /-- code of the local channel, used when VLS_FIT = 1 (R109) -/
  localCode : Fin 4096
  /-- follower regions whose sum is absent at the innovation stage (R78) -/
  lateSums : List RegionId := []
  /-- the stage 5 result is not written in time (R189) -/
  overrun : Bool := false
  /-- the computation has not finished by the engine's next stage 2 (R188) -/
  abandoned : Bool := false
  /-- a correctable ECC error was met (R193) -/
  corrected : Bool := false
  /-- the latest bus conversion has crossed from CK9 in time (R48) -/
  busCrossed : Bool := true
  /-- a follower has not received a confirmed duty by t0 + 18 ns + c (R263) -/
  lateConfirm : List RegionId := []
  /-- the proof state takes an uncorrectable ECC error in this sample (R277) -/
  proofEcc : Bool := false
  deriving DecidableEq, Repr

/-- The fields of a twin heartbeat (R556). -/
structure Heartbeat where
  seq : Fin 256 := 0
  role : Fin 8 := 0
  hold : Bool := false
  abd : Bool := false
  ready : Bool := false
  alignReq : Bool := false
  startStep : Fin 16 := 0
  /-- LOOP_STATE of L0–L7 -/
  loopStates : List (Fin 8) := []
  fbState : Fin 8 := 0
  topoGen : Fin 256 := 0
  jseq : Fin 65536 := 0
  deriving DecidableEq, Repr

/-- The alignment record of a loop (R558). -/
structure LoopAlign where
  loop : LoopId
  sample : Nat
  loopState : Nat
  xHat : List Int
  uTilde : List Int
  bankActive : Nat
  ground : Bool
  groundInt : Rat
  /-- set-point after slew, volts -/
  setPoint : Rat
  active : List CellId
  /-- slot position of each cell of `active` -/
  slots : List Nat
  /-- acc and p of each region that holds the loop -/
  stipple : List (RegionId × Int × Nat)
  retryLeft : Nat
  deriving DecidableEq, Repr

/-- The alignment record of loop FB (R558). -/
structure FbAlign where
  vCmd : Rat
  integ : Rat
  trims : List Rat
  fbState : Nat
  deriving DecidableEq, Repr

/-- An alignment record (R558). -/
inductive AlignRecord where
  | loop (r : LoopAlign)
  | fb (r : FbAlign)
  deriving DecidableEq, Repr

/-- One duty digest (R555, R563). -/
structure Digest where
  unit : LoopOrFb
  sample : Nat
  /-- low 8 bits of the duty, or of the sum of the FB high intervals -/
  low : Fin 256
  /-- the full command (a loop), or the high interval of each switching channel (loop FB), in 1/256 count;
  only in every 64th digest -/
  full : List Int := []
  deriving DecidableEq, Repr

/-- One journal entry (R555). -/
structure JournalEntry where
  seq : Nat
  index : Nat
  sub : Nat
  /-- byte offset of a segment; none for a whole write -/
  offset : Option Nat := none
  data : List Byte
  deriving DecidableEq, Repr

/-- The configuration image of a join (R569, step 2). -/
structure JoinImage where
  /-- the persisted dictionary area: address and value of every object that differs from its default -/
  objects : List (Addr × Int)
  blobs : List (Addr × List Byte)
  topoGen : Nat
  crcOk : Bool
  /-- the etched objects compared at the join are equal -/
  etchedEqual : Bool
  deriving DecidableEq, Repr

/-- What completes a join step (R569). -/
inductive JoinStep where
  | trained (peerPref : Nat)
  | image (i : JoinImage)
  | aligned
  | shadowRun
  | declare
  deriving DecidableEq, Repr

/-- Why a port enters DOWN (R442). -/
inductive LinkDownCause where
  | badWindows | reframe | trainFail | disabled
  deriving DecidableEq, Repr

/-- A raw source value of R397. -/
inductive SourceRaw where
  /-- a 10-bit VREFINn conversion -/
  | vref (code : Fin 1024)
  /-- the latest completed average or density of SPINn, taken from the state -/
  | spin
  deriving DecidableEq, Repr

/-- An edge of SPINn, or a sample of it (R399, R400). -/
inductive SpinEvent where
  /-- pulse mode: rising edge at a time in units of 1.25 ns -/
  | rise (t : Nat)
  | fall (t : Nat)
  /-- PDM mode: the bit sampled at a rising edge of SPCLKn -/
  | bit (b : Bool)
  deriving DecidableEq, Repr

/-- The measurement of one burnish slot (R525). -/
structure BurnishSlot where
  /-- mean of the 80 IMON conversions of step 1, in codes -/
  offsetCode : Rat
  /-- peak IMON current of the pulses, A -/
  peak : Rat
  /-- output rise, V, and integrated charge, C -/
  deltaV : Rat
  charge : Rat
  /-- slope of the IMON current in the high and in the low intervals, A/s -/
  slopeHi : Rat
  slopeLo : Rat
  /-- current at which the low-interval slope was taken, A -/
  lowCurrent : Rat
  /-- delay from the PWM edge, ns -/
  delay : Rat
  /-- a PWM readback mismatch occurred in the slot -/
  readback : Bool
  deriving DecidableEq, Repr

/-- How a frame of the stream port ends (R664): after its trailer, before the trailer with the device's bytes of its data phase
sent, or after clocks for further bytes behind the trailer. -/
inductive FrameEnd where
  | whole
  | cut (sent : Nat)
  | over (bytes : Nat)
  deriving DecidableEq, Repr

/-- The end of a two-wire write (R620 to R622). -/
inductive WriteEnd where
  /-- STOP or repeated START, after the LEN byte -/
  | stop
  /-- a STOP or START before the LEN byte, or a time-out -/
  | early
  deriving DecidableEq, Repr

/-- The state of a controller's attempt on the two-wire bus (R632, R635). -/
inductive BusAttempt where
  | done
  | notAcknowledged
  | arbitrationLost
  deriving DecidableEq, Repr

/-- What bus recovery found (R630). -/
inductive BusRecovery where
  /-- SDA rose after this many pulses -/
  | freed (pulses : Fin 10)
  /-- SDA still low after the 9th pulse, or SCL low for 35 ms -/
  | stuck
  deriving DecidableEq, Repr

/-- The commands of the IGX-96: one constructor per row of opcode_table.json, in the table's order. -/
inductive Instr where
  -- power, reset and start-up
  | aonPowerUp
  /-- `bad0`, `bad1`: pages of bank 0 and 1 that hold an uncorrectable error; `badBurn`: etched addresses whose newest
  slot fails its check bits (R598) -/
  | plateRecall (bad0 bad1 : List (Fin 4096)) (badBurn : List Addr)
  /-- `early`: RST_N rose before recall ended (R512) -/
  | resetRelease (early : Bool) (addr : Fin 16) (nid : Fin 8) (slope : Fin 4)
  | rstNFall
  | hkPllLock
  | regionSwitchOn
  /-- `lanes`: measured strobe-lane delay, 125 ps (R84); `zeros`: IMON zero of the twelve cells, codes (R127) -/
  | regionReady (r : RegionId) (pllLocked selfTest : Bool) (lanes : Nat) (zeros : List Rat) (winZeros : List (Rat × Rat))
  | startupComplete
  | refClockLoss
  | refClockRestore
  | jtagFreezeBegin
  | jtagFreezeEnd
  | ck0HandshakeLoss (r : RegionId)
  /-- `absent`: µs without handshake -/
  | ck0HandshakeReturn (r : RegionId) (absent : Nat)
  | regionPllLockLoss (r : RegionId)
  | regionPllRelock (r : RegionId) (lanes : Nat)
  | ck9PllLockLoss
  -- dictionary and topology
  | dictWrite (rq : Requester) (index sub : Nat) (data : List Byte)
  | topoCommit (rq : Requester)
  | topoDiscard (rq : Requester)
  | topoRegionOff
  /-- `strobe`: the strobe arrived; `stamp`: the follower's period counter with its fine phase at the strobe, 125 ps; `num`,
  `period`: the sample number and the master's period counter in the payload (R83, R85) -/
  | markerStrobeRx (k : LoopId) (r : RegionId) (strobe : Bool) (stamp num period : Nat)
  | markerLock (k : LoopId) (r : RegionId)
  | markerLockTimeout (k : LoopId)
  | markerLoss (k : LoopId) (r : RegionId)
  | alignError (k : LoopId) (r : RegionId)
  -- the sample
  | loopSampleTick (k : LoopId) (i : SampleIn)
  /-- `late`: followers at which the duty command is late (R79) -/
  | sampleDeadlineLatch (k : LoopId) (late : List RegionId)
  | sharebusTimeout (k : LoopId) (r : RegionId) (d : BusDir)
  -- cell and block measurement
  /-- `aperture`: time of the aperture in counts of 500 ps; `mv`: IMONnn − IMREF, mV, which the window of R116 judges -/
  | imonConversion (n : CellId) (code : Fin 1024) (aperture : Nat) (mv : Int)
  | imonStuck (n : CellId)
  | imonSaturated (n : CellId)
  | imonOutOfRange (n : CellId)
  | pwmReadbackMismatch (n : CellId)
  | imrefOutOfWindow (b : BlockId) (mv : Nat)
  | tmonConversion (b : BlockId) (code : Fin 1024)
  /-- `reading`: 0.125 °C; `selfCheck`: the converter's self-check passes -/
  | dieSensorConversion (s : Fin 9) (reading : Int) (selfCheck : Bool)
  | busConversion (code : Fin 4096)
  | vinConversion (code : Fin 4096)
  | vlsOffsetLearn (k : LoopId)
  /-- `cell`: none for the window ADCs of the loop, else one of its cells; `zero`: the mean of the conversions, of the remote
  channel in a window ADC; `zeroLocal`: that of its local channel -/
  | zeroCalDone (k : LoopId) (cell : Option CellId) (zero zeroLocal : Rat)
  -- feedback loss
  /-- `dp`, `dn`: VSPn − VLSPn and VSNn − VLSNn, mV; `held`: ns for which they have stood so without interruption (R131) -/
  | openSenseDetect (k : LoopId) (dp dn : Int) (held : Nat)
  | frozenAdcDetect (k : LoopId)
  | satRunDetect (k : LoopId)
  | divergenceDetect (k : LoopId)
  | fblRecover (k : LoopId)
  | blindMaxExpire (k : LoopId)
  | ilimRestoreStep (k : LoopId)
  | vsSrcSelWrite (rq : Requester) (k : LoopId) (v : Nat)
  -- banks
  | bankCommit (rq : Requester) (k : LoopId) (m : BankId)
  | bankEmpty (rq : Requester) (k : LoopId) (m : BankId)
  | bankDiscard (rq : Requester) (k : LoopId) (m : BankId)
  | bankLoadDone (k : LoopId) (m : BankId)
  | bankForceWrite (rq : Requester) (k : LoopId) (v : Nat)
  | bankAutoSwitch (k : LoopId)
  | eccUncorrectableBank (k : LoopId)
  | eccUncorrectableState (k : LoopId)
  | groundLawEntry (k : LoopId)
  | missFault (k : LoopId)
  | groundLawExit (k : LoopId)
  -- tables
  | tableCommit (rq : Requester) (t : TableId)
  | tableDiscard (rq : Requester) (t : TableId)
  /-- `unit`: the region that exchanges (0 for loop FB) -/
  | tableExchange (t : TableId) (unit : RegionId)
  | lsatCompositeUpdate (k : LoopId)
  -- sketch
  /-- The whole 40-bit frame is given by LOOP and PAYLOAD; its CRC has matched (R423, order 1). `at_`:
  the moment of the frame's last bit within the microsecond of uptime, 500 ps (R245) -/
  | amdinPrenotify (p : PortId) (loop : BitVec 4) (payload : BitVec 24) (at_ : Fin 2000)
  | sketchOpen (k : LoopId)
  | sketchReplace (k : LoopId)
  | sketchExpire (k : LoopId)
  | sketchReturnIdle (k : LoopId)
  | skEnWrite (rq : Requester) (k : LoopId) (v : Nat)
  -- PWM and phases
  | periodBoundary (k : LoopId) (r : RegionId)
  /-- `edge`: the rising edge that a shadow's readback sampler has timed on the shared net, 500 ps (R557) -/
  | cellSlotPosition (n : CellId) (edge : Option Nat)
  | cellFallingEdge (n : CellId)
  | cellResume (n : CellId)
  | cellDisWrite (rq : Requester) (n : CellId) (v : Nat)
  | blkDisWrite (rq : Requester) (b : BlockId) (v : Nat)
  | rgPwmDisWrite (rq : Requester) (r : RegionId) (v : Nat)
  | fchDisWrite (rq : Requester) (v : Nat)
  | phaseAdd (k : LoopId)
  | phaseShed (k : LoopId)
  | cellWakeRequest (k : LoopId)
  | shedRelease (n : CellId)
  | shedTimeout (n : CellId)
  | rampCellEnable (k : LoopId)
  -- front stage
  /-- `codes`: the latest conversion of each channel's current sense (R450) -/
  | fbSample (codes : List (Fin 1024))
  | fbPeriodBoundary
  | fbChannelSlot (f : ChannelId)
  | fbCmdOn (rq : Requester)
  | fbCmdOff (rq : Requester)
  | fbSoftstartBegin
  | fbChannelStart
  | fbRegulateEntry
  | fbSoftstartTimeout
  | fbTrimLimit (f : ChannelId)
  | peakU0Report
  | busBudgetUpdate
  | bsModeWrite (rq : Requester) (v : Nat)
  -- protection
  /-- `start`: when the crossing, or the low level, begins, 500 ps; `stop`: when it ends, none where it outlasts every blanking
  window (R24, R348) -/
  | ocPkTrip (n : CellId) (start : Nat) (stop : Option Nat)
  | ocNegTrip (n : CellId) (start : Nat) (stop : Option Nat)
  | bfltTrip (b : BlockId) (start : Nat) (stop : Option Nat)
  | ovpAbsTrip (k : LoopId)
  | ovpSetTrip (k : LoopId)
  | uvpTrip (k : LoopId)
  | itripTrip (k : LoopId)
  | vbusLoTrip (k : LoopId)
  | vbusHiTrip (k : LoopId)
  | fbOvTrip
  | fbUvTrip
  | vinOvTrip
  | vinUvTrip
  /-- `start`, `stop`: the crossing's begin and end in CK9's time, 500 ps (R349) -/
  | focTrip (f : ChannelId) (start : Nat) (stop : Option Nat)
  | policyApply (u : LoopOrFb)
  | latchClearWrite (rq : Requester) (o : LatchObj) (mask : Nat)
  | retryTick (u : LoopOrFb)
  | retryLeftReload (u : LoopOrFb)
  | faultReportArrive
  | coalesceWindowClose (c : CollectorId) (cause : Cause)
  | rootRecordForm
  -- loop states and set-points
  | loopCmdOn (rq : Requester) (k : LoopId)
  | loopCmdOff (rq : Requester) (k : LoopId)
  | loopCmdOffNow (rq : Requester) (k : LoopId)
  | enRise (k : LoopId)
  | enFall (k : LoopId)
  /-- `found`: the first window centre (k of R389) whose conversion is not saturated, and its code -/
  | prebiasDone (k : LoopId) (found : Option (Fin 8 × Fin 4096))
  | armToRamp (k : LoopId)
  | armedWaitTimeout (k : LoopId)
  | setpointSourceSample (k : LoopId) (vref : Fin 1024)
  | sourceLost (k : LoopId) (src : SpSource)
  | sourceValid (k : LoopId) (src : SpSource)
  | sourceLossTimeout (k : LoopId)
  | spSrcWrite (rq : Requester) (k : LoopId) (v : Nat)
  | pgoodRelease (k : LoopId)
  | pgoodPullLow (k : LoopId)
  -- the Amdin link
  | amdinIdle (p : PortId) (loop : BitVec 4) (payload : BitVec 24)
  | amdinSetv (p : PortId) (loop : BitVec 4) (payload : BitVec 24)
  | amdinSlew (p : PortId) (loop : BitVec 4) (payload : BitVec 24)
  | amdinPstate (p : PortId) (loop : BitVec 4) (payload : BitVec 24)
  | amdinCancel (p : PortId) (loop : BitVec 4) (payload : BitVec 24)
  | amdinRead (p : PortId) (loop : BitVec 4) (payload : BitVec 24)
  /-- `at_`: as of AMDIN_PRENOTIFY (R429) -/
  | amdinLoadi (p : PortId) (loop : BitVec 4) (payload : BitVec 24) (at_ : Fin 2000)
  | amdinAlack (p : PortId) (loop : BitVec 4) (payload : BitVec 24)
  | amdinTrain (p : PortId) (loop : BitVec 4) (payload : BitVec 24)
  | amdinDownstreamWindow (p : PortId)
  | amlEnWrite (rq : Requester) (p : PortId) (v : Nat)
  | linkCmdReset (rq : Requester) (p : PortId)
  | linkRetryExpire (p : PortId)
  /-- `eye`: centre of the measured eye in steps of 20 ps (R438) -/
  | trainPhaseComplete (p : PortId) (eye : Fin 1000)
  | trainFail (p : PortId)
  | rateFallback (p : PortId)
  | linkDown (p : PortId) (cause : LinkDownCause)
  | linkUpTimeout (p : PortId)
  -- thermal supervision
  /-- `cause`: code of R477; of a comparator cause `level` is its input, in 0.001 °C of a die or 0.001 mV of a TMON ball, and `heldNs`
  how long it has lain above its threshold without interruption, ns -/
  | thermalShutdown (cause : Fin 5) (sensor : Sensor) (level : Int) (heldNs : Nat)
  | thermalRestart
  | rsLatchClear (rq : Requester)
  | rateOfRiseUpdate
  | bandChange (s : Sensor)
  | throttleEval
  | thermalSwap (k : LoopId)
  | thermalHoldEnd (b : BlockId)
  | sensorFail (s : Sensor)
  | sensorRecover (s : Sensor)
  -- burnish
  | burnishStart (k : LoopId)
  | burnishWaitTimeout (k : LoopId)
  | burnishCellMeasure (n : CellId) (m : BurnishSlot)
  /-- `vb`: the output voltage found by the search of R389 -/
  | burnishDone (k : LoopId) (vb : Rat)
  | burCmdRun (rq : Requester) (k : LoopId)
  | burCmdClear (rq : Requester) (k : LoopId)
  -- twin
  /-- `high`: TWTOKEN has been high for the time R549 names -/
  | tokenClaim (high : Bool)
  | ownWatchdogExpire
  | supplyLowRelease
  | heartbeatTx
  /-- `crcOk`: the frame's CRC-16 holds -/
  | heartbeatRx (crcOk : Bool) (h : Heartbeat)
  | dutyDigestRx (crcOk : Bool) (d : Digest)
  | alignmentRecordTx (u : LoopOrFb)
  | alignmentRecordRx (crcOk : Bool) (r : AlignRecord)
  | journalEntryApply (crcOk : Bool) (e : JournalEntry)
  | twinLinkLost
  /-- `gap`: measured interval without drive, ns (TKO_GAP_LAST) -/
  | takeover (gap : Nat)
  | takeoverTimeout
  | twCmdAbdicate (rq : Requester)
  | twCmdDetach (rq : Requester) (release : Bool)
  | twCmdJoin (rq : Requester)
  | joinStepComplete (j : JoinStep)
  | joinStepFail (cause : Nat)
  | joinRetry
  | peerRolePoll (role : Option (Fin 5))
  -- access and etched objects
  | keyWrite (rq : Requester) (v : BitVec 32)
  | levelDropWrite (rq : Requester) (v : Nat)
  | levelIdleTimeout (rq : Requester)
  | lockSetWrite (rq : Requester) (v : Nat)
  | etchedWrite (rq : Requester) (index sub : Nat) (data : List Byte)
  | etchBurnDone
  | descSelWrite (rq : Requester) (v : BitVec 32)
  -- two-wire port
  /-- `len`: the LEN byte; `bytes`: every byte behind it, data, PEC and any further one -/
  | twWrite (index sub : Nat) (len : Nat) (bytes : List Byte) (how : WriteEnd)
  | twWriteSeg (index sub ofs : Nat) (len : Nat) (bytes : List Byte) (how : WriteEnd)
  | twScratchWr (ofs : Nat) (len : Nat) (bytes : List Byte) (how : WriteEnd)
  | twRead (index sub : Nat) (len : Nat)
  | twReadSeg (index sub ofs : Nat) (len : Nat)
  | twStatus
  /-- `stop`: a STOP, otherwise a START -/
  | twStartStop (stop : Bool)
  | twSclTimeout
  /-- `read`: the stretch held a read response; otherwise an earlier write not yet applied -/
  | twStretchTimeout (read : Bool)
  | twBusRecovery (r : BusRecovery)
  | twArbLost (ownAddressByte : Bool)
  | twCtrlRetry (r : BusAttempt)
  | twAlertSend
  -- CAN FD port
  | canWrite (tid : Byte) (index sub : Nat) (data : List Byte)
  | canWriteSeg (tid : Byte) (index sub ofs : Nat) (data : List Byte)
  | canRead (tid : Byte) (index sub len : Nat)
  | canReadSeg (tid : Byte) (index sub ofs len : Nat)
  | canCompactWrite (index sub : Nat) (data : List Byte)
  | canCompactRead (index sub : Nat)
  /-- `compact`: the request came in a classical frame; `cmd` its CMD byte -/
  | canRequestBusy (compact : Bool) (cmd tid : Byte) (index sub : Nat)
  /-- `node`: the node ID field; `data`: 8 or 12 bytes; `elapsed`: µs since the end of frame -/
  | canTime (node : Fin 128) (fd : Bool) (data : List Byte) (elapsed : Nat)
  | canDuplicateNode
  | canHeartbeat
  | canErrorPassive
  | canBusOff
  | canBusOffRecovery
  | canEnWrite (rq : Requester) (v : Nat)
  -- stream port
  | spRead (addr : BitVec 32) (count : Nat) (fin : FrameEnd)
  | spReadNarrow (addr : BitVec 32) (enables : BitVec 16) (fin : FrameEnd)
  | spWrite (addr : BitVec 32) (words : List (BitVec 32)) (crcOk : Bool) (fin : FrameEnd)
  | spWriteNarrow (addr : BitVec 32) (enables : BitVec 16) (word : BitVec 32) (crcOk : Bool) (fin : FrameEnd)
  | spWstatRead
  | ringCfgWrite (rq : Requester) (r : RingId) (v : BitVec 32)
  | ringPiWrite (rq : Requester) (r : RingId) (v : BitVec 32)
  | ringCiWrite (rq : Requester) (r : RingId) (v : BitVec 32)
  | ringWrite
  | ringWriteSeg
  | ringRead
  | ringReadSeg
  | ringResume (r : RingId)
  | telemetryRecord (u : LoopOrFb)
  /-- an event that a rule names and no other row forms: its code, its unit and the values its rule names -/
  | eventRecord (code : Nat) (unit : UnitId) (vals : List Byte)
  /-- `active`: the environment-judged latch inputs (R782) that were active at any moment of the microsecond -/
  | uptimeTick (active : List LatchId)
  -- plate, recorder and time
  | storeCmdStore (rq : Requester)
  | storeCmdRestore (rq : Requester)
  | pfailFall
  | vctrlLow
  /-- `verified`: every page of the store verified; `us`: duration -/
  | storeComplete (verified : Bool)
  | vholdLow
  | wallSet (rq : Requester) (us : Nat)
  | wallSRead (rq : Requester)
  | wallUsRead (rq : Requester)
  /-- `pagesOk`: every page of the log area passes the test (R726) -/
  | logClear (rq : Requester) (pagesOk : Bool)
  | logRecRead (rq : Requester) (ofs len : Nat)
  /-- `enables`: byte lanes, 0b1111 for a whole word -/
  | scrDataWrite (rq : Requester) (word : BitVec 32) (enables : BitVec 4)
  | trArm (rq : Requester) (r : RegionId)
  | trForce (rq : Requester) (r : RegionId)
  | trStop (rq : Requester) (r : RegionId)
  | trIdle (rq : Requester) (r : RegionId)
  | traceCaptureDone (r : RegionId)
  | trUnload (rq : Requester) (v : Nat)
  | traceUnloadDone
  | ck9PllRelock
  | aonNvPowerDown
  /-- `whole` frame of 40 bits, taken when its CRC or its TYPE fails (R423) -/
  | amdinUpstreamReject (p : PortId) (frame : BitVec 40)
  | spinEdge (k : LoopId) (e : SpinEvent)
  /-- `code`, `count` as received; `crcOk` of a write -/
  | spFrameError (code : Byte) (count : Nat) (fin : FrameEnd)
  | twCommandRefused (code : Byte)
  | ringTmoElapsed (r : RingId)
  deriving DecidableEq, Repr

end Sys2Proof
end

