-- ==== Sys2Proof/WellFormed.lean ====
section
/-! DEFINITION. Well-formed commands: the operand widths and lengths that the types of Syntax leave open. A host cannot send
an ill-formed one; exec has a meaning for it all the same. -/

namespace Sys2Proof

/-- A dictionary address fits its fields: 16-bit index, 8-bit subindex (R574). -/
def objWf (index sub : Nat) : Bool := decide (index < 2 ^ 16) && decide (sub < 2 ^ 8)

/-- The data of a write: at most 64 bytes (R38, R601). -/
def dataWf (d : List Byte) : Bool := decide (1 ≤ d.length) && decide (d.length ≤ 64)

/-- The codes of a sample tick: at least one conversion of the remote pair (R106). -/
def sampleWf (i : SampleIn) : Bool := !i.remote.isEmpty

/-- A digest (R563). -/
def digestWf (d : Digest) : Bool :=
  match d.unit with
  | .loop _ => decide (d.full.length ≤ 1)
  | .fb => decide (d.full.length ≤ 8)

/-- An alignment record (R558): twelve state elements, two inputs, a position for each active cell. -/
def alignWf (r : AlignRecord) : Bool :=
  match r with
  | .loop r => r.xHat.length == 12 && r.uTilde.length == 2 && r.slots.length == r.active.length && decide (r.loopState ≤ 6)
  | .fb r => r.trims.length == 8 && decide (r.fbState ≤ 6)

/-- What completes a join step: a preference is one of the three of R544. -/
def joinWf (j : JoinStep) : Bool :=
  match j with
  | .trained p => decide (p ≤ 2)
  | .image i => decide (i.topoGen < 2 ^ 32)
  | .aligned => true
  | .shadowRun => true
  | .declare => true

/-- A command whose operands fit the fields that carry them. -/
def Instr.wf (i : Instr) : Bool :=
  match i with
  | .regionReady _ _ _ _ zeros wins => zeros.length == 12 && decide (wins.length ≤ 2)
  | .dictWrite _ i b d => objWf i b && dataWf d
  | .loopSampleTick _ i => sampleWf i
  | .vsSrcSelWrite _ _ v => decide (v < 2 ^ 8)
  | .bankForceWrite _ _ v => decide (v < 2 ^ 8)
  | .skEnWrite _ _ v => decide (v < 2 ^ 8)
  | .cellDisWrite _ _ v => decide (v < 2 ^ 8)
  | .blkDisWrite _ _ v => decide (v < 2 ^ 8)
  | .rgPwmDisWrite _ _ v => decide (v < 2 ^ 8)
  | .fchDisWrite _ v => decide (v < 2 ^ 8)
  | .fbSample codes => codes.length == 8
  | .bsModeWrite _ v => decide (v < 2 ^ 8)
  | .latchClearWrite _ _ mask => decide (mask < 2 ^ 16)
  | .spSrcWrite _ _ v => decide (v < 2 ^ 8)
  | .amlEnWrite _ _ v => decide (v < 2 ^ 8)
  | .heartbeatRx _ h => h.loopStates.length == 8
  | .dutyDigestRx _ d => digestWf d
  | .alignmentRecordRx _ r => alignWf r
  | .journalEntryApply _ e => decide (e.seq < 2 ^ 16) && objWf e.index e.sub && dataWf e.data
  | .takeover gap => decide (gap < 2 ^ 32)
  | .joinStepComplete j => joinWf j
  | .joinStepFail cause => decide (cause ≤ 3)
  | .levelDropWrite _ v => decide (v < 2 ^ 8)
  | .lockSetWrite _ v => decide (v < 2 ^ 16)
  | .etchedWrite _ i b d => objWf i b && dataWf d
  | .twWrite i b len _ _ => objWf i b && decide (len < 256)
  | .twWriteSeg i b o len _ _ => objWf i b && decide (o < 2 ^ 16) && decide (len < 256)
  | .twScratchWr o len _ _ => decide (o < 2 ^ 16) && decide (len < 256)
  | .twRead i b len => objWf i b && decide (len < 256)
  | .twReadSeg i b o len => objWf i b && decide (o < 2 ^ 16) && decide (len < 256)
  | .canWrite _ i b d => objWf i b && decide (d.length ≤ 64)
  | .canWriteSeg _ i b o d => objWf i b && decide (o < 2 ^ 16) && decide (d.length ≤ 64)
  | .canRead _ i b len => objWf i b && decide (len < 256)
  | .canReadSeg _ i b o len => objWf i b && decide (o < 2 ^ 16) && decide (len < 256)
  | .canCompactWrite i b d => objWf i b && decide (d.length ≤ 4)
  | .canCompactRead i b => objWf i b
  | .canRequestBusy _ _ _ i b => objWf i b
  | .canTime _ _ d _ => d.length == 8 || d.length == 12
  | .canEnWrite _ v => decide (v < 2 ^ 8)
  | .spRead _ n _ => decide (1 ≤ n) && decide (n < 2 ^ 16)
  | .spWrite _ ws _ _ => decide (1 ≤ ws.length) && decide (ws.length ≤ 64)
  | .eventRecord code _ vals => decide (code < 2 ^ 16) && decide (vals.length ≤ 220)
  | .wallSet _ us => decide (us < 1000000)
  | .logRecRead _ o len => decide (o < 2 ^ 16) && decide (len ≤ 64)
  | .trUnload _ v => decide (v < 2 ^ 8)
  | .spFrameError _ n _ => decide (n < 2 ^ 16)
  | .storeComplete _ | .aonPowerUp | .plateRecall _ _ _ | .resetRelease _ _ _ _ | .rstNFall | .hkPllLock | .regionSwitchOn | .startupComplete
  | .refClockLoss | .refClockRestore | .jtagFreezeBegin | .jtagFreezeEnd | .ck0HandshakeLoss _ | .ck0HandshakeReturn _ _
  | .regionPllLockLoss _ | .regionPllRelock _ _ | .ck9PllLockLoss | .topoCommit _ | .topoDiscard _ | .topoRegionOff
  | .markerStrobeRx _ _ _ _ _ _ | .markerLock _ _ | .markerLockTimeout _ | .markerLoss _ _ | .alignError _ _
  | .sampleDeadlineLatch _ _ | .sharebusTimeout _ _ _ | .imonConversion _ _ _ _ | .imonStuck _ | .imonSaturated _ | .imonOutOfRange _
  | .pwmReadbackMismatch _ | .imrefOutOfWindow _ _ | .tmonConversion _ _ | .dieSensorConversion _ _ _ | .busConversion _
  | .vinConversion _ | .vlsOffsetLearn _ | .zeroCalDone _ _ _ _ | .openSenseDetect _ _ _ _ | .frozenAdcDetect _
  | .satRunDetect _ | .divergenceDetect _ | .fblRecover _ | .blindMaxExpire _ | .ilimRestoreStep _ | .bankCommit _ _ _
  | .bankEmpty _ _ _ | .bankDiscard _ _ _ | .bankLoadDone _ _ | .bankAutoSwitch _ | .eccUncorrectableBank _
  | .eccUncorrectableState _ | .groundLawEntry _ | .missFault _ | .groundLawExit _ | .tableCommit _ _ | .tableDiscard _ _
  | .tableExchange _ _ | .lsatCompositeUpdate _ | .amdinPrenotify _ _ _ _ | .sketchOpen _ | .sketchReplace _
  | .sketchExpire _ | .sketchReturnIdle _ | .periodBoundary _ _ | .cellSlotPosition _ _ | .cellFallingEdge _ | .cellResume _ | .phaseAdd _
  | .phaseShed _ | .cellWakeRequest _ | .shedRelease _ | .shedTimeout _ | .rampCellEnable _ | .fbPeriodBoundary
  | .fbChannelSlot _ | .fbCmdOn _ | .fbCmdOff _ | .fbSoftstartBegin | .fbChannelStart | .fbRegulateEntry
  | .fbSoftstartTimeout | .fbTrimLimit _ | .peakU0Report | .busBudgetUpdate | .ocPkTrip _ _ _ | .ocNegTrip _ _ _ | .bfltTrip _ _ _
  | .ovpAbsTrip _ | .ovpSetTrip _ | .uvpTrip _ | .itripTrip _ | .vbusLoTrip _ | .vbusHiTrip _ | .fbOvTrip | .fbUvTrip
  | .vinOvTrip | .vinUvTrip | .focTrip _ _ _ | .policyApply _ | .retryTick _ | .retryLeftReload _ | .faultReportArrive
  | .coalesceWindowClose _ _ | .rootRecordForm | .loopCmdOn _ _ | .loopCmdOff _ _ | .loopCmdOffNow _ _ | .enRise _
  | .enFall _ | .prebiasDone _ _ | .armToRamp _ | .armedWaitTimeout _ | .setpointSourceSample _ _ | .sourceLost _ _
  | .sourceValid _ _ | .sourceLossTimeout _ | .pgoodRelease _ | .pgoodPullLow _ | .amdinIdle _ _ _ | .amdinSetv _ _ _
  | .amdinSlew _ _ _ | .amdinPstate _ _ _ | .amdinCancel _ _ _ | .amdinRead _ _ _ | .amdinLoadi _ _ _ _ | .amdinAlack _ _ _
  | .amdinTrain _ _ _ | .amdinDownstreamWindow _ | .linkCmdReset _ _ | .linkRetryExpire _ | .trainPhaseComplete _ _
  | .trainFail _ | .rateFallback _ | .linkDown _ _ | .linkUpTimeout _ | .thermalShutdown _ _ _ _ | .thermalRestart
  | .rsLatchClear _ | .rateOfRiseUpdate | .bandChange _ | .throttleEval | .thermalSwap _ | .thermalHoldEnd _
  | .sensorFail _ | .sensorRecover _ | .burnishStart _ | .burnishWaitTimeout _ | .burnishCellMeasure _ _ | .burnishDone _ _
  | .burCmdRun _ _ | .burCmdClear _ _ | .tokenClaim _ | .ownWatchdogExpire | .supplyLowRelease | .heartbeatTx
  | .alignmentRecordTx _ | .twinLinkLost | .takeoverTimeout | .twCmdAbdicate _ | .twCmdDetach _ _ | .twCmdJoin _
  | .joinRetry | .peerRolePoll _ | .keyWrite _ _ | .levelIdleTimeout _ | .etchBurnDone | .descSelWrite _ _ | .twStatus
  | .twStartStop _ | .twSclTimeout | .twStretchTimeout _ | .twBusRecovery _ | .twArbLost _ | .twCtrlRetry _ | .twAlertSend
  | .canDuplicateNode | .canHeartbeat | .canErrorPassive | .canBusOff | .canBusOffRecovery | .spReadNarrow _ _ _
  | .spWriteNarrow _ _ _ _ _ | .spWstatRead | .ringCfgWrite _ _ _ | .ringPiWrite _ _ _ | .ringCiWrite _ _ _ | .ringWrite
  | .ringWriteSeg | .ringRead | .ringReadSeg | .ringResume _ | .telemetryRecord _ | .uptimeTick _ | .storeCmdStore _
  | .storeCmdRestore _ | .pfailFall | .vctrlLow | .vholdLow | .wallSRead _ | .wallUsRead _ | .logClear _ _
  | .scrDataWrite _ _ _ | .trArm _ _ | .trForce _ _ | .trStop _ _ | .trIdle _ _ | .traceCaptureDone _ | .traceUnloadDone
  | .ck9PllRelock | .aonNvPowerDown | .amdinUpstreamReject _ _ | .spinEdge _ _ | .twCommandRefused _ | .ringTmoElapsed _ => true

end Sys2Proof
end

