-- ==== Sys2Proof/Machine/Bits.lean ====
section
/-! DEFINITION. Bytes, fixed-point numbers, rounding, checks over bytes, and sparse sorted stores. -/

namespace Sys2Proof.Machine

/-- The n least significant bytes of v, least significant byte first (R577). -/
def leBytes : Nat → Nat → List Byte
  | 0, _ => []
  | n + 1, v => BitVec.ofNat 8 v :: leBytes n (v / 256)

/-- The number that bytes spell, least significant byte first (R577). -/
def ofLe : List Byte → Nat
  | [] => 0
  | b :: bs => b.toNat + 256 * ofLe bs

/-- Two's complement of an integer in `bits` bits. -/
def twos (bits : Nat) (v : Int) : Nat := (v % (2 ^ bits : Nat)).toNat

/-- The integer that a two's-complement number of `bits` bits stands for (R8). -/
def signOf (bits : Nat) (v : Nat) : Int :=
  if v % 2 ^ bits < 2 ^ (bits - 1) then ((v % 2 ^ bits : Nat) : Int) else ((v % 2 ^ bits : Nat) : Int) - (2 ^ bits : Nat)

/-- Bit b of a number. -/
def bit (v : Nat) (b : Nat) : Bool := v / 2 ^ b % 2 == 1

/-- Bits [lo + n − 1 : lo] of a number. -/
def bits (v : Nat) (lo n : Nat) : Nat := v / 2 ^ lo % 2 ^ n

/-- The number with bit b set. -/
def setBit (v b : Nat) : Nat := if bit v b then v else v + 2 ^ b

/-- The number with bit b clear. -/
def clrBit (v b : Nat) : Nat := if bit v b then v - 2 ^ b else v

/-- The number with bit b as given. -/
def putBit (v b : Nat) (x : Bool) : Nat := if x then setBit v b else clrBit v b

/-- 1 for true. -/
def b2n (b : Bool) : Nat := if b then 1 else 0

/-- One step of a CRC of `w` bits, most significant bit first, over polynomial `poly`. -/
def crcBits (w poly : Nat) : Nat → Nat → Nat
  | 0, c => c
  | n + 1, c =>
    crcBits w poly n (if bit c (w - 1) then Nat.xor (c * 2 % 2 ^ w) poly else c * 2 % 2 ^ w)

/-- A CRC of `w` ≥ 8 bits over bytes, each most significant bit first, from `init`. -/
def crcBytes (w poly init : Nat) (bs : List Byte) : Nat :=
  bs.foldl (fun c b => crcBits w poly 8 (Nat.xor c (b.toNat * 2 ^ (w - 8)))) init

/-- One step of a reflected CRC: least significant bit first. -/
def crcBitsR (poly : Nat) : Nat → Nat → Nat
  | 0, c => c
  | n + 1, c => crcBitsR poly n (if c % 2 = 1 then Nat.xor (c / 2) poly else c / 2)

/-- The CRC-32 of R166: polynomial 0x04C11DB7 reflected, initial value and final inversion of all ones. -/
def crc32 (bs : List Byte) : Nat :=
  Nat.xor (bs.foldl (fun c b => crcBitsR 0xEDB88320 8 (Nat.xor c b.toNat)) 0xFFFFFFFF) 0xFFFFFFFF

/-- Nearest integer, ties up (R781). -/
def roundUpTies (x : Rat) : Int := (x + 1 / 2).floor

/-- Truncation toward zero. -/
def trunc (x : Rat) : Int := if 0 ≤ x then x.floor else x.ceil

/-- A value held between two bounds. -/
def clampR (x lo hi : Rat) : Rat := if x < lo then lo else if hi < x then hi else x

/-- A value held between two bounds. -/
def clampI (x lo hi : Int) : Int := if x < lo then lo else if hi < x then hi else x

/-- |x| -/
def absR (x : Rat) : Rat := if x < 0 then -x else x

/-- A counter of `bits` bits after one more count: it wraps. -/
def wrapAdd (bits : Nat) (v n : Nat) : Nat := (v + n) % 2 ^ bits

/-! ### Sparse stores: key and value pairs, keys strictly rising -/

/-- The value listed at a key. -/
def lookupAt {α : Type} : List (Nat × α) → Nat → Option α
  | [], _ => none
  | (j, v) :: rest, k => if j = k then some v else lookupAt rest k

/-- The list with a value at a key. -/
def insertAt {α : Type} : List (Nat × α) → Nat → α → List (Nat × α)
  | [], k, v => [(k, v)]
  | (j, w) :: rest, k, v =>
    if k < j then (k, v) :: (j, w) :: rest
    else if j = k then (k, v) :: rest
    else (j, w) :: insertAt rest k v

/-- The list without a key. -/
def eraseAt {α : Type} : List (Nat × α) → Nat → List (Nat × α)
  | [], _ => []
  | (j, w) :: rest, k => if j = k then eraseAt rest k else (j, w) :: eraseAt rest k

/-- A sorted set of numbers with one more. -/
def insertNat : List Nat → Nat → List Nat
  | [], k => [k]
  | j :: rest, k => if k < j then k :: j :: rest else if j = k then j :: rest else j :: insertNat rest k

/-- Keys strictly rising from a bound. -/
def risingFrom {α : Type} : Nat → List (Nat × α) → Bool
  | _, [] => true
  | lo, (j, _) :: rest => decide (lo ≤ j) && risingFrom (j + 1) rest

/-- The byte at an address of a memory whose unlisted bytes read 0. -/
def byteAt (m : List (Nat × Byte)) (a : Nat) : Byte := (lookupAt m a).getD 0

/-- A memory after a byte is written: the canonical form lists no zero byte. -/
def putByte (m : List (Nat × Byte)) (a : Nat) (b : Byte) : List (Nat × Byte) :=
  if b = 0 then eraseAt m a else insertAt m a b

/-- A memory after bytes are written from an address upward. -/
def putBytes (m : List (Nat × Byte)) (a : Nat) : List Byte → List (Nat × Byte)
  | [] => m
  | b :: bs => putBytes (putByte m a b) (a + 1) bs

/-- `n` bytes of a memory from an address upward. -/
def getBytes (m : List (Nat × Byte)) (a : Nat) : Nat → List Byte
  | 0 => []
  | n + 1 => byteAt m a :: getBytes m (a + 1) n

/-- The canonical form of a byte memory: addresses strictly rising, no zero byte listed. -/
def memWf (m : List (Nat × Byte)) : Bool := risingFrom 0 m && m.all fun e => e.2 != 0

end Sys2Proof.Machine
end

