-- ==== Sys2Proof/Config.lean ====
section
/-! DEFINITION. What one device fixes and the spec leaves open: constants with no body, of which no proof can see a value. -/

namespace Sys2Proof.Config

/-- The ordering code: true on PV-IGX96-A1-FB900-L (R5). Log entry 3. -/
opaque isL : Bool

/-- SERIAL (R777): set at the factory, no structure. Log entry 3. -/
opaque serial : Nat

/-- The page, within its plate area, that holds a persisted object: R694 gives the areas, not the places. Log entry 4. -/
opaque pageOf : Addr → Nat

/-- A free value: the n-th value that the spec leaves open while the machine goes on. Log entry 5. -/
opaque freeNat : Nat → Nat

/-- Whether a quantity that lies strictly between two steps of Q8.24 takes the upper one, where no rule names a
rounding. Log entry 6. -/
opaque q824Up : Rat → Bool

/-- The same for currents in units of 1/256 A (R120). Log entry 6. -/
opaque currentUp : Rat → Bool

/-- The same for any other reported quantity whose rounding no rule names. Log entry 6. -/
opaque reportUp : Rat → Bool

/-- The relative error of the bus feedforward factor, before it is limited to 2⁻²⁰ (R224). Log entry 7. -/
opaque bffError : Rat → Rat

/-- The word of a trace node code that R732 does not list. Log entry 5. -/
opaque openNode : Nat → Nat

/-- Factory offset of the IMON ADC of a cell in a band, in codes (R125). Log entry 8. -/
opaque imonOffset : Nat → Nat → Rat

/-- What a read of a bank object with no image returns, by address and offset (R168 names none). Log entry 5. -/
opaque emptyByte : Nat → Nat → Nat

/-- The order in which eligible items are served where the spec names a turn but not its start (R430 before any
service). Log entry 5. -/
opaque firstTurn : Nat → Nat

/-- TEC, REC and TDC_VAL: what the CAN protocol controller's counters show at a moment of uptime, by address. No rule of
the spec moves them. Log entry 44. -/
opaque canCounter : Addr → Nat → Nat

end Sys2Proof.Config
end

