-- ==== Sys2Proof/Machine/Objects.lean ====
section
/-! DEFINITION. The object dictionary's layout: the address of every object, and one descriptor row per template object.

Every row comes from an object table of the manual (R574, R576, R611 to R614 and the object tables of the chapters): type
(R577), access class (R579), write level (R584), default, range and storage. Units repeat a template (R576): `template`
maps an address to the template row's address. -/

namespace Sys2Proof.Machine

/-- The types of R577. -/
inductive Ty where
  | bool | u8 | u16 | u32 | u64 | s16 | s32 | q15 | q428 | q824 | str | dom | tab
  deriving DecidableEq, Repr

/-- Type code of R577. -/
def Ty.code : Ty → Nat
  | .bool => 1 | .u8 => 2 | .u16 => 3 | .u32 => 4 | .u64 => 5 | .s16 => 6 | .s32 => 7
  | .q15 => 8 | .q428 => 9 | .q824 => 10 | .str => 11 | .dom => 12 | .tab => 13

/-- Bytes of a scalar type (R577); 0 for STR, DOM and TAB, whose length the object sets. -/
def Ty.bytes : Ty → Nat
  | .bool => 1 | .u8 => 1 | .u16 => 2 | .u32 => 4 | .u64 => 8 | .s16 => 2 | .s32 => 4
  | .q15 => 2 | .q428 => 4 | .q824 => 4 | .str => 0 | .dom => 0 | .tab => 0

/-- Two's-complement types (R577, R8). -/
def Ty.signed : Ty → Bool
  | .s16 => true | .s32 => true | .q15 => true | .q428 => true | .q824 => true
  | _ => false

/-- Access classes as the object tables write them (R579). -/
inductive Acc where
  | ro | rw | wo | rwe
  deriving DecidableEq, Repr

/-- One row of an object table. `ranges` empty: every value of the type; `reserved`: the reserved bits (R778). -/
structure Row where
  addr : Addr
  count : Nat := 1
  ty : Ty
  acc : Acc
  dflt : Int := 0
  ranges : List (Int × Int) := []
  reserved : Nat := 0
  plate : Bool := false
  integrator : Bool := false
  w1c : Bool := false
  len : Nat := 0
  deriving DecidableEq, Repr

/-- Bytes of the object: of its type, or the length the object sets. -/
def Row.bytes (r : Row) : Nat := if r.ty.bytes = 0 then r.len else r.ty.bytes

/-- 0x1000.01 (R611) -/
@[reducible] def O.VENDOR_ID : Addr := 0x100001
/-- 0x1000.02 (R611) -/
@[reducible] def O.FAMILY_ID : Addr := 0x100002
/-- 0x1000.03 (R611) -/
@[reducible] def O.MEMBER : Addr := 0x100003
/-- 0x1000.04 (R611) -/
@[reducible] def O.SI_REV : Addr := 0x100004
/-- 0x1000.05 (R611) -/
@[reducible] def O.ORDER_CODE : Addr := 0x100005
/-- 0x1000.06 (R611) -/
@[reducible] def O.SERIAL : Addr := 0x100006
/-- 0x1000.07 (R611) -/
@[reducible] def O.TRACE_KIB : Addr := 0x100007
/-- 0x1000.08 (R611) -/
@[reducible] def O.LAYOUT_VER : Addr := 0x100008
/-- 0x1001.01 (R611) -/
@[reducible] def O.N_CELLS : Addr := 0x100101
/-- 0x1001.02 (R611) -/
@[reducible] def O.N_BLOCKS : Addr := 0x100102
/-- 0x1001.03 (R611) -/
@[reducible] def O.N_REGIONS : Addr := 0x100103
/-- 0x1001.04 (R611) -/
@[reducible] def O.N_LOOPS : Addr := 0x100104
/-- 0x1001.05 (R611) -/
@[reducible] def O.N_FBCH : Addr := 0x100105
/-- 0x1001.06 (R611) -/
@[reducible] def O.N_AML : Addr := 0x100106
/-- 0x1001.07 (R611) -/
@[reducible] def O.CAP_FLAGS : Addr := 0x100107
/-- 0x1008.01 (R612) -/
@[reducible] def O.DESC_SEL : Addr := 0x100801
/-- 0x1008.02 (R612) -/
@[reducible] def O.DESC_ABORT : Addr := 0x100802
/-- 0x1008.03 (R612) -/
@[reducible] def O.DESC_TYPE : Addr := 0x100803
/-- 0x1008.04 (R612) -/
@[reducible] def O.DESC_ACCESS : Addr := 0x100804
/-- 0x1008.05 (R612) -/
@[reducible] def O.DESC_LEN : Addr := 0x100805
/-- 0x1008.06 (R612) -/
@[reducible] def O.DESC_MIN : Addr := 0x100806
/-- 0x1008.07 (R612) -/
@[reducible] def O.DESC_MAX : Addr := 0x100807
/-- 0x1008.08 (R612) -/
@[reducible] def O.DESC_DEF : Addr := 0x100808
/-- 0x1110.01 (R639) -/
@[reducible] def O.TW_ADDR : Addr := 0x111001
/-- 0x1110.02 (R639) -/
@[reducible] def O.TW_SLOPE : Addr := 0x111002
/-- 0x1110.03 (R639) -/
@[reducible] def O.TW_PEC_REQ : Addr := 0x111003
/-- 0x1110.04 (R639) -/
@[reducible] def O.TW_HOST_ADDR : Addr := 0x111004
/-- 0x1110.05 (R639) -/
@[reducible] def O.TW_ALERT_SEV : Addr := 0x111005
/-- 0x1110.06 (R639) -/
@[reducible] def O.TW_CTRL_FSCL : Addr := 0x111006
/-- 0x1110.07 (R639) -/
@[reducible] def O.TW_PORT_STAT : Addr := 0x111007
/-- 0x1110.08 (R639) -/
@[reducible] def O.TW_QUEUE_N : Addr := 0x111008
/-- 0x1111.01 (R639) -/
@[reducible] def O.PEC_ERR_CNT : Addr := 0x111101
/-- 0x1111.02 (R639) -/
@[reducible] def O.TMO_CNT : Addr := 0x111102
/-- 0x1111.03 (R639) -/
@[reducible] def O.ARB_LOST_CNT : Addr := 0x111103
/-- 0x1111.04 (R639) -/
@[reducible] def O.ALERT_SENT_CNT : Addr := 0x111104
/-- 0x1111.05 (R639) -/
@[reducible] def O.ALERT_DROP_CNT : Addr := 0x111105
/-- 0x1111.06 (R639) -/
@[reducible] def O.STUCK_CNT : Addr := 0x111106
/-- 0x1111.07 (R639) -/
@[reducible] def O.NACK_CNT : Addr := 0x111107
/-- 0x1120.01 (R658) -/
@[reducible] def O.CAN_NID : Addr := 0x112001
/-- 0x1120.02 (R658) -/
@[reducible] def O.CAN_NID_OFS : Addr := 0x112002
/-- 0x1120.03 (R658) -/
@[reducible] def O.CAN_NODE : Addr := 0x112003
/-- 0x1120.04 (R658) -/
@[reducible] def O.CAN_EN : Addr := 0x112004
/-- 0x1120.05 (R658) -/
@[reducible] def O.CAN_NOM_RATE : Addr := 0x112005
/-- 0x1120.06 (R658) -/
@[reducible] def O.CAN_DATA_RATE : Addr := 0x112006
/-- 0x1120.07 (R658) -/
@[reducible] def O.CAN_NOM_SP : Addr := 0x112007
/-- 0x1120.08 (R658) -/
@[reducible] def O.CAN_DATA_SP : Addr := 0x112008
/-- 0x1120.09 (R658) -/
@[reducible] def O.CAN_HB_T : Addr := 0x112009
/-- 0x1120.0A (R658) -/
@[reducible] def O.CAN_PUSH_SEV : Addr := 0x11200A
/-- 0x1120.0B (R658) -/
@[reducible] def O.CAN_TIME_EN : Addr := 0x11200B
/-- 0x1120.FE (R658) -/
@[reducible] def O.CAN_NID_SLOTS : Addr := 0x1120FE
/-- 0x1121.01 (R658) -/
@[reducible] def O.CAN_STAT : Addr := 0x112101
/-- 0x1121.02 (R658) -/
@[reducible] def O.TEC : Addr := 0x112102
/-- 0x1121.03 (R658) -/
@[reducible] def O.REC : Addr := 0x112103
/-- 0x1121.04 (R658) -/
@[reducible] def O.TDC_VAL : Addr := 0x112104
/-- 0x1122.01 (R658) -/
@[reducible] def O.BOFF_CNT : Addr := 0x112201
/-- 0x1122.02 (R658) -/
@[reducible] def O.REQ_BUSY_CNT : Addr := 0x112202
/-- 0x1122.03 (R658) -/
@[reducible] def O.PUSH_DROP_CNT : Addr := 0x112203
/-- 0x1122.04 (R658) -/
@[reducible] def O.DUP_CNT : Addr := 0x112204
/-- 0x1130.01 (R692) -/
@[reducible] def O.WIN_DUMMY : Addr := 0x113001
/-- 0x1130.02 (R692) -/
@[reducible] def O.SINT_MASK : Addr := 0x113002
/-- 0x1130.03 (R692) -/
@[reducible] def O.SINT_PEND : Addr := 0x113003
/-- 0x1130.04 (R692) -/
@[reducible] def O.SP_WSTAT : Addr := 0x113004
/-- 0x1130.05 (R692) -/
@[reducible] def O.SP_ERR_CNT : Addr := 0x113005
/-- 0x1140.01 (R693) -/
@[reducible] def O.RING_CFG (r : Nat) : Addr := 0x114001 + 0x100 * r
/-- 0x1140.02 (R693) -/
@[reducible] def O.RING_PI (r : Nat) : Addr := 0x114002 + 0x100 * r
/-- 0x1140.03 (R693) -/
@[reducible] def O.RING_CI (r : Nat) : Addr := 0x114003 + 0x100 * r
/-- 0x1140.04 (R693) -/
@[reducible] def O.RING_CREDIT (r : Nat) : Addr := 0x114004 + 0x100 * r
/-- 0x1140.05 (R693) -/
@[reducible] def O.RING_STAT (r : Nat) : Addr := 0x114005 + 0x100 * r
/-- 0x1140.06 (R693) -/
@[reducible] def O.RING_LOST (r : Nat) : Addr := 0x114006 + 0x100 * r
/-- 0x1140.07 (R693) -/
@[reducible] def O.RING_OPT (r : Nat) : Addr := 0x114007 + 0x100 * r
/-- 0x2000.01 (R613) -/
@[reducible] def O.CHIP_STAT : Addr := 0x200001
/-- 0x2000.02 (R613) -/
@[reducible] def O.LAST_ABORT : Addr := 0x200002
/-- 0x2000.03 (R613) -/
@[reducible] def O.LAST_ABORT_OBJ : Addr := 0x200003
/-- 0x2000.04 (R613) -/
@[reducible] def O.DICT_GEN : Addr := 0x200004
/-- 0x2001.01 (R613) -/
@[reducible] def O.KEY : Addr := 0x200101
/-- 0x2001.02 (R613) -/
@[reducible] def O.LEVEL : Addr := 0x200102
/-- 0x2001.03 (R613) -/
@[reducible] def O.LEVEL_DROP : Addr := 0x200103
/-- 0x2001.04 (R613) -/
@[reducible] def O.LEVEL_IDLE_T : Addr := 0x200104
/-- 0x2001.05 (R613) -/
@[reducible] def O.KEY_FAIL_CNT : Addr := 0x200105
/-- 0x2001.06 (R613) -/
@[reducible] def O.INT_KEY : Addr := 0x200106
/-- 0x2001.FE (R613) -/
@[reducible] def O.INT_KEY_SLOTS : Addr := 0x2001FE
/-- 0x2002.01 (R613) -/
@[reducible] def O.LOCK_SET : Addr := 0x200201
/-- 0x2002.02 (R613) -/
@[reducible] def O.LOCK_STAT : Addr := 0x200202
/-- 0x2002.03 (R613) -/
@[reducible] def O.LOCK_BOOT : Addr := 0x200203
/-- 0x2010.01 (R91) -/
@[reducible] def O.BLK_LOOP_STG (i : Nat) : Addr := 0x201001 + i
/-- 0x2011.01 (R91) -/
@[reducible] def O.LOOP_MASTER_STG (i : Nat) : Addr := 0x201101 + i
/-- 0x2012.01 (R91) -/
@[reducible] def O.FB_MASK_STG : Addr := 0x201201
/-- 0x2013.01 (R91) -/
@[reducible] def O.TOPO_CMD : Addr := 0x201301
/-- 0x2013.02 (R91) -/
@[reducible] def O.TOPO_STATUS : Addr := 0x201302
/-- 0x2013.03 (R91) -/
@[reducible] def O.TOPO_REASON : Addr := 0x201303
/-- 0x2013.04 (R91) -/
@[reducible] def O.TOPO_UNIT : Addr := 0x201304
/-- 0x2013.05 (R91) -/
@[reducible] def O.TOPO_REASONS : Addr := 0x201305
/-- 0x2013.06 (R91) -/
@[reducible] def O.TOPO_GEN : Addr := 0x201306
/-- 0x2014.01 (R91) -/
@[reducible] def O.BLK_LOOP (i : Nat) : Addr := 0x201401 + i
/-- 0x2015.01 (R91) -/
@[reducible] def O.LOOP_MASTER (i : Nat) : Addr := 0x201501 + i
/-- 0x2016.01 (R91) -/
@[reducible] def O.LOOP_RATE (i : Nat) : Addr := 0x201601 + i
/-- 0x2017.01 (R91) -/
@[reducible] def O.FB_MASK : Addr := 0x201701
/-- 0x2018.01 (R91) -/
@[reducible] def O.REGION_AVAIL : Addr := 0x201801
/-- 0x2020.01 (R541) -/
@[reducible] def O.START_STEP : Addr := 0x202001
/-- 0x2020.02 (R541) -/
@[reducible] def O.BUR_CMD : Addr := 0x202002
/-- 0x2020.03 (R541) -/
@[reducible] def O.BUR_WAIT : Addr := 0x202003
/-- 0x2021.01 (R541) -/
@[reducible] def O.START_T (i : Nat) : Addr := 0x202101 + i
/-- 0x2100.01 (R614) -/
@[reducible] def O.RG_STATE (j : Nat) : Addr := 0x210001 + 0x2000 * j
/-- 0x2100.02 (R614) -/
@[reducible] def O.RG_LOOPS (j : Nat) : Addr := 0x210002 + 0x2000 * j
/-- 0x2100.03 (R614) -/
@[reducible] def O.RG_ROLE (j : Nat) : Addr := 0x210003 + 0x2000 * j
/-- 0x2100.04 (R614) -/
@[reducible] def O.RG_FLAGS (j : Nat) : Addr := 0x210004 + 0x2000 * j
/-- 0x2104.01 (R337) -/
@[reducible] def O.RG_PWM_DIS (j : Nat) : Addr := 0x210401 + 0x2000 * j
/-- 0x2105.01 (R507) -/
@[reducible] def O.DIE_T (j : Nat) : Addr := 0x210501 + 0x2000 * j
/-- 0x2105.02 (R507) -/
@[reducible] def O.DIE_BAND (j : Nat) : Addr := 0x210502 + 0x2000 * j
/-- 0x2105.03 (R507) -/
@[reducible] def O.DIE_STAT (j : Nat) : Addr := 0x210503 + 0x2000 * j
/-- 0x2105.04 (R507) -/
@[reducible] def O.DIE_ROR (j : Nat) : Addr := 0x210504 + 0x2000 * j
/-- 0x2201.01 (R151) -/
@[reducible] def O.IMON_GS (b : Nat) : Addr := 0x220101 + 0x800 * b
/-- 0x2201.02 (R151) -/
@[reducible] def O.IMON_IFS (b : Nat) : Addr := 0x220102 + 0x800 * b
/-- 0x2201.03 (R151) -/
@[reducible] def O.IMON_PL_LO (b : Nat) : Addr := 0x220103 + 0x800 * b
/-- 0x2201.04 (R151) -/
@[reducible] def O.IMON_PL_HI (b : Nat) : Addr := 0x220104 + 0x800 * b
/-- 0x2202.01 (R151) -/
@[reducible] def O.IMREF_MEAS (b : Nat) : Addr := 0x220201 + 0x800 * b
/-- 0x2202.02 (R151) -/
@[reducible] def O.IMREF_STAT (b : Nat) : Addr := 0x220202 + 0x800 * b
/-- 0x2203.01 (R241) -/
@[reducible] def O.LSAT_TAB (b : Nat) : Addr := 0x220301 + 0x800 * b
/-- 0x2203.02 (R241) -/
@[reducible] def O.LSAT_CMD (b : Nat) : Addr := 0x220302 + 0x800 * b
/-- 0x2203.03 (R241) -/
@[reducible] def O.LSAT_STAT (b : Nat) : Addr := 0x220303 + 0x800 * b
/-- 0x2203.04 (R241) -/
@[reducible] def O.LSAT_ERRPOS (b : Nat) : Addr := 0x220304 + 0x800 * b
/-- 0x2204.01 (R337) -/
@[reducible] def O.BLK_DIS (b : Nat) : Addr := 0x220401 + 0x800 * b
/-- 0x2204.02 (R337) -/
@[reducible] def O.HIZ_ON_DIS (b : Nat) : Addr := 0x220402 + 0x800 * b
/-- 0x2205.01 (R381) -/
@[reducible] def O.BLK_FLT (b : Nat) : Addr := 0x220501 + 0x800 * b
/-- 0x2205.02 (R381) -/
@[reducible] def O.BLK_FLT_IN (b : Nat) : Addr := 0x220502 + 0x800 * b
/-- 0x2206.01 (R508) -/
@[reducible] def O.TMON_T (b : Nat) : Addr := 0x220601 + 0x800 * b
/-- 0x2206.02 (R508) -/
@[reducible] def O.TMON_MV (b : Nat) : Addr := 0x220602 + 0x800 * b
/-- 0x2206.03 (R508) -/
@[reducible] def O.TMON_BAND (b : Nat) : Addr := 0x220603 + 0x800 * b
/-- 0x2206.04 (R508) -/
@[reducible] def O.TMON_STAT (b : Nat) : Addr := 0x220604 + 0x800 * b
/-- 0x2206.05 (R508) -/
@[reducible] def O.TMON_ROR (b : Nat) : Addr := 0x220605 + 0x800 * b
/-- 0x3000.01 (R409) -/
@[reducible] def O.LOOP_STATE (k : Nat) : Addr := 0x300001 + 0x10000 * k
/-- 0x3000.02 (R409) -/
@[reducible] def O.LOOP_CMD (k : Nat) : Addr := 0x300002 + 0x10000 * k
/-- 0x3000.03 (R409) -/
@[reducible] def O.LOOP_REQ (k : Nat) : Addr := 0x300003 + 0x10000 * k
/-- 0x3000.04 (R409) -/
@[reducible] def O.ON_SRC (k : Nat) : Addr := 0x300004 + 0x10000 * k
/-- 0x3000.05 (R409) -/
@[reducible] def O.EN_OFF (k : Nat) : Addr := 0x300005 + 0x10000 * k
/-- 0x3000.06 (R409) -/
@[reducible] def O.RAMP_DLY (k : Nat) : Addr := 0x300006 + 0x10000 * k
/-- 0x3000.07 (R409) -/
@[reducible] def O.RAMP_SLEW (k : Nat) : Addr := 0x300007 + 0x10000 * k
/-- 0x3000.08 (R409) -/
@[reducible] def O.SS_SLEW (k : Nat) : Addr := 0x300008 + 0x10000 * k
/-- 0x3000.09 (R409) -/
@[reducible] def O.SS_END (k : Nat) : Addr := 0x300009 + 0x10000 * k
/-- 0x3000.0A (R409) -/
@[reducible] def O.PREBIAS (k : Nat) : Addr := 0x30000A + 0x10000 * k
/-- 0x3001.01 (R409) -/
@[reducible] def O.SP_SRC (k : Nat) : Addr := 0x300101 + 0x10000 * k
/-- 0x3001.02 (R409) -/
@[reducible] def O.SP_BOOT (k : Nat) : Addr := 0x300102 + 0x10000 * k
/-- 0x3001.03 (R409) -/
@[reducible] def O.SP_SLEW (k : Nat) : Addr := 0x300103 + 0x10000 * k
/-- 0x3001.04 (R409) -/
@[reducible] def O.SP_MIN (k : Nat) : Addr := 0x300104 + 0x10000 * k
/-- 0x3001.05 (R409) -/
@[reducible] def O.SP_MAX (k : Nat) : Addr := 0x300105 + 0x10000 * k
/-- 0x3001.06 (R409) -/
@[reducible] def O.SP_SAFE (k : Nat) : Addr := 0x300106 + 0x10000 * k
/-- 0x3001.07 (R409) -/
@[reducible] def O.SRC_LOSS_T (k : Nat) : Addr := 0x300107 + 0x10000 * k
/-- 0x3001.08 (R409) -/
@[reducible] def O.SRC_LOSS_ACT (k : Nat) : Addr := 0x300108 + 0x10000 * k
/-- 0x3001.09 (R409) -/
@[reducible] def O.SP_TARGET (k : Nat) : Addr := 0x300109 + 0x10000 * k
/-- 0x3001.0A (R409) -/
@[reducible] def O.SP_NOW (k : Nat) : Addr := 0x30010A + 0x10000 * k
/-- 0x3001.0B (R409) -/
@[reducible] def O.SRC_STAT (k : Nat) : Addr := 0x30010B + 0x10000 * k
/-- 0x3002.01 (R409) -/
@[reducible] def O.VREF_GAIN (k : Nat) : Addr := 0x300201 + 0x10000 * k
/-- 0x3002.02 (R409) -/
@[reducible] def O.VREF_OFS (k : Nat) : Addr := 0x300202 + 0x10000 * k
/-- 0x3002.03 (R409) -/
@[reducible] def O.SRC_FILT (k : Nat) : Addr := 0x300203 + 0x10000 * k
/-- 0x3002.04 (R409) -/
@[reducible] def O.SRC_DB (k : Nat) : Addr := 0x300204 + 0x10000 * k
/-- 0x3002.05 (R409) -/
@[reducible] def O.SPIN_MODE (k : Nat) : Addr := 0x300205 + 0x10000 * k
/-- 0x3002.06 (R409) -/
@[reducible] def O.SPIN_VLO (k : Nat) : Addr := 0x300206 + 0x10000 * k
/-- 0x3002.07 (R409) -/
@[reducible] def O.SPIN_VHI (k : Nat) : Addr := 0x300207 + 0x10000 * k
/-- 0x3002.08 (R409) -/
@[reducible] def O.SPIN_AVG (k : Nat) : Addr := 0x300208 + 0x10000 * k
/-- 0x3002.09 (R409) -/
@[reducible] def O.PDM_R (k : Nat) : Addr := 0x300209 + 0x10000 * k
/-- 0x3002.0A (R409) -/
@[reducible] def O.SRC_VALUE (k : Nat) : Addr := 0x30020A + 0x10000 * k
/-- 0x3003.01 (R409) -/
@[reducible] def O.PG_WIN_HI (k : Nat) : Addr := 0x300301 + 0x10000 * k
/-- 0x3003.02 (R409) -/
@[reducible] def O.PG_WIN_LO (k : Nat) : Addr := 0x300302 + 0x10000 * k
/-- 0x3003.03 (R409) -/
@[reducible] def O.PG_DLY (k : Nat) : Addr := 0x300303 + 0x10000 * k
/-- 0x3003.04 (R409) -/
@[reducible] def O.PG_STAT (k : Nat) : Addr := 0x300304 + 0x10000 * k
/-- 0x3004.01 (R542) -/
@[reducible] def O.START_REQ (k : Nat) : Addr := 0x300401 + 0x10000 * k
/-- 0x3004.02 (R542) -/
@[reducible] def O.PH_MIN (k : Nat) : Addr := 0x300402 + 0x10000 * k
/-- 0x3004.03 (R600) -/
@[reducible] def O.PH_CEIL (k : Nat) : Addr := 0x300403 + 0x10000 * k
/-- 0x3004.FE (R600) -/
@[reducible] def O.PH_CEIL_SLOTS (k : Nat) : Addr := 0x3004FE + 0x10000 * k
/-- 0x3008.01 (R150) -/
@[reducible] def O.VS_AVG (k : Nat) : Addr := 0x300801 + 0x10000 * k
/-- 0x3008.02 (R150) -/
@[reducible] def O.VS_SRC_SEL (k : Nat) : Addr := 0x300802 + 0x10000 * k
/-- 0x3008.03 (R150) -/
@[reducible] def O.VLS_FIT (k : Nat) : Addr := 0x300803 + 0x10000 * k
/-- 0x3008.04 (R150) -/
@[reducible] def O.VLS_RPLANE (k : Nat) : Addr := 0x300804 + 0x10000 * k
/-- 0x3008.05 (R150) -/
@[reducible] def O.OPEN_TH (k : Nat) : Addr := 0x300805 + 0x10000 * k
/-- 0x3008.06 (R150) -/
@[reducible] def O.FRZ_DUTY_TH (k : Nat) : Addr := 0x300806 + 0x10000 * k
/-- 0x3008.07 (R150) -/
@[reducible] def O.FRZ_CUR_TH (k : Nat) : Addr := 0x300807 + 0x10000 * k
/-- 0x3008.08 (R150) -/
@[reducible] def O.DIV_V_BOUND (k : Nat) : Addr := 0x300808 + 0x10000 * k
/-- 0x3008.09 (R150) -/
@[reducible] def O.DIV_I_BOUND (k : Nat) : Addr := 0x300809 + 0x10000 * k
/-- 0x3008.0A (R150) -/
@[reducible] def O.BLIND_MAX (k : Nat) : Addr := 0x30080A + 0x10000 * k
/-- 0x3008.0B (R150) -/
@[reducible] def O.SAT_RUN (k : Nat) : Addr := 0x30080B + 0x10000 * k
/-- 0x3008.0C (R150) -/
@[reducible] def O.IMON_DREF (k : Nat) : Addr := 0x30080C + 0x10000 * k
/-- 0x3009.01 (R150) -/
@[reducible] def O.VS_STATE (k : Nat) : Addr := 0x300901 + 0x10000 * k
/-- 0x3009.02 (R150) -/
@[reducible] def O.FBL_FLAGS (k : Nat) : Addr := 0x300902 + 0x10000 * k
/-- 0x3009.03 (R150) -/
@[reducible] def O.VLS_OFFSET (k : Nat) : Addr := 0x300903 + 0x10000 * k
/-- 0x3009.04 (R150) -/
@[reducible] def O.VOUT_MEAS (k : Nat) : Addr := 0x300904 + 0x10000 * k
/-- 0x3009.05 (R150) -/
@[reducible] def O.ISUM_MEAS (k : Nat) : Addr := 0x300905 + 0x10000 * k
/-- 0x3009.06 (R150) -/
@[reducible] def O.WIN_CENTRE (k : Nat) : Addr := 0x300906 + 0x10000 * k
/-- 0x3009.07 (R150) -/
@[reducible] def O.FBL_COUNT (k : Nat) : Addr := 0x300907 + 0x10000 * k
/-- 0x3010.01 (R205) -/
@[reducible] def O.BANK (k i : Nat) : Addr := 0x301001 + 0x10000 * k + i
/-- 0x3011.01 (R205) -/
@[reducible] def O.BANK_CMD (k : Nat) : Addr := 0x301101 + 0x10000 * k
/-- 0x3011.02 (R205) -/
@[reducible] def O.BANK_STATE (k : Nat) : Addr := 0x301102 + 0x10000 * k
/-- 0x3011.03 (R205) -/
@[reducible] def O.BANK_ACTIVE (k : Nat) : Addr := 0x301103 + 0x10000 * k
/-- 0x3011.04 (R205) -/
@[reducible] def O.BANK_FORCE (k : Nat) : Addr := 0x301104 + 0x10000 * k
/-- 0x3011.05 (R205) -/
@[reducible] def O.BANK_ERR (k : Nat) : Addr := 0x301105 + 0x10000 * k
/-- 0x3011.06 (R205) -/
@[reducible] def O.BANK_SW_CNT (k : Nat) : Addr := 0x301106 + 0x10000 * k
/-- 0x3012.01 (R205) -/
@[reducible] def O.BANK_TAG (k i : Nat) : Addr := 0x301201 + 0x10000 * k + i
/-- 0x3013.01 (R205) -/
@[reducible] def O.BANK_CRC (k i : Nat) : Addr := 0x301301 + 0x10000 * k + i
/-- 0x3014.01 (R205) -/
@[reducible] def O.BANK_SEL (k i : Nat) : Addr := 0x301401 + 0x10000 * k + i
/-- 0x3015.01 (R205) -/
@[reducible] def O.DL_MODE (k : Nat) : Addr := 0x301501 + 0x10000 * k
/-- 0x3015.02 (R205) -/
@[reducible] def O.ENG_FLAGS (k : Nat) : Addr := 0x301502 + 0x10000 * k
/-- 0x3015.03 (R205) -/
@[reducible] def O.MISS_CNT (k : Nat) : Addr := 0x301503 + 0x10000 * k
/-- 0x3015.04 (R205) -/
@[reducible] def O.MISS_TOTAL (k : Nat) : Addr := 0x301504 + 0x10000 * k
/-- 0x3015.05 (R205) -/
@[reducible] def O.MISS_CONSEC (k : Nat) : Addr := 0x301505 + 0x10000 * k
/-- 0x3015.06 (R205) -/
@[reducible] def O.MISS_WIN (k : Nat) : Addr := 0x301506 + 0x10000 * k
/-- 0x3015.07 (R205) -/
@[reducible] def O.GROUND_CNT (k : Nat) : Addr := 0x301507 + 0x10000 * k
/-- 0x3015.08 (R205) -/
@[reducible] def O.STSAT_CNT (k : Nat) : Addr := 0x301508 + 0x10000 * k
/-- 0x3016.01 (R205) -/
@[reducible] def O.U0_MIN (k : Nat) : Addr := 0x301601 + 0x10000 * k
/-- 0x3016.02 (R205) -/
@[reducible] def O.U0_MAX (k : Nat) : Addr := 0x301602 + 0x10000 * k
/-- 0x3016.03 (R205) -/
@[reducible] def O.U1_LIM (k : Nat) : Addr := 0x301603 + 0x10000 * k
/-- 0x3016.04 (R205) -/
@[reducible] def O.DUTY_MAX (k : Nat) : Addr := 0x301604 + 0x10000 * k
/-- 0x3018.01 (R205) -/
@[reducible] def O.GL_KP (k : Nat) : Addr := 0x301801 + 0x10000 * k
/-- 0x3018.02 (R205) -/
@[reducible] def O.GL_KI (k : Nat) : Addr := 0x301802 + 0x10000 * k
/-- 0x3018.03 (R205) -/
@[reducible] def O.GL_KD (k : Nat) : Addr := 0x301803 + 0x10000 * k
/-- 0x3018.04 (R205) -/
@[reducible] def O.GL_ILIM (k : Nat) : Addr := 0x301804 + 0x10000 * k
/-- 0x3018.05 (R205) -/
@[reducible] def O.GL_BLEND (k : Nat) : Addr := 0x301805 + 0x10000 * k
/-- 0x3020.01 (R240) -/
@[reducible] def O.LSAT_STEP (k : Nat) : Addr := 0x302001 + 0x10000 * k
/-- 0x3020.02 (R240) -/
@[reducible] def O.LSAT_ROW (k : Nat) : Addr := 0x302002 + 0x10000 * k
/-- 0x3020.03 (R240) -/
@[reducible] def O.LSAT_S (k : Nat) : Addr := 0x302003 + 0x10000 * k
/-- 0x3021.01 (R240) -/
@[reducible] def O.RIP_TAB (k : Nat) : Addr := 0x302101 + 0x10000 * k
/-- 0x3021.02 (R240) -/
@[reducible] def O.RIP_CMD (k : Nat) : Addr := 0x302102 + 0x10000 * k
/-- 0x3021.03 (R240) -/
@[reducible] def O.RIP_STAT (k : Nat) : Addr := 0x302103 + 0x10000 * k
/-- 0x3021.04 (R240) -/
@[reducible] def O.RIP_ERRPOS (k : Nat) : Addr := 0x302104 + 0x10000 * k
/-- 0x3022.01 (R240) -/
@[reducible] def O.RIP_EN (k : Nat) : Addr := 0x302201 + 0x10000 * k
/-- 0x3022.02 (R240) -/
@[reducible] def O.RIP_NACT (k : Nat) : Addr := 0x302202 + 0x10000 * k
/-- 0x3023.01 (R240) -/
@[reducible] def O.BFF_MODE (k : Nat) : Addr := 0x302301 + 0x10000 * k
/-- 0x3023.02 (R240) -/
@[reducible] def O.BFF_VFIX (k : Nat) : Addr := 0x302302 + 0x10000 * k
/-- 0x3023.03 (R240) -/
@[reducible] def O.BFF_VMIN (k : Nat) : Addr := 0x302303 + 0x10000 * k
/-- 0x3023.04 (R240) -/
@[reducible] def O.BFF_STAT (k : Nat) : Addr := 0x302304 + 0x10000 * k
/-- 0x3024.01 (R240) -/
@[reducible] def O.LL_R (k : Nat) : Addr := 0x302401 + 0x10000 * k
/-- 0x3024.02 (R240) -/
@[reducible] def O.LL_R_NOW (k : Nat) : Addr := 0x302402 + 0x10000 * k
/-- 0x3024.03 (R240) -/
@[reducible] def O.LL_CSLEW (k : Nat) : Addr := 0x302403 + 0x10000 * k
/-- 0x3024.04 (R240) -/
@[reducible] def O.LL_VMAX (k : Nat) : Addr := 0x302404 + 0x10000 * k
/-- 0x3024.05 (R240) -/
@[reducible] def O.DROOP_NOW (k : Nat) : Addr := 0x302405 + 0x10000 * k
/-- 0x3025.01 (R240) -/
@[reducible] def O.TIM_TAB (k : Nat) : Addr := 0x302501 + 0x10000 * k
/-- 0x3025.02 (R240) -/
@[reducible] def O.TIM_CMD (k : Nat) : Addr := 0x302502 + 0x10000 * k
/-- 0x3025.03 (R240) -/
@[reducible] def O.TIM_STAT (k : Nat) : Addr := 0x302503 + 0x10000 * k
/-- 0x3025.04 (R240) -/
@[reducible] def O.TIM_ERRPOS (k : Nat) : Addr := 0x302504 + 0x10000 * k
/-- 0x3030.01 (R282) -/
@[reducible] def O.SK_EN (k : Nat) : Addr := 0x303001 + 0x10000 * k
/-- 0x3030.02 (R282) -/
@[reducible] def O.SK_CONF_MIN (k : Nat) : Addr := 0x303002 + 0x10000 * k
/-- 0x3030.03 (R282) -/
@[reducible] def O.SK_GRACE (k : Nat) : Addr := 0x303003 + 0x10000 * k
/-- 0x3030.04 (R282) -/
@[reducible] def O.SK_IPH (k : Nat) : Addr := 0x303004 + 0x10000 * k
/-- 0x3030.05 (R282) -/
@[reducible] def O.SK_VBIAS (k : Nat) : Addr := 0x303005 + 0x10000 * k
/-- 0x3030.06 (R282) -/
@[reducible] def O.SK_TOL_UP (k : Nat) : Addr := 0x303006 + 0x10000 * k
/-- 0x3030.07 (R282) -/
@[reducible] def O.SK_TOL_DN (k : Nat) : Addr := 0x303007 + 0x10000 * k
/-- 0x3030.08 (R282) -/
@[reducible] def O.SK_VGUARD (k : Nat) : Addr := 0x303008 + 0x10000 * k
/-- 0x3030.09 (R282) -/
@[reducible] def O.SK_SLEW (k : Nat) : Addr := 0x303009 + 0x10000 * k
/-- 0x3030.0A (R282) -/
@[reducible] def O.SK_BUS_HR (k : Nat) : Addr := 0x30300A + 0x10000 * k
/-- 0x3030.0B (R282) -/
@[reducible] def O.SK_BUS_HOLD (k : Nat) : Addr := 0x30300B + 0x10000 * k
/-- 0x3030.0C (R282) -/
@[reducible] def O.SK_RUNAHEAD (k : Nat) : Addr := 0x30300C + 0x10000 * k
/-- 0x3030.0D (R282) -/
@[reducible] def O.SK_CONF_V (k : Nat) : Addr := 0x30300D + 0x10000 * k
/-- 0x3030.0E (R282) -/
@[reducible] def O.SK_CONF_I (k : Nat) : Addr := 0x30300E + 0x10000 * k
/-- 0x3030.0F (R282) -/
@[reducible] def O.SK_TRISE (k : Nat) : Addr := 0x30300F + 0x10000 * k
/-- 0x3030.10 (R282) -/
@[reducible] def O.SK_DRIFT_KI (k : Nat) : Addr := 0x303010 + 0x10000 * k
/-- 0x3030.11 (R282) -/
@[reducible] def O.SK_KFF (k : Nat) : Addr := 0x303011 + 0x10000 * k
/-- 0x3030.12 (R282) -/
@[reducible] def O.SK_BLEND (k : Nat) : Addr := 0x303012 + 0x10000 * k
/-- 0x3031.01 (R282) -/
@[reducible] def O.SK_STATE (k : Nat) : Addr := 0x303101 + 0x10000 * k
/-- 0x3031.02 (R282) -/
@[reducible] def O.SK_DI (k : Nat) : Addr := 0x303102 + 0x10000 * k
/-- 0x3031.03 (R282) -/
@[reducible] def O.SK_LEAD (k : Nat) : Addr := 0x303103 + 0x10000 * k
/-- 0x3031.04 (R282) -/
@[reducible] def O.SK_CLASS (k : Nat) : Addr := 0x303104 + 0x10000 * k
/-- 0x3031.05 (R282) -/
@[reducible] def O.SK_NTARGET (k : Nat) : Addr := 0x303105 + 0x10000 * k
/-- 0x3031.06 (R282) -/
@[reducible] def O.SK_NWOKEN (k : Nat) : Addr := 0x303106 + 0x10000 * k
/-- 0x3031.07 (R282) -/
@[reducible] def O.SK_BIAS_NOW (k : Nat) : Addr := 0x303107 + 0x10000 * k
/-- 0x3031.08 (R282) -/
@[reducible] def O.SK_CHAIN (k : Nat) : Addr := 0x303108 + 0x10000 * k
/-- 0x3031.09 (R282) -/
@[reducible] def O.SK_LAST_CLOSE (k : Nat) : Addr := 0x303109 + 0x10000 * k
/-- 0x3031.0A (R282) -/
@[reducible] def O.SK_DRIFT_LAST (k : Nat) : Addr := 0x30310A + 0x10000 * k
/-- 0x3032.01 (R282) -/
@[reducible] def O.SK_OPEN_CNT (k : Nat) : Addr := 0x303201 + 0x10000 * k
/-- 0x3032.02 (R282) -/
@[reducible] def O.SK_INK_CNT (k : Nat) : Addr := 0x303202 + 0x10000 * k
/-- 0x3032.03 (R282) -/
@[reducible] def O.SK_ERASE_CNT (k : Nat) : Addr := 0x303203 + 0x10000 * k
/-- 0x3032.04 (R282) -/
@[reducible] def O.SK_ERASE_EXP (k : Nat) : Addr := 0x303204 + 0x10000 * k
/-- 0x3032.05 (R282) -/
@[reducible] def O.SK_ERASE_CANCEL (k : Nat) : Addr := 0x303205 + 0x10000 * k
/-- 0x3032.06 (R282) -/
@[reducible] def O.SK_ERASE_PROT (k : Nat) : Addr := 0x303206 + 0x10000 * k
/-- 0x3032.07 (R282) -/
@[reducible] def O.SK_REPL_CNT (k : Nat) : Addr := 0x303207 + 0x10000 * k
/-- 0x3032.08 (R282) -/
@[reducible] def O.SK_REFUSE_CNT (k : Nat) : Addr := 0x303208 + 0x10000 * k
/-- 0x3032.09 (R282) -/
@[reducible] def O.SK_CONF_CNT (k : Nat) : Addr := 0x303209 + 0x10000 * k
/-- 0x3032.0A (R282) -/
@[reducible] def O.SK_TCONF_SUM (k : Nat) : Addr := 0x30320A + 0x10000 * k
/-- 0x3032.0B (R282) -/
@[reducible] def O.SK_TCONF_MEAN (k : Nat) : Addr := 0x30320B + 0x10000 * k
/-- 0x3040.01 (R335) -/
@[reducible] def O.FSW (k : Nat) : Addr := 0x304001 + 0x10000 * k
/-- 0x3040.02 (R335) -/
@[reducible] def O.PERIOD_CNT (k : Nat) : Addr := 0x304002 + 0x10000 * k
/-- 0x3040.03 (R335) -/
@[reducible] def O.PH_ORDER (k : Nat) : Addr := 0x304003 + 0x10000 * k
/-- 0x3040.04 (R335) -/
@[reducible] def O.PH_RAMP_N (k : Nat) : Addr := 0x304004 + 0x10000 * k
/-- 0x3041.01 (R335) -/
@[reducible] def O.PH_AUTO (k : Nat) : Addr := 0x304101 + 0x10000 * k
/-- 0x3041.02 (R335) -/
@[reducible] def O.PH_ADD_I (k : Nat) : Addr := 0x304102 + 0x10000 * k
/-- 0x3041.03 (R335) -/
@[reducible] def O.PH_SHED_I (k : Nat) : Addr := 0x304103 + 0x10000 * k
/-- 0x3041.04 (R335) -/
@[reducible] def O.PH_ADD_T (k : Nat) : Addr := 0x304104 + 0x10000 * k
/-- 0x3041.05 (R335) -/
@[reducible] def O.PH_SHED_T (k : Nat) : Addr := 0x304105 + 0x10000 * k
/-- 0x3041.06 (R335) -/
@[reducible] def O.PH_ZC_I (k : Nat) : Addr := 0x304106 + 0x10000 * k
/-- 0x3042.01 (R335) -/
@[reducible] def O.ACTIVE_N (k : Nat) : Addr := 0x304201 + 0x10000 * k
/-- 0x3042.02 (R335) -/
@[reducible] def O.ACTIVE_MAP0 (k : Nat) : Addr := 0x304202 + 0x10000 * k
/-- 0x3042.03 (R335) -/
@[reducible] def O.ACTIVE_MAP1 (k : Nat) : Addr := 0x304203 + 0x10000 * k
/-- 0x3042.04 (R335) -/
@[reducible] def O.ACTIVE_MAP2 (k : Nat) : Addr := 0x304204 + 0x10000 * k
/-- 0x3042.05 (R335) -/
@[reducible] def O.RESPACE (k : Nat) : Addr := 0x304205 + 0x10000 * k
/-- 0x3042.06 (R335) -/
@[reducible] def O.ADD_CNT (k : Nat) : Addr := 0x304206 + 0x10000 * k
/-- 0x3042.07 (R335) -/
@[reducible] def O.SHED_CNT (k : Nat) : Addr := 0x304207 + 0x10000 * k
/-- 0x3042.08 (R335) -/
@[reducible] def O.SHED_TMO_CNT (k : Nat) : Addr := 0x304208 + 0x10000 * k
/-- 0x3050.01 (R379) -/
@[reducible] def O.OCP_PK (k : Nat) : Addr := 0x305001 + 0x10000 * k
/-- 0x3050.02 (R379) -/
@[reducible] def O.OCP_VL (k : Nat) : Addr := 0x305002 + 0x10000 * k
/-- 0x3050.03 (R379) -/
@[reducible] def O.OCP_NEG (k : Nat) : Addr := 0x305003 + 0x10000 * k
/-- 0x3050.04 (R379) -/
@[reducible] def O.OVP_ABS (k : Nat) : Addr := 0x305004 + 0x10000 * k
/-- 0x3050.05 (R379) -/
@[reducible] def O.OVP_SET (k : Nat) : Addr := 0x305005 + 0x10000 * k
/-- 0x3050.06 (R379) -/
@[reducible] def O.OVP_SET_N (k : Nat) : Addr := 0x305006 + 0x10000 * k
/-- 0x3050.07 (R379) -/
@[reducible] def O.UVP_MARGIN (k : Nat) : Addr := 0x305007 + 0x10000 * k
/-- 0x3050.08 (R379) -/
@[reducible] def O.UVP_T (k : Nat) : Addr := 0x305008 + 0x10000 * k
/-- 0x3050.09 (R379) -/
@[reducible] def O.OV_SAFE (k : Nat) : Addr := 0x305009 + 0x10000 * k
/-- 0x3050.FE (R599) -/
@[reducible] def O.OVP_ABS_SLOTS (k : Nat) : Addr := 0x3050FE + 0x10000 * k
/-- 0x3051.01 (R379) -/
@[reducible] def O.ILIM_TOT (k : Nat) : Addr := 0x305101 + 0x10000 * k
/-- 0x3051.02 (R379) -/
@[reducible] def O.ILIM_NEG (k : Nat) : Addr := 0x305102 + 0x10000 * k
/-- 0x3051.03 (R379) -/
@[reducible] def O.ILIM_LCELL (k : Nat) : Addr := 0x305103 + 0x10000 * k
/-- 0x3051.04 (R379) -/
@[reducible] def O.ITRIP_PCT (k : Nat) : Addr := 0x305104 + 0x10000 * k
/-- 0x3051.05 (R379) -/
@[reducible] def O.ITRIP_T (k : Nat) : Addr := 0x305105 + 0x10000 * k
/-- 0x3051.06 (R379) -/
@[reducible] def O.VBUS_MIN_L (k : Nat) : Addr := 0x305106 + 0x10000 * k
/-- 0x3051.07 (R379) -/
@[reducible] def O.VBUS_MAX_L (k : Nat) : Addr := 0x305107 + 0x10000 * k
/-- 0x3051.08 (R379) -/
@[reducible] def O.ILIM_SCALE (k : Nat) : Addr := 0x305108 + 0x10000 * k
/-- 0x3052.01 (R379) -/
@[reducible] def O.POLICY (k : Nat) : Addr := 0x305201 + 0x10000 * k
/-- 0x3052.02 (R379) -/
@[reducible] def O.RETRY_N (k : Nat) : Addr := 0x305202 + 0x10000 * k
/-- 0x3052.03 (R379) -/
@[reducible] def O.RETRY_INT (k : Nat) : Addr := 0x305203 + 0x10000 * k
/-- 0x3052.04 (R379) -/
@[reducible] def O.RETRY_CLR_T (k : Nat) : Addr := 0x305204 + 0x10000 * k
/-- 0x3052.05 (R379) -/
@[reducible] def O.SHED_MAX (k : Nat) : Addr := 0x305205 + 0x10000 * k
/-- 0x3052.06 (R379) -/
@[reducible] def O.RETRY_LEFT (k : Nat) : Addr := 0x305206 + 0x10000 * k
/-- 0x3053.01 (R379) -/
@[reducible] def O.LOOP_FLT (k : Nat) : Addr := 0x305301 + 0x10000 * k
/-- 0x3053.02 (R379) -/
@[reducible] def O.LOOP_FLT_IN (k : Nat) : Addr := 0x305302 + 0x10000 * k
/-- 0x3053.03 (R379) -/
@[reducible] def O.TRIP_CNT (k : Nat) : Addr := 0x305303 + 0x10000 * k
/-- 0x3060.01 (R446) -/
@[reducible] def O.LI_VALID (k : Nat) : Addr := 0x306001 + 0x10000 * k
/-- 0x3060.02 (R446) -/
@[reducible] def O.LI_NOW (k : Nat) : Addr := 0x306002 + 0x10000 * k
/-- 0x3060.03 (R446) -/
@[reducible] def O.LI_STAT (k : Nat) : Addr := 0x306003 + 0x10000 * k
/-- 0x3060.04 (R446) -/
@[reducible] def O.TEL_SEL (k : Nat) : Addr := 0x306004 + 0x10000 * k
/-- 0x3060.05 (R446) -/
@[reducible] def O.PS_BUDGET (k : Nat) : Addr := 0x306005 + 0x10000 * k
/-- 0x3060.06 (R446) -/
@[reducible] def O.PS_POWER (k : Nat) : Addr := 0x306006 + 0x10000 * k
/-- 0x3060.07 (R446) -/
@[reducible] def O.GRANT (k : Nat) : Addr := 0x306007 + 0x10000 * k
/-- 0x3070.01 (R509) -/
@[reducible] def O.TH_ON_TM (k : Nat) : Addr := 0x307001 + 0x10000 * k
/-- 0x3070.02 (R509) -/
@[reducible] def O.TH_ON_DIE (k : Nat) : Addr := 0x307002 + 0x10000 * k
/-- 0x3070.03 (R509) -/
@[reducible] def O.TH_HYST (k : Nat) : Addr := 0x307003 + 0x10000 * k
/-- 0x3070.04 (R509) -/
@[reducible] def O.TH_STEP_T (k : Nat) : Addr := 0x307004 + 0x10000 * k
/-- 0x3070.05 (R509) -/
@[reducible] def O.TH_REL_T (k : Nat) : Addr := 0x307005 + 0x10000 * k
/-- 0x3070.06 (R509) -/
@[reducible] def O.TH_BUD_LVLS (k : Nat) : Addr := 0x307006 + 0x10000 * k
/-- 0x3070.07 (R509) -/
@[reducible] def O.TH_SHED_LVL (k : Nat) : Addr := 0x307007 + 0x10000 * k
/-- 0x3070.08 (R509) -/
@[reducible] def O.TH_SHED_DT (k : Nat) : Addr := 0x307008 + 0x10000 * k
/-- 0x3070.09 (R509) -/
@[reducible] def O.TH_SHED_T (k : Nat) : Addr := 0x307009 + 0x10000 * k
/-- 0x3071.01 (R509) -/
@[reducible] def O.TH_LEVEL (k : Nat) : Addr := 0x307101 + 0x10000 * k
/-- 0x3071.02 (R509) -/
@[reducible] def O.TH_FACTOR (k : Nat) : Addr := 0x307102 + 0x10000 * k
/-- 0x3071.03 (R509) -/
@[reducible] def O.TH_BUDGET (k : Nat) : Addr := 0x307103 + 0x10000 * k
/-- 0x3071.04 (R509) -/
@[reducible] def O.TH_FROZEN (k : Nat) : Addr := 0x307104 + 0x10000 * k
/-- 0x3071.05 (R509) -/
@[reducible] def O.TH_SD (k : Nat) : Addr := 0x307105 + 0x10000 * k
/-- 0x3071.06 (R509) -/
@[reducible] def O.TH_STEP_CNT (k : Nat) : Addr := 0x307106 + 0x10000 * k
/-- 0x3071.07 (R509) -/
@[reducible] def O.TH_SWAP_CNT (k : Nat) : Addr := 0x307107 + 0x10000 * k
/-- 0x3080.01 (R542) -/
@[reducible] def O.BUR_MODE (k : Nat) : Addr := 0x308001 + 0x10000 * k
/-- 0x3080.02 (R542) -/
@[reducible] def O.BUR_POLICY (k : Nat) : Addr := 0x308002 + 0x10000 * k
/-- 0x3080.03 (R542) -/
@[reducible] def O.BUR_IPK (k : Nat) : Addr := 0x308003 + 0x10000 * k
/-- 0x3080.04 (R542) -/
@[reducible] def O.BUR_L_LO (k : Nat) : Addr := 0x308004 + 0x10000 * k
/-- 0x3080.05 (R542) -/
@[reducible] def O.BUR_L_HI (k : Nat) : Addr := 0x308005 + 0x10000 * k
/-- 0x3080.06 (R542) -/
@[reducible] def O.BUR_DCR_LO (k : Nat) : Addr := 0x308006 + 0x10000 * k
/-- 0x3080.07 (R542) -/
@[reducible] def O.BUR_DCR_HI (k : Nat) : Addr := 0x308007 + 0x10000 * k
/-- 0x3080.08 (R542) -/
@[reducible] def O.BUR_GAIN_TOL (k : Nat) : Addr := 0x308008 + 0x10000 * k
/-- 0x3080.09 (R542) -/
@[reducible] def O.BUR_OFS_MAX (k : Nat) : Addr := 0x308009 + 0x10000 * k
/-- 0x3080.0A (R542) -/
@[reducible] def O.BUR_DLY_MAX (k : Nat) : Addr := 0x30800A + 0x10000 * k
/-- 0x3080.0B (R542) -/
@[reducible] def O.BUR_STATE (k : Nat) : Addr := 0x30800B + 0x10000 * k
/-- 0x3080.0C (R542) -/
@[reducible] def O.BUR_VALID (k : Nat) : Addr := 0x30800C + 0x10000 * k
/-- 0x3080.0D (R542) -/
@[reducible] def O.BUR_EXCL_N (k : Nat) : Addr := 0x30800D + 0x10000 * k
/-- 0x4001.01 (R336) -/
@[reducible] def O.CELL_DIS (n : Nat) : Addr := 0x400101 + 0x2000 * n
/-- 0x4001.02 (R336) -/
@[reducible] def O.CELL_OUT (n : Nat) : Addr := 0x400102 + 0x2000 * n
/-- 0x4001.03 (R336) -/
@[reducible] def O.LEDGER (n : Nat) : Addr := 0x400103 + 0x2000 * n
/-- 0x4001.04 (R336) -/
@[reducible] def O.LEDGER_DROP (n : Nat) : Addr := 0x400104 + 0x2000 * n
/-- 0x4001.05 (R336) -/
@[reducible] def O.RUNT_CNT (n : Nat) : Addr := 0x400105 + 0x2000 * n
/-- 0x4001.06 (R336) -/
@[reducible] def O.SLOT_POS (n : Nat) : Addr := 0x400106 + 0x2000 * n
/-- 0x4001.07 (R336) -/
@[reducible] def O.TON_LAST (n : Nat) : Addr := 0x400107 + 0x2000 * n
/-- 0x4004.01 (R152) -/
@[reducible] def O.IMTRIM_GAIN (n i : Nat) : Addr := 0x400401 + 0x2000 * n + i
/-- 0x4005.01 (R152) -/
@[reducible] def O.IMTRIM_OFS (n i : Nat) : Addr := 0x400501 + 0x2000 * n + i
/-- 0x4006.01 (R152) -/
@[reducible] def O.IMTRIM_DLY (n i : Nat) : Addr := 0x400601 + 0x2000 * n + i
/-- 0x4007.01 (R152) -/
@[reducible] def O.IMTRIM_VALID (n : Nat) : Addr := 0x400701 + 0x2000 * n
/-- 0x4007.02 (R152) -/
@[reducible] def O.IMON_RAW (n : Nat) : Addr := 0x400702 + 0x2000 * n
/-- 0x4007.03 (R152) -/
@[reducible] def O.IMON_CUR (n : Nat) : Addr := 0x400703 + 0x2000 * n
/-- 0x4007.04 (R152) -/
@[reducible] def O.IMON_BAND (n : Nat) : Addr := 0x400704 + 0x2000 * n
/-- 0x4008.01 (R242) -/
@[reducible] def O.CS_GAIN (n : Nat) : Addr := 0x400801 + 0x2000 * n
/-- 0x4008.02 (R242) -/
@[reducible] def O.CS_OFS (n : Nat) : Addr := 0x400802 + 0x2000 * n
/-- 0x4008.03 (R242) -/
@[reducible] def O.CS_TC (n : Nat) : Addr := 0x400803 + 0x2000 * n
/-- 0x4008.04 (R242) -/
@[reducible] def O.CS_TREF (n : Nat) : Addr := 0x400804 + 0x2000 * n
/-- 0x4008.05 (R242) -/
@[reducible] def O.CS_GT (n : Nat) : Addr := 0x400805 + 0x2000 * n
/-- 0x4009.01 (R380) -/
@[reducible] def O.CELL_FLT (n : Nat) : Addr := 0x400901 + 0x2000 * n
/-- 0x4009.02 (R380) -/
@[reducible] def O.CELL_FLT_IN (n : Nat) : Addr := 0x400902 + 0x2000 * n
/-- 0x4009.03 (R380) -/
@[reducible] def O.CELL_IABS (n : Nat) : Addr := 0x400903 + 0x2000 * n
/-- 0x4009.04 (R380) -/
@[reducible] def O.CELL_TRIP_CNT (n : Nat) : Addr := 0x400904 + 0x2000 * n
/-- 0x4009.FE (R599) -/
@[reducible] def O.CELL_IABS_SLOTS (n : Nat) : Addr := 0x4009FE + 0x2000 * n
/-- 0x400A.01 (R543) -/
@[reducible] def O.BUR_RES (n : Nat) : Addr := 0x400A01 + 0x2000 * n
/-- 0x400A.02 (R543) -/
@[reducible] def O.BUR_L (n : Nat) : Addr := 0x400A02 + 0x2000 * n
/-- 0x400A.03 (R543) -/
@[reducible] def O.BUR_DCR (n : Nat) : Addr := 0x400A03 + 0x2000 * n
/-- 0x400A.04 (R543) -/
@[reducible] def O.BUR_KREL (n : Nat) : Addr := 0x400A04 + 0x2000 * n
/-- 0x400A.05 (R543) -/
@[reducible] def O.BUR_DLY (n : Nat) : Addr := 0x400A05 + 0x2000 * n
/-- 0x5000.01 (R471) -/
@[reducible] def O.FB_CMD : Addr := 0x500001
/-- 0x5000.02 (R471) -/
@[reducible] def O.FB_AUTO : Addr := 0x500002
/-- 0x5000.03 (R471) -/
@[reducible] def O.FB_STATE : Addr := 0x500003
/-- 0x5000.04 (R471) -/
@[reducible] def O.FB_FSW : Addr := 0x500004
/-- 0x5000.05 (R471) -/
@[reducible] def O.FB_VSTART : Addr := 0x500005
/-- 0x5000.06 (R471) -/
@[reducible] def O.FB_SS_SLEW : Addr := 0x500006
/-- 0x5000.07 (R471) -/
@[reducible] def O.FB_SS_TMO : Addr := 0x500007
/-- 0x5000.08 (R471) -/
@[reducible] def O.FB_KP : Addr := 0x500008
/-- 0x5000.09 (R471) -/
@[reducible] def O.FB_KI : Addr := 0x500009
/-- 0x5000.0A (R471) -/
@[reducible] def O.FB_KD : Addr := 0x50000A
/-- 0x5000.0B (R471) -/
@[reducible] def O.FB_ILIM_V : Addr := 0x50000B
/-- 0x5000.0C (R471) -/
@[reducible] def O.FB_DMAX : Addr := 0x50000C
/-- 0x5000.0D (R471) -/
@[reducible] def O.FB_ICH_MAX : Addr := 0x50000D
/-- 0x5000.0E (R471) -/
@[reducible] def O.FB_RLIM : Addr := 0x50000E
/-- 0x5000.0F (R471) -/
@[reducible] def O.FB_GCS : Addr := 0x50000F
/-- 0x5000.10 (R471) -/
@[reducible] def O.FB_BAL_K : Addr := 0x500010
/-- 0x5000.11 (R471) -/
@[reducible] def O.FB_BAL_LIM : Addr := 0x500011
/-- 0x5000.12 (R471) -/
@[reducible] def O.FB_PERIOD_CNT : Addr := 0x500012
/-- 0x5001.01 (R472) -/
@[reducible] def O.BS_MODE : Addr := 0x500101
/-- 0x5001.02 (R472) -/
@[reducible] def O.BS_VFIX : Addr := 0x500102
/-- 0x5001.03 (R472) -/
@[reducible] def O.BS_VMAX : Addr := 0x500103
/-- 0x5001.04 (R472) -/
@[reducible] def O.BS_MARGIN : Addr := 0x500104
/-- 0x5001.05 (R472) -/
@[reducible] def O.BS_DHEAD : Addr := 0x500105
/-- 0x5001.06 (R472) -/
@[reducible] def O.BS_WIN : Addr := 0x500106
/-- 0x5001.07 (R472) -/
@[reducible] def O.BS_SLEW : Addr := 0x500107
/-- 0x5001.08 (R472) -/
@[reducible] def O.BS_DOWN_T : Addr := 0x500108
/-- 0x5001.09 (R472) -/
@[reducible] def O.BS_EFF_EN : Addr := 0x500109
/-- 0x5001.0A (R472) -/
@[reducible] def O.EFF_PSTEP : Addr := 0x50010A
/-- 0x5002.01 (R472) -/
@[reducible] def O.BS_TARGET : Addr := 0x500201
/-- 0x5002.02 (R472) -/
@[reducible] def O.BS_VCMD : Addr := 0x500202
/-- 0x5002.03 (R472) -/
@[reducible] def O.BS_VNEED : Addr := 0x500203
/-- 0x5002.04 (R472) -/
@[reducible] def O.BS_VEFF : Addr := 0x500204
/-- 0x5002.05 (R472) -/
@[reducible] def O.BS_FLOOR : Addr := 0x500205
/-- 0x5002.06 (R472) -/
@[reducible] def O.BS_CEIL : Addr := 0x500206
/-- 0x5002.07 (R472) -/
@[reducible] def O.BS_HR : Addr := 0x500207
/-- 0x5002.08 (R472) -/
@[reducible] def O.BS_STAT : Addr := 0x500208
/-- 0x5002.09 (R472) -/
@[reducible] def O.P_TOT : Addr := 0x500209
/-- 0x5002.0A (R472) -/
@[reducible] def O.FB_NCH : Addr := 0x50020A
/-- 0x5003.01 (R473) -/
@[reducible] def O.EFF_TAB : Addr := 0x500301
/-- 0x5003.02 (R473) -/
@[reducible] def O.EFF_CMD : Addr := 0x500302
/-- 0x5003.03 (R473) -/
@[reducible] def O.EFF_STAT : Addr := 0x500303
/-- 0x5003.04 (R473) -/
@[reducible] def O.EFF_ERRPOS : Addr := 0x500304
/-- 0x5004.01 (R471) -/
@[reducible] def O.FCH_I (i : Nat) : Addr := 0x500401 + i
/-- 0x5005.01 (R471) -/
@[reducible] def O.FCH_TRIM (i : Nat) : Addr := 0x500501 + i
/-- 0x5010.01 (R153) -/
@[reducible] def O.VBUS_DIV : Addr := 0x501001
/-- 0x5010.02 (R153) -/
@[reducible] def O.VIN_DIV : Addr := 0x501002
/-- 0x5010.03 (R153) -/
@[reducible] def O.VBUS_MEAS : Addr := 0x501003
/-- 0x5010.04 (R153) -/
@[reducible] def O.VIN_MEAS : Addr := 0x501004
/-- 0x5020.01 (R243) -/
@[reducible] def O.FB_TIM_TAB : Addr := 0x502001
/-- 0x5020.02 (R243) -/
@[reducible] def O.FB_TIM_CMD : Addr := 0x502002
/-- 0x5020.03 (R243) -/
@[reducible] def O.FB_TIM_STAT : Addr := 0x502003
/-- 0x5020.04 (R243) -/
@[reducible] def O.FB_TIM_ERRPOS : Addr := 0x502004
/-- 0x5030.01 (R339) -/
@[reducible] def O.FCH_DIS : Addr := 0x503001
/-- 0x5030.02 (R339) -/
@[reducible] def O.FCH_OUT : Addr := 0x503002
/-- 0x5030.03 (R339) -/
@[reducible] def O.FB_RUNT_CNT : Addr := 0x503003
/-- 0x5030.04 (R339) -/
@[reducible] def O.FB_LEDGER_DROP : Addr := 0x503004
/-- 0x5040.01 (R382) -/
@[reducible] def O.FB_OV : Addr := 0x504001
/-- 0x5040.02 (R382) -/
@[reducible] def O.FB_UV : Addr := 0x504002
/-- 0x5040.03 (R382) -/
@[reducible] def O.VIN_OV_ABS : Addr := 0x504003
/-- 0x5040.04 (R382) -/
@[reducible] def O.VIN_UV : Addr := 0x504004
/-- 0x5040.05 (R382) -/
@[reducible] def O.FOC_TH : Addr := 0x504005
/-- 0x5040.06 (R382) -/
@[reducible] def O.FOC_BLANK : Addr := 0x504006
/-- 0x5040.07 (R382) -/
@[reducible] def O.FB_POLICY : Addr := 0x504007
/-- 0x5040.08 (R382) -/
@[reducible] def O.FB_RETRY_N : Addr := 0x504008
/-- 0x5040.09 (R382) -/
@[reducible] def O.FB_RETRY_INT : Addr := 0x504009
/-- 0x5040.0A (R382) -/
@[reducible] def O.FB_FLT : Addr := 0x50400A
/-- 0x5040.0B (R382) -/
@[reducible] def O.FB_FLT_IN : Addr := 0x50400B
/-- 0x5040.0C (R382) -/
@[reducible] def O.FOC_FLT : Addr := 0x50400C
/-- 0x5040.FE (R599) -/
@[reducible] def O.VIN_OV_ABS_SLOTS : Addr := 0x5040FE
/-- 0x5800.01 (R506) -/
@[reducible] def O.TSD_DIE : Addr := 0x580001
/-- 0x5800.02 (R506) -/
@[reducible] def O.TMON_SD_MV : Addr := 0x580002
/-- 0x5800.03 (R506) -/
@[reducible] def O.TM_RS_MV : Addr := 0x580003
/-- 0x5800.04 (R506) -/
@[reducible] def O.TM_V0 : Addr := 0x580004
/-- 0x5800.05 (R506) -/
@[reducible] def O.TM_SLOPE : Addr := 0x580005
/-- 0x5800.06 (R506) -/
@[reducible] def O.TM_ROR_TH : Addr := 0x580006
/-- 0x5800.07 (R506) -/
@[reducible] def O.TM_ROR_SD : Addr := 0x580007
/-- 0x5800.08 (R506) -/
@[reducible] def O.TM_FAIL_LO : Addr := 0x580008
/-- 0x5800.FE (R599) -/
@[reducible] def O.TMON_SD_MV_SLOTS : Addr := 0x5800FE
/-- 0x5801.01 (R506) -/
@[reducible] def O.TH_FLT : Addr := 0x580101
/-- 0x5801.02 (R506) -/
@[reducible] def O.TH_STAT : Addr := 0x580102
/-- 0x5801.03 (R506) -/
@[reducible] def O.TSD_CAUSE : Addr := 0x580103
/-- 0x5801.04 (R506) -/
@[reducible] def O.TSD_SENSOR : Addr := 0x580104
/-- 0x5801.05 (R506) -/
@[reducible] def O.TSD_UPTIME : Addr := 0x580105
/-- 0x5801.06 (R506) -/
@[reducible] def O.TSD_CNT : Addr := 0x580106
/-- 0x5801.07 (R506) -/
@[reducible] def O.TSD_RECENT : Addr := 0x580107
/-- 0x5802.01 (R506) -/
@[reducible] def O.DTC_T : Addr := 0x580201
/-- 0x5802.02 (R506) -/
@[reducible] def O.DTC_BAND : Addr := 0x580202
/-- 0x5802.03 (R506) -/
@[reducible] def O.DTC_STAT : Addr := 0x580203
/-- 0x5802.04 (R506) -/
@[reducible] def O.DTC_ROR : Addr := 0x580204
/-- 0x6000.01 (R445) -/
@[reducible] def O.AML_EN (p : Nat) : Addr := 0x600001 + 0x2000 * p
/-- 0x6000.02 (R445) -/
@[reducible] def O.OWN_MAP (p : Nat) : Addr := 0x600002 + 0x2000 * p
/-- 0x6000.03 (R445) -/
@[reducible] def O.RATE_MAX (p : Nat) : Addr := 0x600003 + 0x2000 * p
/-- 0x6000.04 (R445) -/
@[reducible] def O.ALERT_MASK (p : Nat) : Addr := 0x600004 + 0x2000 * p
/-- 0x6000.05 (R445) -/
@[reducible] def O.ALERT_REP (p : Nat) : Addr := 0x600005 + 0x2000 * p
/-- 0x6000.06 (R445) -/
@[reducible] def O.BUD_REP (p : Nat) : Addr := 0x600006 + 0x2000 * p
/-- 0x6000.07 (R445) -/
@[reducible] def O.TEL_DIV (p : Nat) : Addr := 0x600007 + 0x2000 * p
/-- 0x6000.08 (R445) -/
@[reducible] def O.LINK_UP_T (p : Nat) : Addr := 0x600008 + 0x2000 * p
/-- 0x6000.09 (R445) -/
@[reducible] def O.LINK_RETRY (p : Nat) : Addr := 0x600009 + 0x2000 * p
/-- 0x6000.0A (R445) -/
@[reducible] def O.LINK_CMD (p : Nat) : Addr := 0x60000A + 0x2000 * p
/-- 0x6001.01 (R445) -/
@[reducible] def O.LINK_STATE (p : Nat) : Addr := 0x600101 + 0x2000 * p
/-- 0x6001.02 (R445) -/
@[reducible] def O.RATE_NOW (p : Nat) : Addr := 0x600102 + 0x2000 * p
/-- 0x6001.03 (R445) -/
@[reducible] def O.ADLY (p : Nat) : Addr := 0x600103 + 0x2000 * p
/-- 0x6001.04 (R445) -/
@[reducible] def O.LOAD_CAP (p : Nat) : Addr := 0x600104 + 0x2000 * p
/-- 0x6001.05 (R445) -/
@[reducible] def O.BLK_ERR (p : Nat) : Addr := 0x600105 + 0x2000 * p
/-- 0x6001.06 (R445) -/
@[reducible] def O.ALERT_OUT (p : Nat) : Addr := 0x600106 + 0x2000 * p
/-- 0x6002.01 (R445) -/
@[reducible] def O.CYCLE_CNT (p : Nat) : Addr := 0x600201 + 0x2000 * p
/-- 0x6002.02 (R445) -/
@[reducible] def O.CRC_ERR_UP (p : Nat) : Addr := 0x600202 + 0x2000 * p
/-- 0x6002.03 (R445) -/
@[reducible] def O.CRC_ERR_DN (p : Nat) : Addr := 0x600203 + 0x2000 * p
/-- 0x6002.04 (R445) -/
@[reducible] def O.NAK_CNT (p : Nat) : Addr := 0x600204 + 0x2000 * p
/-- 0x6002.05 (R445) -/
@[reducible] def O.ALACK_BAD (p : Nat) : Addr := 0x600205 + 0x2000 * p
/-- 0x6002.06 (R445) -/
@[reducible] def O.TRAIN_CNT (p : Nat) : Addr := 0x600206 + 0x2000 * p
/-- 0x6002.07 (R445) -/
@[reducible] def O.FALLBACK_CNT (p : Nat) : Addr := 0x600207 + 0x2000 * p
/-- 0x6400.01 (R573) -/
@[reducible] def O.TW_PREF : Addr := 0x640001
/-- 0x6400.02 (R573) -/
@[reducible] def O.TW_ROLE : Addr := 0x640002
/-- 0x6400.03 (R573) -/
@[reducible] def O.TW_CMD : Addr := 0x640003
/-- 0x6400.04 (R573) -/
@[reducible] def O.TW_AUTOJOIN : Addr := 0x640004
/-- 0x6400.05 (R573) -/
@[reducible] def O.TW_REJOIN_T : Addr := 0x640005
/-- 0x6400.06 (R573) -/
@[reducible] def O.TW_ABD_MASK : Addr := 0x640006
/-- 0x6400.07 (R573) -/
@[reducible] def O.TW_DIV_BOUND : Addr := 0x640007
/-- 0x6400.08 (R573) -/
@[reducible] def O.TW_DIV_MAX : Addr := 0x640008
/-- 0x6400.09 (R573) -/
@[reducible] def O.TW_PEER_ADDR : Addr := 0x640009
/-- 0x6400.FE (R599) -/
@[reducible] def O.TW_PREF_SLOTS : Addr := 0x6400FE
/-- 0x6401.01 (R573) -/
@[reducible] def O.TWIN_STAT : Addr := 0x640101
/-- 0x6401.02 (R573) -/
@[reducible] def O.TW_PEER_ROLE : Addr := 0x640102
/-- 0x6401.03 (R573) -/
@[reducible] def O.TW_JOIN_STEP : Addr := 0x640103
/-- 0x6401.04 (R573) -/
@[reducible] def O.TW_ALIGN_AGE : Addr := 0x640104
/-- 0x6401.05 (R573) -/
@[reducible] def O.TKO_GAP_LAST : Addr := 0x640105
/-- 0x6402.01 (R573) -/
@[reducible] def O.TKO_CNT : Addr := 0x640201
/-- 0x6402.02 (R573) -/
@[reducible] def O.ABD_CNT : Addr := 0x640202
/-- 0x6402.03 (R573) -/
@[reducible] def O.DIV_CNT : Addr := 0x640203
/-- 0x6402.04 (R573) -/
@[reducible] def O.JOIN_CNT : Addr := 0x640204
/-- 0x6402.05 (R573) -/
@[reducible] def O.JOIN_FAIL_CNT : Addr := 0x640205
/-- 0x6402.06 (R573) -/
@[reducible] def O.TW_CRC_ERR : Addr := 0x640206
/-- 0x7000.01 (R739) -/
@[reducible] def O.STORE_CMD : Addr := 0x700001
/-- 0x7000.02 (R739) -/
@[reducible] def O.STORE_STAT : Addr := 0x700002
/-- 0x7000.03 (R739) -/
@[reducible] def O.STORE_CNT : Addr := 0x700003
/-- 0x7000.04 (R739) -/
@[reducible] def O.STORE_T_LAST : Addr := 0x700004
/-- 0x7000.05 (R739) -/
@[reducible] def O.BANK_NOW : Addr := 0x700005
/-- 0x7000.06 (R739) -/
@[reducible] def O.BANK_SEQ : Addr := 0x700006
/-- 0x7000.07 (R739) -/
@[reducible] def O.DIRTY_N : Addr := 0x700007
/-- 0x7000.08 (R739) -/
@[reducible] def O.ECC_CE_CNT : Addr := 0x700008
/-- 0x7000.09 (R739) -/
@[reducible] def O.ECC_UE_CNT : Addr := 0x700009
/-- 0x7000.0A (R739) -/
@[reducible] def O.PLATE_FLT : Addr := 0x70000A
/-- 0x7001.01 (R739) -/
@[reducible] def O.UPTIME : Addr := 0x700101
/-- 0x7001.02 (R739) -/
@[reducible] def O.WALL_S : Addr := 0x700102
/-- 0x7001.03 (R739) -/
@[reducible] def O.WALL_US : Addr := 0x700103
/-- 0x7001.04 (R739) -/
@[reducible] def O.WALL_SET_S : Addr := 0x700104
/-- 0x7001.05 (R739) -/
@[reducible] def O.WALL_SET_US : Addr := 0x700105
/-- 0x7001.06 (R739) -/
@[reducible] def O.WALL_STAT : Addr := 0x700106
/-- 0x7002.01 (R739) -/
@[reducible] def O.LOG_CMD : Addr := 0x700201
/-- 0x7002.02 (R739) -/
@[reducible] def O.LOG_STAT : Addr := 0x700202
/-- 0x7002.03 (R739) -/
@[reducible] def O.LOG_USED : Addr := 0x700203
/-- 0x7002.04 (R739) -/
@[reducible] def O.LOG_FIRST_SEQ : Addr := 0x700204
/-- 0x7002.05 (R739) -/
@[reducible] def O.LOG_NEXT_SEQ : Addr := 0x700205
/-- 0x7002.06 (R739) -/
@[reducible] def O.LOG_REFUSED : Addr := 0x700206
/-- 0x7002.07 (R739) -/
@[reducible] def O.LOG_SEL_SEQ : Addr := 0x700207
/-- 0x7002.08 (R739) -/
@[reducible] def O.LOG_REC : Addr := 0x700208
/-- 0x7002.09 (R739) -/
@[reducible] def O.MARGIN_USED : Addr := 0x700209
/-- 0x7003.01 (R739) -/
@[reducible] def O.SCR_OFS : Addr := 0x700301
/-- 0x7003.02 (R739) -/
@[reducible] def O.SCR_DATA : Addr := 0x700302
/-- 0x7004.01 (R739) -/
@[reducible] def O.LT_VCTRL_UP : Addr := 0x700401
/-- 0x7004.02 (R739) -/
@[reducible] def O.LT_RST_CNT : Addr := 0x700402
/-- 0x7004.03 (R739) -/
@[reducible] def O.LT_PF_STORES : Addr := 0x700403
/-- 0x7004.04 (R739) -/
@[reducible] def O.LT_STORE_INT : Addr := 0x700404
/-- 0x7005.01 (R739) -/
@[reducible] def O.ENERGY (i : Nat) : Addr := 0x700501 + i
/-- 0x7800.01 (R740) -/
@[reducible] def O.TR_UNLOAD : Addr := 0x780001
/-- 0x7800.02 (R740) -/
@[reducible] def O.TR_UNLOAD_STAT : Addr := 0x780002
/-- 0x7800.03 (R740) -/
@[reducible] def O.TR_CAP_KIB : Addr := 0x780003
/-- 0x7800.04 (R740) -/
@[reducible] def O.TR_GROUP : Addr := 0x780004
/-- 0x7810.01 (R740) -/
@[reducible] def O.TR_CMD (j : Nat) : Addr := 0x781001 + 0x100 * j
/-- 0x7810.02 (R740) -/
@[reducible] def O.TR_DEC (j : Nat) : Addr := 0x781002 + 0x100 * j
/-- 0x7810.03 (R740) -/
@[reducible] def O.TR_TRIG (j : Nat) : Addr := 0x781003 + 0x100 * j
/-- 0x7810.04 (R740) -/
@[reducible] def O.TR_LEVEL (j : Nat) : Addr := 0x781004 + 0x100 * j
/-- 0x7810.05 (R740) -/
@[reducible] def O.TR_PRE (j : Nat) : Addr := 0x781005 + 0x100 * j
/-- 0x7810.06 (R740) -/
@[reducible] def O.TR_STAT (j : Nat) : Addr := 0x781006 + 0x100 * j
/-- 0x7820.01 (R740) -/
@[reducible] def O.TR_SEL (j i : Nat) : Addr := 0x782001 + 0x100 * j + i

def rows10_0 : List Row := [
  { addr := 0x100001, count := 1, ty := .u32, acc := .ro, dflt := 1347180119, ranges := [] },
  { addr := 0x100002, count := 1, ty := .u16, acc := .ro, dflt := 1, ranges := [] },
  { addr := 0x100003, count := 1, ty := .u8, acc := .ro, dflt := 96, ranges := [(4, 4), (12, 12), (24, 24), (48, 48), (96, 96)] },
  { addr := 0x100004, count := 1, ty := .u8, acc := .ro, dflt := 161, ranges := [] },
  { addr := 0x100005, count := 1, ty := .str, acc := .ro, dflt := 0, ranges := [], len := 24 },
  { addr := 0x100006, count := 1, ty := .u64, acc := .ro, dflt := 0, ranges := [(1, 18446744073709551614)] },
  { addr := 0x100007, count := 1, ty := .u16, acc := .ro, dflt := 4096, ranges := [(1024, 1024), (4096, 4096)] },
  { addr := 0x100008, count := 1, ty := .u16, acc := .ro, dflt := 256, ranges := [] },
  { addr := 0x100101, count := 1, ty := .u8, acc := .ro, dflt := 96, ranges := [(4, 96)] },
  { addr := 0x100102, count := 1, ty := .u8, acc := .ro, dflt := 24, ranges := [(1, 24)] },
  { addr := 0x100103, count := 1, ty := .u8, acc := .ro, dflt := 8, ranges := [(1, 8)] },
  { addr := 0x100104, count := 1, ty := .u8, acc := .ro, dflt := 8, ranges := [(1, 8)] },
  { addr := 0x100105, count := 1, ty := .u8, acc := .ro, dflt := 8, ranges := [(0, 8)] },
  { addr := 0x100106, count := 1, ty := .u8, acc := .ro, dflt := 2, ranges := [(1, 2)] },
  { addr := 0x100107, count := 1, ty := .u32, acc := .ro, dflt := 63, ranges := [] },
  { addr := 0x100801, count := 1, ty := .u32, acc := .rw, dflt := 0, ranges := [], reserved := 0xFF000000 }]

def rows10_1 : List Row := [
  { addr := 0x100802, count := 1, ty := .u16, acc := .ro, dflt := 40962, ranges := [(0, 0), (40961, 40961), (40962, 40962), (40963, 40963)] },
  { addr := 0x100803, count := 1, ty := .u8, acc := .ro, dflt := 0, ranges := [] },
  { addr := 0x100804, count := 1, ty := .u8, acc := .ro, dflt := 0, ranges := [] },
  { addr := 0x100805, count := 1, ty := .u16, acc := .ro, dflt := 0, ranges := [(0, 4096)] },
  { addr := 0x100806, count := 1, ty := .u64, acc := .ro, dflt := 0, ranges := [] },
  { addr := 0x100807, count := 1, ty := .u64, acc := .ro, dflt := 0, ranges := [] },
  { addr := 0x100808, count := 1, ty := .u64, acc := .ro, dflt := 0, ranges := [] }]

def rows10 : List Row := rows10_0 ++ rows10_1

def rows11_0 : List Row := [
  { addr := 0x111001, count := 1, ty := .u8, acc := .ro, dflt := 64, ranges := [(64, 79)] },
  { addr := 0x111002, count := 1, ty := .u8, acc := .ro, dflt := 0, ranges := [(0, 3)] },
  { addr := 0x111003, count := 1, ty := .bool, acc := .rw, dflt := 1, ranges := [(0, 1)], plate := true },
  { addr := 0x111004, count := 1, ty := .u8, acc := .rw, dflt := 0, ranges := [(0, 0), (8, 119)], plate := true },
  { addr := 0x111005, count := 1, ty := .u8, acc := .rw, dflt := 2, ranges := [(0, 3)], plate := true },
  { addr := 0x111006, count := 1, ty := .u8, acc := .rw, dflt := 1, ranges := [(0, 0), (1, 1), (2, 2)], plate := true },
  { addr := 0x111007, count := 1, ty := .u8, acc := .ro, dflt := 0, ranges := [] },
  { addr := 0x111008, count := 1, ty := .u8, acc := .ro, dflt := 0, ranges := [(0, 16)] },
  { addr := 0x111101, count := 1, ty := .u32, acc := .ro, dflt := 0, ranges := [(0, 4294967295)] },
  { addr := 0x111102, count := 1, ty := .u32, acc := .ro, dflt := 0, ranges := [(0, 4294967295)] },
  { addr := 0x111103, count := 1, ty := .u32, acc := .ro, dflt := 0, ranges := [(0, 4294967295)] },
  { addr := 0x111104, count := 1, ty := .u32, acc := .ro, dflt := 0, ranges := [(0, 4294967295)] },
  { addr := 0x111105, count := 1, ty := .u32, acc := .ro, dflt := 0, ranges := [(0, 4294967295)] },
  { addr := 0x111106, count := 1, ty := .u32, acc := .ro, dflt := 0, ranges := [(0, 4294967295)], plate := true },
  { addr := 0x111107, count := 1, ty := .u32, acc := .ro, dflt := 0, ranges := [(0, 4294967295)] },
  { addr := 0x112001, count := 1, ty := .u8, acc := .rwe, dflt := 0, ranges := [(0, 0), (1, 127)], integrator := true }]

def rows11_1 : List Row := [
  { addr := 0x112002, count := 1, ty := .u8, acc := .rw, dflt := 1, ranges := [(1, 120)], plate := true },
  { addr := 0x112003, count := 1, ty := .u8, acc := .ro, dflt := 0, ranges := [(0, 0), (1, 127)] },
  { addr := 0x112004, count := 1, ty := .bool, acc := .rw, dflt := 0, ranges := [(0, 1)], plate := true },
  { addr := 0x112005, count := 1, ty := .u8, acc := .rw, dflt := 2, ranges := [(0, 0), (1, 1), (2, 2), (3, 3)], plate := true },
  { addr := 0x112006, count := 1, ty := .u8, acc := .rw, dflt := 2, ranges := [(0, 0), (1, 1), (2, 2), (3, 3), (4, 4)], plate := true },
  { addr := 0x112007, count := 1, ty := .u8, acc := .rw, dflt := 80, ranges := [(60, 90)], plate := true },
  { addr := 0x112008, count := 1, ty := .u8, acc := .rw, dflt := 75, ranges := [(60, 90)], plate := true },
  { addr := 0x112009, count := 1, ty := .u16, acc := .rw, dflt := 1000, ranges := [(0, 0), (10, 10000)], plate := true },
  { addr := 0x11200A, count := 1, ty := .u8, acc := .rw, dflt := 2, ranges := [(0, 3), (255, 255)], plate := true },
  { addr := 0x11200B, count := 1, ty := .bool, acc := .rw, dflt := 1, ranges := [(0, 1)], plate := true },
  { addr := 0x1120FE, count := 1, ty := .u8, acc := .ro, dflt := 8, ranges := [(0, 8)] },
  { addr := 0x112101, count := 1, ty := .u8, acc := .ro, dflt := 0, ranges := [] },
  { addr := 0x112102, count := 1, ty := .u8, acc := .ro, dflt := 0, ranges := [(0, 255)] },
  { addr := 0x112103, count := 1, ty := .u8, acc := .ro, dflt := 0, ranges := [(0, 255)] },
  { addr := 0x112104, count := 1, ty := .u8, acc := .ro, dflt := 0, ranges := [(0, 127)] },
  { addr := 0x112201, count := 1, ty := .u32, acc := .ro, dflt := 0, ranges := [(0, 4294967295)], plate := true }]

def rows11_2 : List Row := [
  { addr := 0x112202, count := 1, ty := .u32, acc := .ro, dflt := 0, ranges := [(0, 4294967295)] },
  { addr := 0x112203, count := 1, ty := .u32, acc := .ro, dflt := 0, ranges := [(0, 4294967295)] },
  { addr := 0x112204, count := 1, ty := .u32, acc := .ro, dflt := 0, ranges := [(0, 4294967295)] },
  { addr := 0x113001, count := 1, ty := .u8, acc := .rw, dflt := 128, ranges := [(16, 255)], plate := true },
  { addr := 0x113002, count := 1, ty := .u16, acc := .rw, dflt := 0, ranges := [], plate := true },
  { addr := 0x113003, count := 1, ty := .u16, acc := .ro, dflt := 0, ranges := [] },
  { addr := 0x113004, count := 1, ty := .u32, acc := .ro, dflt := 0, ranges := [] },
  { addr := 0x113005, count := 1, ty := .u32, acc := .ro, dflt := 0, ranges := [(0, 4294967295)] },
  { addr := 0x114001, count := 1, ty := .u32, acc := .rw, dflt := 0, ranges := [], reserved := 0xFFC000, plate := true },
  { addr := 0x114002, count := 1, ty := .u32, acc := .rw, dflt := 0, ranges := [(0, 4294967295)] },
  { addr := 0x114003, count := 1, ty := .u32, acc := .rw, dflt := 0, ranges := [(0, 4294967295)] },
  { addr := 0x114004, count := 1, ty := .u32, acc := .rw, dflt := 4096, ranges := [(4, 262144)], plate := true },
  { addr := 0x114005, count := 1, ty := .u32, acc := .ro, dflt := 1, ranges := [] },
  { addr := 0x114006, count := 1, ty := .u32, acc := .ro, dflt := 0, ranges := [(0, 4294967295)] },
  { addr := 0x114007, count := 1, ty := .u32, acc := .rw, dflt := 0, ranges := [], plate := true }]

def rows11 : List Row := rows11_0 ++ rows11_1 ++ rows11_2

def rows20_0 : List Row := [
  { addr := 0x200001, count := 1, ty := .u16, acc := .ro, dflt := 1, ranges := [] },
  { addr := 0x200002, count := 1, ty := .u16, acc := .ro, dflt := 0, ranges := [] },
  { addr := 0x200003, count := 1, ty := .u32, acc := .ro, dflt := 0, ranges := [] },
  { addr := 0x200004, count := 1, ty := .u32, acc := .ro, dflt := 0, ranges := [(0, 4294967295)] },
  { addr := 0x200101, count := 1, ty := .u32, acc := .wo, dflt := 0, ranges := [(0, 4294967295)] },
  { addr := 0x200102, count := 1, ty := .u8, acc := .ro, dflt := 0, ranges := [(0, 0), (1, 1), (2, 2)] },
  { addr := 0x200103, count := 1, ty := .u8, acc := .wo, dflt := 0, ranges := [(0, 0)] },
  { addr := 0x200104, count := 1, ty := .u16, acc := .rw, dflt := 600, ranges := [(0, 0), (10, 3600)], plate := true, integrator := true },
  { addr := 0x200105, count := 1, ty := .u32, acc := .ro, dflt := 0, ranges := [(0, 4294967295)], plate := true },
  { addr := 0x200106, count := 1, ty := .u32, acc := .rwe, dflt := 0, ranges := [], integrator := true },
  { addr := 0x2001FE, count := 1, ty := .u8, acc := .ro, dflt := 8, ranges := [(0, 8)] },
  { addr := 0x200201, count := 1, ty := .u16, acc := .wo, dflt := 0, ranges := [], reserved := 0xFC00, integrator := true },
  { addr := 0x200202, count := 1, ty := .u16, acc := .ro, dflt := 0, ranges := [] },
  { addr := 0x200203, count := 1, ty := .u16, acc := .rw, dflt := 0, ranges := [], reserved := 0xFC00, plate := true, integrator := true },
  { addr := 0x201001, count := 24, ty := .u8, acc := .rw, dflt := 255, ranges := [(0, 7), (255, 255)], integrator := true },
  { addr := 0x201101, count := 8, ty := .u8, acc := .rw, dflt := 255, ranges := [(0, 7), (255, 255)], integrator := true }]

def rows20_1 : List Row := [
  { addr := 0x201201, count := 1, ty := .u8, acc := .rw, dflt := 0, ranges := [], integrator := true },
  { addr := 0x201301, count := 1, ty := .u8, acc := .wo, dflt := 0, ranges := [(197, 197), (92, 92)], integrator := true },
  { addr := 0x201302, count := 1, ty := .u8, acc := .ro, dflt := 1, ranges := [(1, 1), (2, 2), (3, 3), (4, 4)] },
  { addr := 0x201303, count := 1, ty := .u8, acc := .ro, dflt := 0, ranges := [(0, 12)] },
  { addr := 0x201304, count := 1, ty := .u16, acc := .ro, dflt := 0, ranges := [] },
  { addr := 0x201305, count := 1, ty := .u16, acc := .ro, dflt := 0, ranges := [] },
  { addr := 0x201306, count := 1, ty := .u32, acc := .ro, dflt := 0, ranges := [(0, 4294967295)], plate := true },
  { addr := 0x201401, count := 24, ty := .u8, acc := .ro, dflt := 255, ranges := [(0, 7), (255, 255)], plate := true },
  { addr := 0x201501, count := 8, ty := .u8, acc := .ro, dflt := 255, ranges := [(0, 7), (255, 255)], plate := true },
  { addr := 0x201601, count := 8, ty := .u32, acc := .ro, dflt := 0, ranges := [(0, 0), (12500000, 12500000), (16666667, 16666667), (20000000, 20000000), (25000000, 25000000)] },
  { addr := 0x201701, count := 1, ty := .u8, acc := .ro, dflt := 0, ranges := [(0, 255)], plate := true },
  { addr := 0x201801, count := 1, ty := .u8, acc := .ro, dflt := 255, ranges := [] },
  { addr := 0x202001, count := 1, ty := .u8, acc := .ro, dflt := 0, ranges := [(0, 9)] },
  { addr := 0x202002, count := 1, ty := .u8, acc := .wo, dflt := 0, ranges := [(16, 23), (32, 39)] },
  { addr := 0x202003, count := 1, ty := .u16, acc := .rw, dflt := 50, ranges := [(1, 1000)], plate := true },
  { addr := 0x202101, count := 9, ty := .u32, acc := .ro, dflt := 0, ranges := [(0, 4294967295)] }]

def rows20 : List Row := rows20_0 ++ rows20_1

def rows21_0 : List Row := [
  { addr := 0x210001, count := 1, ty := .u8, acc := .ro, dflt := 0, ranges := [(0, 0), (1, 1), (2, 2), (3, 3)] },
  { addr := 0x210002, count := 1, ty := .u8, acc := .ro, dflt := 0, ranges := [] },
  { addr := 0x210003, count := 1, ty := .u16, acc := .ro, dflt := 4095, ranges := [] },
  { addr := 0x210004, count := 1, ty := .u8, acc := .ro, dflt := 0, ranges := [] },
  { addr := 0x210401, count := 1, ty := .bool, acc := .rw, dflt := 0, ranges := [(0, 1)], plate := true },
  { addr := 0x210501, count := 1, ty := .s16, acc := .ro, dflt := 0, ranges := [(-440, 1400)] },
  { addr := 0x210502, count := 1, ty := .u8, acc := .ro, dflt := 1, ranges := [(0, 4)] },
  { addr := 0x210503, count := 1, ty := .u8, acc := .ro, dflt := 0, ranges := [] },
  { addr := 0x210504, count := 1, ty := .s16, acc := .ro, dflt := 0, ranges := [(-1000, 1000)] }]

def rows21 : List Row := rows21_0

def rows22_0 : List Row := [
  { addr := 0x220101, count := 1, ty := .u16, acc := .rw, dflt := 5000, ranges := [(1000, 20000)], plate := true },
  { addr := 0x220102, count := 1, ty := .u8, acc := .rw, dflt := 60, ranges := [(30, 120)], plate := true },
  { addr := 0x220103, count := 1, ty := .s16, acc := .rw, dflt := -500, ranges := [(-800, -100)], plate := true },
  { addr := 0x220104, count := 1, ty := .s16, acc := .rw, dflt := 1500, ranges := [(200, 1800)], plate := true },
  { addr := 0x220201, count := 1, ty := .u16, acc := .ro, dflt := 0, ranges := [(0, 1800)] },
  { addr := 0x220202, count := 1, ty := .u8, acc := .ro, dflt := 0, ranges := [] },
  { addr := 0x220301, count := 1, ty := .tab, acc := .rw, dflt := 0, ranges := [], plate := true, len := 64 },
  { addr := 0x220302, count := 1, ty := .u8, acc := .wo, dflt := 0, ranges := [(197, 197), (92, 92)] },
  { addr := 0x220303, count := 1, ty := .u8, acc := .ro, dflt := 0, ranges := [(0, 0), (1, 1), (2, 2)] },
  { addr := 0x220304, count := 1, ty := .u8, acc := .ro, dflt := 255, ranges := [(0, 31), (255, 255)] },
  { addr := 0x220401, count := 1, ty := .bool, acc := .rw, dflt := 0, ranges := [(0, 1)], plate := true },
  { addr := 0x220402, count := 1, ty := .bool, acc := .rw, dflt := 0, ranges := [(0, 1)], plate := true },
  { addr := 0x220501, count := 1, ty := .u8, acc := .rw, dflt := 0, ranges := [], reserved := 0xFE, w1c := true },
  { addr := 0x220502, count := 1, ty := .u8, acc := .ro, dflt := 0, ranges := [] },
  { addr := 0x220601, count := 1, ty := .s16, acc := .ro, dflt := 0, ranges := [(-600, 1200)] },
  { addr := 0x220602, count := 1, ty := .u16, acc := .ro, dflt := 0, ranges := [(0, 1800)] }]

def rows22_1 : List Row := [
  { addr := 0x220603, count := 1, ty := .u8, acc := .ro, dflt := 1, ranges := [(0, 4)] },
  { addr := 0x220604, count := 1, ty := .u8, acc := .ro, dflt := 0, ranges := [] },
  { addr := 0x220605, count := 1, ty := .s16, acc := .ro, dflt := 0, ranges := [(-1000, 1000)] }]

def rows22 : List Row := rows22_0 ++ rows22_1

def rows30_0 : List Row := [
  { addr := 0x300001, count := 1, ty := .u8, acc := .ro, dflt := 0, ranges := [(0, 6)] },
  { addr := 0x300002, count := 1, ty := .u8, acc := .wo, dflt := 0, ranges := [(1, 1), (2, 2), (3, 3)] },
  { addr := 0x300003, count := 1, ty := .bool, acc := .ro, dflt := 0, ranges := [(0, 1)] },
  { addr := 0x300004, count := 1, ty := .u8, acc := .rw, dflt := 2, ranges := [(0, 0), (1, 1), (2, 2)], plate := true },
  { addr := 0x300005, count := 1, ty := .u8, acc := .rw, dflt := 0, ranges := [(0, 0), (1, 1)], plate := true },
  { addr := 0x300006, count := 1, ty := .u16, acc := .rw, dflt := 0, ranges := [(0, 65535)], plate := true },
  { addr := 0x300007, count := 1, ty := .u16, acc := .rw, dflt := 10, ranges := [(1, 1000)], plate := true },
  { addr := 0x300008, count := 1, ty := .u16, acc := .rw, dflt := 10, ranges := [(1, 1000)], plate := true },
  { addr := 0x300009, count := 1, ty := .u16, acc := .rw, dflt := 0, ranges := [(0, 1000)], plate := true },
  { addr := 0x30000A, count := 1, ty := .bool, acc := .rw, dflt := 1, ranges := [(0, 1)], plate := true },
  { addr := 0x300101, count := 1, ty := .u8, acc := .rw, dflt := 0, ranges := [(0, 0), (1, 1), (2, 2)], plate := true },
  { addr := 0x300102, count := 1, ty := .u16, acc := .rw, dflt := 1000, ranges := [(1000, 14400)], plate := true },
  { addr := 0x300103, count := 1, ty := .u16, acc := .rw, dflt := 10, ranges := [(1, 1000)], plate := true },
  { addr := 0x300104, count := 1, ty := .u16, acc := .rw, dflt := 1000, ranges := [(1000, 14400)], plate := true },
  { addr := 0x300105, count := 1, ty := .u16, acc := .rw, dflt := 14400, ranges := [(1000, 14400)], plate := true },
  { addr := 0x300106, count := 1, ty := .u16, acc := .rw, dflt := 1000, ranges := [(1000, 14400)], plate := true }]

def rows30_1 : List Row := [
  { addr := 0x300107, count := 1, ty := .u16, acc := .rw, dflt := 1000, ranges := [(10, 60000)], plate := true },
  { addr := 0x300108, count := 1, ty := .u8, acc := .rw, dflt := 1, ranges := [(0, 0), (1, 1)], plate := true },
  { addr := 0x300109, count := 1, ty := .u16, acc := .ro, dflt := 0, ranges := [(0, 14400)] },
  { addr := 0x30010A, count := 1, ty := .u16, acc := .ro, dflt := 0, ranges := [(0, 14400)] },
  { addr := 0x30010B, count := 1, ty := .u8, acc := .ro, dflt := 0, ranges := [] },
  { addr := 0x300201, count := 1, ty := .q428, acc := .rw, dflt := 268435456, ranges := [(67108864, 1073741824)], plate := true },
  { addr := 0x300202, count := 1, ty := .s16, acc := .rw, dflt := 0, ranges := [(-4000, 4000)], plate := true },
  { addr := 0x300203, count := 1, ty := .u8, acc := .rw, dflt := 4, ranges := [(0, 10)], plate := true },
  { addr := 0x300204, count := 1, ty := .u8, acc := .rw, dflt := 2, ranges := [(0, 40)], plate := true },
  { addr := 0x300205, count := 1, ty := .u8, acc := .rw, dflt := 0, ranges := [(0, 0), (1, 1)], plate := true },
  { addr := 0x300206, count := 1, ty := .u16, acc := .rw, dflt := 1000, ranges := [(0, 14400)], plate := true },
  { addr := 0x300207, count := 1, ty := .u16, acc := .rw, dflt := 14400, ranges := [(0, 14400)], plate := true },
  { addr := 0x300208, count := 1, ty := .u16, acc := .rw, dflt := 16, ranges := [(1, 256)], plate := true },
  { addr := 0x300209, count := 1, ty := .u8, acc := .rw, dflt := 25, ranges := [(1, 25)], plate := true },
  { addr := 0x30020A, count := 1, ty := .u16, acc := .ro, dflt := 0, ranges := [(0, 14400)] },
  { addr := 0x300301, count := 1, ty := .u16, acc := .rw, dflt := 200, ranges := [(4, 2000)], plate := true }]

def rows30_2 : List Row := [
  { addr := 0x300302, count := 1, ty := .u16, acc := .rw, dflt := 200, ranges := [(4, 2000)], plate := true },
  { addr := 0x300303, count := 1, ty := .u16, acc := .rw, dflt := 100, ranges := [(0, 65535)], plate := true },
  { addr := 0x300304, count := 1, ty := .bool, acc := .ro, dflt := 0, ranges := [(0, 1)] },
  { addr := 0x300401, count := 1, ty := .bool, acc := .rw, dflt := 0, ranges := [(0, 1)], plate := true },
  { addr := 0x300402, count := 1, ty := .u8, acc := .rw, dflt := 1, ranges := [(1, 96)], plate := true },
  { addr := 0x300403, count := 1, ty := .u8, acc := .rwe, dflt := 96, ranges := [(1, 96)], integrator := true },
  { addr := 0x3004FE, count := 1, ty := .u8, acc := .ro, dflt := 8, ranges := [(0, 8)] },
  { addr := 0x300801, count := 1, ty := .u8, acc := .rw, dflt := 1, ranges := [(1, 2), (4, 4)], plate := true },
  { addr := 0x300802, count := 1, ty := .u8, acc := .rw, dflt := 0, ranges := [(0, 0), (1, 1)] },
  { addr := 0x300803, count := 1, ty := .bool, acc := .rw, dflt := 1, ranges := [(0, 1)], plate := true },
  { addr := 0x300804, count := 1, ty := .u16, acc := .rw, dflt := 0, ranges := [(0, 200)], plate := true },
  { addr := 0x300805, count := 1, ty := .u8, acc := .rw, dflt := 100, ranges := [(50, 150)], plate := true },
  { addr := 0x300806, count := 1, ty := .u8, acc := .rw, dflt := 20, ranges := [(5, 100)], plate := true },
  { addr := 0x300807, count := 1, ty := .u8, acc := .rw, dflt := 5, ranges := [(1, 50)], plate := true },
  { addr := 0x300808, count := 1, ty := .u16, acc := .rw, dflt := 80, ranges := [(4, 400)], plate := true },
  { addr := 0x300809, count := 1, ty := .u8, acc := .rw, dflt := 25, ranges := [(0, 0), (5, 50)], plate := true }]

def rows30_3 : List Row := [
  { addr := 0x30080A, count := 1, ty := .u8, acc := .rw, dflt := 20, ranges := [(2, 20)], plate := true },
  { addr := 0x30080B, count := 1, ty := .u16, acc := .rw, dflt := 256, ranges := [(64, 4096)], plate := true },
  { addr := 0x30080C, count := 1, ty := .u8, acc := .rw, dflt := 0, ranges := [(0, 0), (1, 80)], plate := true },
  { addr := 0x300901, count := 1, ty := .u8, acc := .ro, dflt := 0, ranges := [(0, 0), (1, 1), (2, 2), (3, 3)] },
  { addr := 0x300902, count := 1, ty := .u8, acc := .ro, dflt := 0, ranges := [] },
  { addr := 0x300903, count := 1, ty := .s32, acc := .ro, dflt := 0, ranges := [(-256000, 256000)] },
  { addr := 0x300904, count := 1, ty := .u16, acc := .ro, dflt := 0, ranges := [(0, 31200)] },
  { addr := 0x300905, count := 1, ty := .s32, acc := .ro, dflt := 0, ranges := [(-8388608, 8388607)] },
  { addr := 0x300906, count := 1, ty := .u16, acc := .ro, dflt := 0, ranges := [(0, 0), (1000, 14400)] },
  { addr := 0x300907, count := 1, ty := .u32, acc := .ro, dflt := 0, ranges := [(0, 4294967295)], plate := true }]

def rows30 : List Row := rows30_0 ++ rows30_1 ++ rows30_2 ++ rows30_3

def rows301_0 : List Row := [
  { addr := 0x301001, count := 4, ty := .dom, acc := .rw, dflt := 0, ranges := [], plate := true, len := 1280 },
  { addr := 0x301101, count := 1, ty := .u8, acc := .wo, dflt := 0, ranges := [(16, 19), (32, 35), (48, 51)] },
  { addr := 0x301102, count := 1, ty := .u16, acc := .ro, dflt := 0, ranges := [] },
  { addr := 0x301103, count := 1, ty := .u8, acc := .ro, dflt := 255, ranges := [(0, 3), (255, 255)] },
  { addr := 0x301104, count := 1, ty := .u8, acc := .rw, dflt := 255, ranges := [(0, 3), (255, 255)], plate := true },
  { addr := 0x301105, count := 1, ty := .u8, acc := .ro, dflt := 0, ranges := [(0, 9)] },
  { addr := 0x301106, count := 1, ty := .u32, acc := .ro, dflt := 0, ranges := [(0, 4294967295)] },
  { addr := 0x301201, count := 4, ty := .u32, acc := .ro, dflt := 0, ranges := [] },
  { addr := 0x301301, count := 4, ty := .u32, acc := .ro, dflt := 0, ranges := [] },
  { addr := 0x301401, count := 4, ty := .u32, acc := .rw, dflt := 0, ranges := [], plate := true },
  { addr := 0x301501, count := 1, ty := .u8, acc := .rw, dflt := 0, ranges := [(0, 0), (1, 1)], plate := true },
  { addr := 0x301502, count := 1, ty := .u16, acc := .rw, dflt := 0, ranges := [], reserved := 0xFF80, w1c := true },
  { addr := 0x301503, count := 1, ty := .u32, acc := .ro, dflt := 0, ranges := [(0, 4294967295)] },
  { addr := 0x301504, count := 1, ty := .u64, acc := .ro, dflt := 0, ranges := [(0, 18446744073709551615)], plate := true },
  { addr := 0x301505, count := 1, ty := .u8, acc := .ro, dflt := 0, ranges := [(0, 64)] },
  { addr := 0x301506, count := 1, ty := .u16, acc := .ro, dflt := 0, ranges := [(0, 1000)] }]

def rows301_1 : List Row := [
  { addr := 0x301507, count := 1, ty := .u32, acc := .ro, dflt := 0, ranges := [(0, 4294967295)], plate := true },
  { addr := 0x301508, count := 1, ty := .u32, acc := .ro, dflt := 0, ranges := [(0, 4294967295)] },
  { addr := 0x301601, count := 1, ty := .q824, acc := .rw, dflt := 0, ranges := [(0, 234881024)], plate := true },
  { addr := 0x301602, count := 1, ty := .q824, acc := .rw, dflt := 67108864, ranges := [(0, 234881024)], plate := true },
  { addr := 0x301603, count := 1, ty := .q15, acc := .rw, dflt := 0, ranges := [(0, 8192)], plate := true },
  { addr := 0x301604, count := 1, ty := .q15, acc := .rw, dflt := 29491, ranges := [(3277, 31130)], plate := true },
  { addr := 0x301801, count := 1, ty := .q824, acc := .rw, dflt := 8388608, ranges := [(0, 2130706432)], plate := true },
  { addr := 0x301802, count := 1, ty := .q824, acc := .rw, dflt := 33554, ranges := [(0, 16777216)], plate := true },
  { addr := 0x301803, count := 1, ty := .q824, acc := .rw, dflt := 0, ranges := [(0, 2130706432)], plate := true },
  { addr := 0x301804, count := 1, ty := .q824, acc := .rw, dflt := 16777216, ranges := [(0, 234881024)], plate := true },
  { addr := 0x301805, count := 1, ty := .u16, acc := .rw, dflt := 256, ranges := [(16, 4096)], plate := true }]

def rows301 : List Row := rows301_0 ++ rows301_1

def rows302_0 : List Row := [
  { addr := 0x302001, count := 1, ty := .u8, acc := .rw, dflt := 8, ranges := [(2, 32)], plate := true },
  { addr := 0x302002, count := 1, ty := .u8, acc := .rw, dflt := 255, ranges := [(0, 11), (255, 255)], plate := true },
  { addr := 0x302003, count := 1, ty := .u16, acc := .ro, dflt := 4096, ranges := [(2048, 32768)] },
  { addr := 0x302101, count := 1, ty := .tab, acc := .rw, dflt := 0, ranges := [], plate := true, len := 128 },
  { addr := 0x302102, count := 1, ty := .u8, acc := .wo, dflt := 0, ranges := [(197, 197), (92, 92)] },
  { addr := 0x302103, count := 1, ty := .u8, acc := .ro, dflt := 0, ranges := [(0, 0), (1, 1), (2, 2)] },
  { addr := 0x302104, count := 1, ty := .u8, acc := .ro, dflt := 255, ranges := [(0, 63), (255, 255)] },
  { addr := 0x302201, count := 1, ty := .bool, acc := .rw, dflt := 0, ranges := [(0, 1)], plate := true },
  { addr := 0x302202, count := 1, ty := .u8, acc := .rw, dflt := 0, ranges := [(0, 0), (1, 96)], plate := true },
  { addr := 0x302301, count := 1, ty := .u8, acc := .rw, dflt := 0, ranges := [(0, 0), (1, 1)], plate := true },
  { addr := 0x302302, count := 1, ty := .u16, acc := .rw, dflt := 10000, ranges := [(4500, 14000)], plate := true },
  { addr := 0x302303, count := 1, ty := .u16, acc := .rw, dflt := 4500, ranges := [(3000, 14000)], plate := true },
  { addr := 0x302304, count := 1, ty := .u8, acc := .ro, dflt := 0, ranges := [] },
  { addr := 0x302401, count := 1, ty := .u16, acc := .rw, dflt := 0, ranges := [(0, 1000)], plate := true },
  { addr := 0x302402, count := 1, ty := .u16, acc := .ro, dflt := 0, ranges := [(0, 1000)] },
  { addr := 0x302403, count := 1, ty := .u16, acc := .rw, dflt := 0, ranges := [(0, 65535)], plate := true }]

def rows302_1 : List Row := [
  { addr := 0x302404, count := 1, ty := .u16, acc := .rw, dflt := 800, ranges := [(0, 2000)], plate := true },
  { addr := 0x302405, count := 1, ty := .s16, acc := .ro, dflt := 0, ranges := [(-2000, 2000)] },
  { addr := 0x302501, count := 1, ty := .tab, acc := .rw, dflt := 0, ranges := [], plate := true, len := 20 },
  { addr := 0x302502, count := 1, ty := .u8, acc := .wo, dflt := 0, ranges := [(197, 197), (92, 92)] },
  { addr := 0x302503, count := 1, ty := .u8, acc := .ro, dflt := 0, ranges := [(0, 0), (1, 1), (2, 2)] },
  { addr := 0x302504, count := 1, ty := .u8, acc := .ro, dflt := 255, ranges := [(0, 4), (255, 255)] }]

def rows302 : List Row := rows302_0 ++ rows302_1

def rows303_0 : List Row := [
  { addr := 0x303001, count := 1, ty := .bool, acc := .rw, dflt := 0, ranges := [(0, 1)], plate := true },
  { addr := 0x303002, count := 1, ty := .u8, acc := .rw, dflt := 1, ranges := [(0, 3)], plate := true },
  { addr := 0x303003, count := 1, ty := .u8, acc := .rw, dflt := 5, ranges := [(0, 50)], plate := true },
  { addr := 0x303004, count := 1, ty := .u8, acc := .rw, dflt := 40, ranges := [(10, 120)], plate := true },
  { addr := 0x303005, count := 1, ty := .u16, acc := .rw, dflt := 40, ranges := [(0, 400)], plate := true },
  { addr := 0x303006, count := 1, ty := .u16, acc := .rw, dflt := 120, ranges := [(4, 800)], plate := true },
  { addr := 0x303007, count := 1, ty := .u16, acc := .rw, dflt := 120, ranges := [(4, 800)], plate := true },
  { addr := 0x303008, count := 1, ty := .u16, acc := .rw, dflt := 8, ranges := [(0, 200)], plate := true },
  { addr := 0x303009, count := 1, ty := .u16, acc := .rw, dflt := 100, ranges := [(1, 1000)], plate := true },
  { addr := 0x30300A, count := 1, ty := .u16, acc := .rw, dflt := 1000, ranges := [(0, 3000)], plate := true },
  { addr := 0x30300B, count := 1, ty := .u8, acc := .rw, dflt := 20, ranges := [(0, 100)], plate := true },
  { addr := 0x30300C, count := 1, ty := .bool, acc := .rw, dflt := 1, ranges := [(0, 1)], plate := true },
  { addr := 0x30300D, count := 1, ty := .u16, acc := .rw, dflt := 8, ranges := [(1, 400)], plate := true },
  { addr := 0x30300E, count := 1, ty := .u16, acc := .rw, dflt := 50, ranges := [(1, 2000)], plate := true },
  { addr := 0x30300F, count := 1, ty := .u16, acc := .rw, dflt := 500, ranges := [(0, 2000)], plate := true },
  { addr := 0x303010, count := 1, ty := .q824, acc := .rw, dflt := 0, ranges := [(-2130706432, 2130706432)], plate := true }]

def rows303_1 : List Row := [
  { addr := 0x303011, count := 1, ty := .q824, acc := .rw, dflt := 0, ranges := [(0, 134217728)], plate := true },
  { addr := 0x303012, count := 1, ty := .u16, acc := .rw, dflt := 256, ranges := [(16, 4096)], plate := true },
  { addr := 0x303101, count := 1, ty := .u8, acc := .ro, dflt := 0, ranges := [(0, 0), (1, 1), (2, 2), (3, 3)] },
  { addr := 0x303102, count := 1, ty := .s16, acc := .ro, dflt := 0, ranges := [(-4000, 4000)] },
  { addr := 0x303103, count := 1, ty := .u8, acc := .ro, dflt := 0, ranges := [(0, 0), (5, 200)] },
  { addr := 0x303104, count := 1, ty := .u8, acc := .ro, dflt := 0, ranges := [(0, 3)] },
  { addr := 0x303105, count := 1, ty := .u8, acc := .ro, dflt := 0, ranges := [(0, 96)] },
  { addr := 0x303106, count := 1, ty := .u8, acc := .ro, dflt := 0, ranges := [(0, 96)] },
  { addr := 0x303107, count := 1, ty := .s16, acc := .ro, dflt := 0, ranges := [(-800, 800)] },
  { addr := 0x303108, count := 1, ty := .u8, acc := .ro, dflt := 0, ranges := [] },
  { addr := 0x303109, count := 1, ty := .u8, acc := .ro, dflt := 0, ranges := [] },
  { addr := 0x30310A, count := 1, ty := .s32, acc := .ro, dflt := 0, ranges := [(-1048576, 1048576)] },
  { addr := 0x303201, count := 1, ty := .u32, acc := .ro, dflt := 0, ranges := [(0, 4294967295)], plate := true },
  { addr := 0x303202, count := 1, ty := .u32, acc := .ro, dflt := 0, ranges := [(0, 4294967295)], plate := true },
  { addr := 0x303203, count := 1, ty := .u32, acc := .ro, dflt := 0, ranges := [(0, 4294967295)], plate := true },
  { addr := 0x303204, count := 1, ty := .u32, acc := .ro, dflt := 0, ranges := [(0, 4294967295)], plate := true }]

def rows303_2 : List Row := [
  { addr := 0x303205, count := 1, ty := .u32, acc := .ro, dflt := 0, ranges := [(0, 4294967295)], plate := true },
  { addr := 0x303206, count := 1, ty := .u32, acc := .ro, dflt := 0, ranges := [(0, 4294967295)], plate := true },
  { addr := 0x303207, count := 1, ty := .u32, acc := .ro, dflt := 0, ranges := [(0, 4294967295)], plate := true },
  { addr := 0x303208, count := 1, ty := .u32, acc := .ro, dflt := 0, ranges := [(0, 4294967295)], plate := true },
  { addr := 0x303209, count := 1, ty := .u64, acc := .ro, dflt := 0, ranges := [(0, 18446744073709551615)], plate := true },
  { addr := 0x30320A, count := 1, ty := .u64, acc := .ro, dflt := 0, ranges := [(0, 18446744073709551615)], plate := true },
  { addr := 0x30320B, count := 1, ty := .u32, acc := .ro, dflt := 0, ranges := [] }]

def rows303 : List Row := rows303_0 ++ rows303_1 ++ rows303_2

def rows304_0 : List Row := [
  { addr := 0x304001, count := 1, ty := .u16, acc := .rw, dflt := 1000, ranges := [(300, 4000)], plate := true },
  { addr := 0x304002, count := 1, ty := .u16, acc := .ro, dflt := 2000, ranges := [(500, 6667)] },
  { addr := 0x304003, count := 1, ty := .u8, acc := .rw, dflt := 0, ranges := [(0, 0), (1, 1)], plate := true },
  { addr := 0x304004, count := 1, ty := .u8, acc := .rw, dflt := 0, ranges := [(0, 0), (1, 96)], plate := true },
  { addr := 0x304101, count := 1, ty := .bool, acc := .rw, dflt := 1, ranges := [(0, 1)], plate := true },
  { addr := 0x304102, count := 1, ty := .u8, acc := .rw, dflt := 45, ranges := [(5, 120)], plate := true },
  { addr := 0x304103, count := 1, ty := .u8, acc := .rw, dflt := 30, ranges := [(2, 118)], plate := true },
  { addr := 0x304104, count := 1, ty := .u16, acc := .rw, dflt := 10, ranges := [(0, 10000)], plate := true },
  { addr := 0x304105, count := 1, ty := .u16, acc := .rw, dflt := 100, ranges := [(1, 10000)], plate := true },
  { addr := 0x304106, count := 1, ty := .s16, acc := .rw, dflt := 128, ranges := [(-1280, 1280)], plate := true },
  { addr := 0x304201, count := 1, ty := .u8, acc := .ro, dflt := 0, ranges := [(0, 96)] },
  { addr := 0x304202, count := 1, ty := .u32, acc := .ro, dflt := 0, ranges := [] },
  { addr := 0x304203, count := 1, ty := .u32, acc := .ro, dflt := 0, ranges := [] },
  { addr := 0x304204, count := 1, ty := .u32, acc := .ro, dflt := 0, ranges := [] },
  { addr := 0x304205, count := 1, ty := .u8, acc := .ro, dflt := 0, ranges := [(0, 8)] },
  { addr := 0x304206, count := 1, ty := .u32, acc := .ro, dflt := 0, ranges := [(0, 4294967295)], plate := true }]

def rows304_1 : List Row := [
  { addr := 0x304207, count := 1, ty := .u32, acc := .ro, dflt := 0, ranges := [(0, 4294967295)], plate := true },
  { addr := 0x304208, count := 1, ty := .u32, acc := .ro, dflt := 0, ranges := [(0, 4294967295)], plate := true }]

def rows304 : List Row := rows304_0 ++ rows304_1

def rows305_0 : List Row := [
  { addr := 0x305001, count := 1, ty := .u8, acc := .rw, dflt := 70, ranges := [(10, 150)], plate := true },
  { addr := 0x305002, count := 1, ty := .u8, acc := .rw, dflt := 60, ranges := [(10, 150)], plate := true },
  { addr := 0x305003, count := 1, ty := .u8, acc := .rw, dflt := 30, ranges := [(5, 60)], plate := true },
  { addr := 0x305004, count := 1, ty := .u16, acc := .rwe, dflt := 4000, ranges := [(300, 4000)], integrator := true },
  { addr := 0x305005, count := 1, ty := .u16, acc := .rw, dflt := 3800, ranges := [(300, 4000)], plate := true },
  { addr := 0x305006, count := 1, ty := .u8, acc := .rw, dflt := 4, ranges := [(1, 64)], plate := true },
  { addr := 0x305007, count := 1, ty := .u16, acc := .rw, dflt := 400, ranges := [(40, 2000)], plate := true },
  { addr := 0x305008, count := 1, ty := .u16, acc := .rw, dflt := 10, ranges := [(1, 1000)], plate := true },
  { addr := 0x305009, count := 1, ty := .u8, acc := .rw, dflt := 0, ranges := [(0, 0), (1, 1)], plate := true },
  { addr := 0x3050FE, count := 1, ty := .u8, acc := .ro, dflt := 8, ranges := [(0, 8)] },
  { addr := 0x305101, count := 1, ty := .u16, acc := .rw, dflt := 1000, ranges := [(10, 6000)], plate := true },
  { addr := 0x305102, count := 1, ty := .u16, acc := .rw, dflt := 200, ranges := [(0, 3000)], plate := true },
  { addr := 0x305103, count := 1, ty := .u16, acc := .rw, dflt := 100, ranges := [(10, 2000)], plate := true },
  { addr := 0x305104, count := 1, ty := .u8, acc := .rw, dflt := 120, ranges := [(105, 150)], plate := true },
  { addr := 0x305105, count := 1, ty := .u16, acc := .rw, dflt := 20, ranges := [(1, 1000)], plate := true },
  { addr := 0x305106, count := 1, ty := .u16, acc := .rw, dflt := 4500, ranges := [(4500, 14000)], plate := true }]

def rows305_1 : List Row := [
  { addr := 0x305107, count := 1, ty := .u16, acc := .rw, dflt := 14000, ranges := [(4500, 14000)], plate := true },
  { addr := 0x305108, count := 1, ty := .u16, acc := .ro, dflt := 4096, ranges := [(0, 4096)] },
  { addr := 0x305201, count := 1, ty := .u32, acc := .rw, dflt := 6826, ranges := [], reserved := 0xFF000000, plate := true },
  { addr := 0x305202, count := 1, ty := .u8, acc := .rw, dflt := 3, ranges := [(0, 254), (255, 255)], plate := true },
  { addr := 0x305203, count := 1, ty := .u16, acc := .rw, dflt := 100, ranges := [(1, 10000)], plate := true },
  { addr := 0x305204, count := 1, ty := .u16, acc := .rw, dflt := 1000, ranges := [(1, 60000)], plate := true },
  { addr := 0x305205, count := 1, ty := .u8, acc := .rw, dflt := 1, ranges := [(1, 8)], plate := true },
  { addr := 0x305206, count := 1, ty := .u8, acc := .ro, dflt := 3, ranges := [(0, 255)] },
  { addr := 0x305301, count := 1, ty := .u16, acc := .rw, dflt := 0, ranges := [], w1c := true },
  { addr := 0x305302, count := 1, ty := .u16, acc := .ro, dflt := 0, ranges := [] },
  { addr := 0x305303, count := 1, ty := .u32, acc := .ro, dflt := 0, ranges := [(0, 4294967295)], plate := true }]

def rows305 : List Row := rows305_0 ++ rows305_1

def rows306_0 : List Row := [
  { addr := 0x306001, count := 1, ty := .u8, acc := .rw, dflt := 4, ranges := [(1, 50)], plate := true },
  { addr := 0x306002, count := 1, ty := .s16, acc := .ro, dflt := 0, ranges := [(-24000, 24000)] },
  { addr := 0x306003, count := 1, ty := .bool, acc := .ro, dflt := 0, ranges := [(0, 1)] },
  { addr := 0x306004, count := 1, ty := .u8, acc := .rw, dflt := 3, ranges := [], plate := true },
  { addr := 0x306005, count := 1, ty := .u8, acc := .ro, dflt := 96, ranges := [(1, 96)] },
  { addr := 0x306006, count := 1, ty := .u8, acc := .ro, dflt := 0, ranges := [(0, 0), (1, 1)] },
  { addr := 0x306007, count := 1, ty := .u16, acc := .ro, dflt := 0, ranges := [(0, 6000)] },
  { addr := 0x307001, count := 1, ty := .u8, acc := .rw, dflt := 110, ranges := [(40, 145)], plate := true },
  { addr := 0x307002, count := 1, ty := .u8, acc := .rw, dflt := 115, ranges := [(40, 145)], plate := true },
  { addr := 0x307003, count := 1, ty := .u8, acc := .rw, dflt := 5, ranges := [(1, 20)], plate := true },
  { addr := 0x307004, count := 1, ty := .u16, acc := .rw, dflt := 1000, ranges := [(100, 60000)], plate := true },
  { addr := 0x307005, count := 1, ty := .u16, acc := .rw, dflt := 10000, ranges := [(100, 60000)], plate := true },
  { addr := 0x307006, count := 1, ty := .u8, acc := .rw, dflt := 2, ranges := [(0, 4)], plate := true },
  { addr := 0x307007, count := 1, ty := .u8, acc := .rw, dflt := 4, ranges := [(1, 14), (255, 255)], plate := true },
  { addr := 0x307008, count := 1, ty := .u8, acc := .rw, dflt := 10, ranges := [(2, 50)], plate := true },
  { addr := 0x307009, count := 1, ty := .u16, acc := .rw, dflt := 1000, ranges := [(100, 60000)], plate := true }]

def rows306_1 : List Row := [
  { addr := 0x307101, count := 1, ty := .u8, acc := .ro, dflt := 0, ranges := [(0, 14)] },
  { addr := 0x307102, count := 1, ty := .u16, acc := .ro, dflt := 4096, ranges := [(2048, 4096)] },
  { addr := 0x307103, count := 1, ty := .u16, acc := .ro, dflt := 0, ranges := [(0, 6000), (0, 0)] },
  { addr := 0x307104, count := 1, ty := .bool, acc := .ro, dflt := 0, ranges := [(0, 1)] },
  { addr := 0x307105, count := 1, ty := .bool, acc := .ro, dflt := 0, ranges := [(0, 1)] },
  { addr := 0x307106, count := 1, ty := .u32, acc := .ro, dflt := 0, ranges := [(0, 4294967295)], plate := true },
  { addr := 0x307107, count := 1, ty := .u32, acc := .ro, dflt := 0, ranges := [(0, 4294967295)], plate := true },
  { addr := 0x308001, count := 1, ty := .u8, acc := .rw, dflt := 0, ranges := [(0, 0), (1, 1), (2, 2)], plate := true },
  { addr := 0x308002, count := 1, ty := .u8, acc := .rw, dflt := 0, ranges := [(0, 0), (1, 1), (2, 2)], plate := true },
  { addr := 0x308003, count := 1, ty := .u8, acc := .rw, dflt := 8, ranges := [(2, 60)], plate := true },
  { addr := 0x308004, count := 1, ty := .u8, acc := .rw, dflt := 70, ranges := [(10, 100)], plate := true },
  { addr := 0x308005, count := 1, ty := .u8, acc := .rw, dflt := 130, ranges := [(100, 250)], plate := true },
  { addr := 0x308006, count := 1, ty := .u16, acc := .rw, dflt := 50, ranges := [(0, 10000)], plate := true },
  { addr := 0x308007, count := 1, ty := .u16, acc := .rw, dflt := 2000, ranges := [(0, 10000)], plate := true },
  { addr := 0x308008, count := 1, ty := .u8, acc := .rw, dflt := 15, ranges := [(1, 50)], plate := true },
  { addr := 0x308009, count := 1, ty := .u16, acc := .rw, dflt := 512, ranges := [(0, 1280)], plate := true }]

def rows306_2 : List Row := [
  { addr := 0x30800A, count := 1, ty := .u8, acc := .rw, dflt := 40, ranges := [(1, 80)], plate := true },
  { addr := 0x30800B, count := 1, ty := .u8, acc := .ro, dflt := 0, ranges := [(0, 0), (1, 1), (2, 2), (3, 3), (4, 4), (5, 5), (6, 6)] },
  { addr := 0x30800C, count := 1, ty := .bool, acc := .ro, dflt := 0, ranges := [(0, 1)], plate := true },
  { addr := 0x30800D, count := 1, ty := .u8, acc := .ro, dflt := 0, ranges := [(0, 96)], plate := true }]

def rows306 : List Row := rows306_0 ++ rows306_1 ++ rows306_2

def rows40_0 : List Row := [
  { addr := 0x400101, count := 1, ty := .bool, acc := .rw, dflt := 0, ranges := [(0, 1)], plate := true },
  { addr := 0x400102, count := 1, ty := .u8, acc := .ro, dflt := 0, ranges := [] },
  { addr := 0x400103, count := 1, ty := .s16, acc := .ro, dflt := 0, ranges := [(-6667, 6667)] },
  { addr := 0x400104, count := 1, ty := .u32, acc := .ro, dflt := 0, ranges := [(0, 4294967295)] },
  { addr := 0x400105, count := 1, ty := .u32, acc := .ro, dflt := 0, ranges := [(0, 4294967295)] },
  { addr := 0x400106, count := 1, ty := .u16, acc := .ro, dflt := 0, ranges := [(0, 6666)] },
  { addr := 0x400107, count := 1, ty := .u16, acc := .ro, dflt := 0, ranges := [(0, 6667)] },
  { addr := 0x400401, count := 5, ty := .q428, acc := .rw, dflt := 268435456, ranges := [(134217728, 536870912)], plate := true },
  { addr := 0x400501, count := 5, ty := .s16, acc := .rw, dflt := 0, ranges := [(-1280, 1280)], plate := true },
  { addr := 0x400601, count := 5, ty := .u8, acc := .rw, dflt := 0, ranges := [(0, 80)], plate := true },
  { addr := 0x400701, count := 1, ty := .u8, acc := .rw, dflt := 0, ranges := [], reserved := 0xE0, plate := true },
  { addr := 0x400702, count := 1, ty := .u16, acc := .ro, dflt := 0, ranges := [(0, 1023)] },
  { addr := 0x400703, count := 1, ty := .s32, acc := .ro, dflt := 0, ranges := [(-30720, 30720)] },
  { addr := 0x400704, count := 1, ty := .u8, acc := .ro, dflt := 1, ranges := [(0, 4)] },
  { addr := 0x400801, count := 1, ty := .q428, acc := .rw, dflt := 268435456, ranges := [(134217728, 536870912)], plate := true },
  { addr := 0x400802, count := 1, ty := .s16, acc := .rw, dflt := 0, ranges := [(-1280, 1280)], plate := true }]

def rows40_1 : List Row := [
  { addr := 0x400803, count := 1, ty := .u16, acc := .rw, dflt := 0, ranges := [(0, 10000)], plate := true },
  { addr := 0x400804, count := 1, ty := .s16, acc := .rw, dflt := 25, ranges := [(-40, 125)], plate := true },
  { addr := 0x400805, count := 1, ty := .u16, acc := .ro, dflt := 4096, ranges := [(2048, 6144)] },
  { addr := 0x400901, count := 1, ty := .u8, acc := .rw, dflt := 0, ranges := [], reserved := 0xE0, w1c := true },
  { addr := 0x400902, count := 1, ty := .u8, acc := .ro, dflt := 0, ranges := [] },
  { addr := 0x400903, count := 1, ty := .u8, acc := .rwe, dflt := 150, ranges := [(10, 150)], integrator := true },
  { addr := 0x400904, count := 1, ty := .u32, acc := .ro, dflt := 0, ranges := [(0, 4294967295)], plate := true },
  { addr := 0x4009FE, count := 1, ty := .u8, acc := .ro, dflt := 8, ranges := [(0, 8)] },
  { addr := 0x400A01, count := 1, ty := .u8, acc := .ro, dflt := 0, ranges := [(0, 0), (1, 1), (16, 22), (32, 32)], plate := true },
  { addr := 0x400A02, count := 1, ty := .u16, acc := .ro, dflt := 0, ranges := [(0, 65535)], plate := true },
  { addr := 0x400A03, count := 1, ty := .u16, acc := .ro, dflt := 0, ranges := [(0, 65535)], plate := true },
  { addr := 0x400A04, count := 1, ty := .q428, acc := .ro, dflt := 268435456, ranges := [(0, 2147483647)], plate := true },
  { addr := 0x400A05, count := 1, ty := .u8, acc := .ro, dflt := 0, ranges := [(0, 255)], plate := true }]

def rows40 : List Row := rows40_0 ++ rows40_1

def rows500_0 : List Row := [
  { addr := 0x500001, count := 1, ty := .u8, acc := .wo, dflt := 0, ranges := [(1, 1), (2, 2)] },
  { addr := 0x500002, count := 1, ty := .bool, acc := .rw, dflt := 1, ranges := [(0, 1)], plate := true },
  { addr := 0x500003, count := 1, ty := .u8, acc := .ro, dflt := 0, ranges := [(0, 6)] },
  { addr := 0x500004, count := 1, ty := .u16, acc := .rw, dflt := 400, ranges := [(100, 1500)], plate := true },
  { addr := 0x500005, count := 1, ty := .u16, acc := .rw, dflt := 10000, ranges := [(5000, 13500)], plate := true },
  { addr := 0x500006, count := 1, ty := .u16, acc := .rw, dflt := 50, ranges := [(1, 1000)], plate := true },
  { addr := 0x500007, count := 1, ty := .u16, acc := .rw, dflt := 20, ranges := [(1, 1000)], plate := true },
  { addr := 0x500008, count := 1, ty := .q824, acc := .rw, dflt := 8388608, ranges := [(0, 2130706432)], plate := true },
  { addr := 0x500009, count := 1, ty := .q824, acc := .rw, dflt := 167772, ranges := [(0, 16777216)], plate := true },
  { addr := 0x50000A, count := 1, ty := .q824, acc := .rw, dflt := 0, ranges := [(0, 2130706432)], plate := true },
  { addr := 0x50000B, count := 1, ty := .q824, acc := .rw, dflt := 33554432, ranges := [(0, 234881024)], plate := true },
  { addr := 0x50000C, count := 1, ty := .q15, acc := .rw, dflt := 13107, ranges := [(1638, 29491)], plate := true },
  { addr := 0x50000D, count := 1, ty := .u8, acc := .rw, dflt := 40, ranges := [(5, 120)], plate := true },
  { addr := 0x50000E, count := 1, ty := .u16, acc := .rw, dflt := 50, ranges := [(1, 1000)], plate := true },
  { addr := 0x50000F, count := 1, ty := .u16, acc := .rw, dflt := 1000, ranges := [(100, 10000)], plate := true },
  { addr := 0x500010, count := 1, ty := .q15, acc := .rw, dflt := 4096, ranges := [(0, 16384)], plate := true }]

def rows500_1 : List Row := [
  { addr := 0x500011, count := 1, ty := .u16, acc := .rw, dflt := 50, ranges := [(0, 500)], plate := true },
  { addr := 0x500012, count := 1, ty := .u16, acc := .ro, dflt := 5000, ranges := [(1333, 20000)] }]

def rows500 : List Row := rows500_0 ++ rows500_1

def rows501_0 : List Row := [
  { addr := 0x500101, count := 1, ty := .u8, acc := .rw, dflt := 0, ranges := [(0, 0), (1, 1)], plate := true, integrator := true },
  { addr := 0x500102, count := 1, ty := .u16, acc := .rw, dflt := 10000, ranges := [(5000, 13500)], plate := true },
  { addr := 0x500103, count := 1, ty := .u16, acc := .rw, dflt := 13500, ranges := [(5000, 13500)], plate := true },
  { addr := 0x500104, count := 1, ty := .u16, acc := .rw, dflt := 500, ranges := [(200, 2000)], plate := true },
  { addr := 0x500105, count := 1, ty := .q15, acc := .rw, dflt := 8192, ranges := [(1638, 29491)], plate := true },
  { addr := 0x500106, count := 1, ty := .u8, acc := .rw, dflt := 10, ranges := [(1, 100)], plate := true },
  { addr := 0x500107, count := 1, ty := .u8, acc := .rw, dflt := 100, ranges := [(10, 100)], plate := true },
  { addr := 0x500108, count := 1, ty := .u16, acc := .rw, dflt := 100, ranges := [(0, 10000)], plate := true },
  { addr := 0x500109, count := 1, ty := .bool, acc := .rw, dflt := 1, ranges := [(0, 1)], plate := true },
  { addr := 0x50010A, count := 1, ty := .u16, acc := .rw, dflt := 250, ranges := [(50, 1000)], plate := true },
  { addr := 0x500201, count := 1, ty := .u16, acc := .ro, dflt := 0, ranges := [(0, 0), (5000, 13500)] },
  { addr := 0x500202, count := 1, ty := .u16, acc := .ro, dflt := 0, ranges := [(0, 13500)] },
  { addr := 0x500203, count := 1, ty := .u16, acc := .ro, dflt := 0, ranges := [(0, 65535)] },
  { addr := 0x500204, count := 1, ty := .u16, acc := .ro, dflt := 0, ranges := [(0, 13500)] },
  { addr := 0x500205, count := 1, ty := .u16, acc := .ro, dflt := 0, ranges := [(0, 16000)] },
  { addr := 0x500206, count := 1, ty := .u16, acc := .ro, dflt := 0, ranges := [(0, 16000)] }]

def rows501_1 : List Row := [
  { addr := 0x500207, count := 1, ty := .u16, acc := .ro, dflt := 0, ranges := [(0, 3000)] },
  { addr := 0x500208, count := 1, ty := .u8, acc := .ro, dflt := 0, ranges := [] },
  { addr := 0x500209, count := 1, ty := .u16, acc := .ro, dflt := 0, ranges := [(0, 65535)] },
  { addr := 0x50020A, count := 1, ty := .u8, acc := .ro, dflt := 0, ranges := [(0, 8)] },
  { addr := 0x500301, count := 1, ty := .tab, acc := .rw, dflt := 0, ranges := [], plate := true, len := 256 },
  { addr := 0x500302, count := 1, ty := .u8, acc := .wo, dflt := 0, ranges := [(197, 197), (92, 92)] },
  { addr := 0x500303, count := 1, ty := .u8, acc := .ro, dflt := 0, ranges := [(0, 0), (1, 1), (2, 2)] },
  { addr := 0x500304, count := 1, ty := .u8, acc := .ro, dflt := 255, ranges := [(0, 127), (255, 255)] },
  { addr := 0x500401, count := 8, ty := .s32, acc := .ro, dflt := 0, ranges := [(-8192, 24544)] },
  { addr := 0x500501, count := 8, ty := .s32, acc := .ro, dflt := 0, ranges := [(-128000, 128000)] },
  { addr := 0x501001, count := 1, ty := .u16, acc := .rw, dflt := 1600, ranges := [(1250, 2500)], plate := true },
  { addr := 0x501002, count := 1, ty := .u16, acc := .rw, dflt := 6400, ranges := [(5000, 10000)], plate := true },
  { addr := 0x501003, count := 1, ty := .u16, acc := .ro, dflt := 0, ranges := [(0, 30000)] },
  { addr := 0x501004, count := 1, ty := .u32, acc := .ro, dflt := 0, ranges := [(0, 120000)] },
  { addr := 0x502001, count := 1, ty := .tab, acc := .rw, dflt := 0, ranges := [], plate := true, len := 20 },
  { addr := 0x502002, count := 1, ty := .u8, acc := .wo, dflt := 0, ranges := [(197, 197), (92, 92)] }]

def rows501_2 : List Row := [
  { addr := 0x502003, count := 1, ty := .u8, acc := .ro, dflt := 0, ranges := [(0, 0), (1, 1), (2, 2)] },
  { addr := 0x502004, count := 1, ty := .u8, acc := .ro, dflt := 255, ranges := [(0, 4), (255, 255)] },
  { addr := 0x503001, count := 1, ty := .u8, acc := .rw, dflt := 0, ranges := [], plate := true },
  { addr := 0x503002, count := 1, ty := .u16, acc := .ro, dflt := 0, ranges := [] },
  { addr := 0x503003, count := 1, ty := .u32, acc := .ro, dflt := 0, ranges := [(0, 4294967295)] },
  { addr := 0x503004, count := 1, ty := .u32, acc := .ro, dflt := 0, ranges := [(0, 4294967295)] },
  { addr := 0x504001, count := 1, ty := .u16, acc := .rw, dflt := 15000, ranges := [(6000, 16000)], plate := true },
  { addr := 0x504002, count := 1, ty := .u16, acc := .rw, dflt := 4500, ranges := [(4000, 13000)], plate := true },
  { addr := 0x504003, count := 1, ty := .u32, acc := .rwe, dflt := 62000, ranges := [(40000, 66000)], integrator := true },
  { addr := 0x504004, count := 1, ty := .u32, acc := .rw, dflt := 34000, ranges := [(30000, 45000)], plate := true },
  { addr := 0x504005, count := 1, ty := .u8, acc := .rw, dflt := 50, ranges := [(5, 100)], plate := true },
  { addr := 0x504006, count := 1, ty := .u16, acc := .rw, dflt := 60, ranges := [(10, 400)], plate := true },
  { addr := 0x504007, count := 1, ty := .u16, acc := .rw, dflt := 0, ranges := [], reserved := 0xF000, plate := true },
  { addr := 0x504008, count := 1, ty := .u8, acc := .rw, dflt := 3, ranges := [(0, 254), (255, 255)], plate := true },
  { addr := 0x504009, count := 1, ty := .u16, acc := .rw, dflt := 100, ranges := [(1, 10000)], plate := true },
  { addr := 0x50400A, count := 1, ty := .u16, acc := .rw, dflt := 0, ranges := [], reserved := 0xFFE0, w1c := true }]

def rows501_3 : List Row := [
  { addr := 0x50400B, count := 1, ty := .u16, acc := .ro, dflt := 0, ranges := [] },
  { addr := 0x50400C, count := 1, ty := .u8, acc := .rw, dflt := 0, ranges := [], w1c := true },
  { addr := 0x5040FE, count := 1, ty := .u8, acc := .ro, dflt := 8, ranges := [(0, 8)] }]

def rows501 : List Row := rows501_0 ++ rows501_1 ++ rows501_2 ++ rows501_3

def rows58_0 : List Row := [
  { addr := 0x580001, count := 1, ty := .u8, acc := .rw, dflt := 150, ranges := [(85, 150)], plate := true, integrator := true },
  { addr := 0x580002, count := 1, ty := .u16, acc := .rwe, dflt := 1560, ranges := [(800, 1760)], integrator := true },
  { addr := 0x580003, count := 1, ty := .u16, acc := .rw, dflt := 1400, ranges := [(700, 1710)], plate := true, integrator := true },
  { addr := 0x580004, count := 1, ty := .u16, acc := .rw, dflt := 600, ranges := [(0, 1000)], plate := true },
  { addr := 0x580005, count := 1, ty := .u16, acc := .rw, dflt := 8000, ranges := [(2000, 20000)], plate := true },
  { addr := 0x580006, count := 1, ty := .u8, acc := .rw, dflt := 30, ranges := [(10, 100)], plate := true, integrator := true },
  { addr := 0x580007, count := 1, ty := .u8, acc := .rw, dflt := 80, ranges := [(10, 100)], plate := true, integrator := true },
  { addr := 0x580008, count := 1, ty := .u16, acc := .rw, dflt := 200, ranges := [(50, 500)], plate := true },
  { addr := 0x5800FE, count := 1, ty := .u8, acc := .ro, dflt := 8, ranges := [(0, 8)] },
  { addr := 0x580101, count := 1, ty := .u8, acc := .rw, dflt := 0, ranges := [], reserved := 0xFE, integrator := true, w1c := true },
  { addr := 0x580102, count := 1, ty := .u8, acc := .ro, dflt := 0, ranges := [] },
  { addr := 0x580103, count := 1, ty := .u8, acc := .ro, dflt := 0, ranges := [(0, 0), (1, 4)] },
  { addr := 0x580104, count := 1, ty := .u8, acc := .ro, dflt := 0, ranges := [(0, 23), (32, 39), (40, 40)] },
  { addr := 0x580105, count := 1, ty := .u64, acc := .ro, dflt := 0, ranges := [(0, 18446744073709551615)] },
  { addr := 0x580106, count := 1, ty := .u32, acc := .ro, dflt := 0, ranges := [(0, 4294967295)], plate := true },
  { addr := 0x580107, count := 1, ty := .u8, acc := .ro, dflt := 0, ranges := [(0, 255)] }]

def rows58_1 : List Row := [
  { addr := 0x580201, count := 1, ty := .s16, acc := .ro, dflt := 0, ranges := [(-440, 1400)] },
  { addr := 0x580202, count := 1, ty := .u8, acc := .ro, dflt := 1, ranges := [(0, 4)] },
  { addr := 0x580203, count := 1, ty := .u8, acc := .ro, dflt := 0, ranges := [] },
  { addr := 0x580204, count := 1, ty := .s16, acc := .ro, dflt := 0, ranges := [(-1000, 1000)] }]

def rows58 : List Row := rows58_0 ++ rows58_1

def rows60_0 : List Row := [
  { addr := 0x600001, count := 1, ty := .bool, acc := .rw, dflt := 0, ranges := [(0, 1)], plate := true },
  { addr := 0x600002, count := 1, ty := .u8, acc := .rw, dflt := 0, ranges := [], plate := true },
  { addr := 0x600003, count := 1, ty := .u8, acc := .rw, dflt := 2, ranges := [(0, 0), (1, 1), (2, 2)], plate := true },
  { addr := 0x600004, count := 1, ty := .u16, acc := .rw, dflt := 16383, ranges := [], reserved := 0xC000, plate := true },
  { addr := 0x600005, count := 1, ty := .u8, acc := .rw, dflt := 16, ranges := [(1, 255)], plate := true },
  { addr := 0x600006, count := 1, ty := .u16, acc := .rw, dflt := 100, ranges := [(10, 10000)], plate := true },
  { addr := 0x600007, count := 1, ty := .u16, acc := .rw, dflt := 0, ranges := [(0, 0), (4, 65535)], plate := true },
  { addr := 0x600008, count := 1, ty := .u16, acc := .rw, dflt := 100, ranges := [(10, 10000)], plate := true },
  { addr := 0x600009, count := 1, ty := .u16, acc := .rw, dflt := 10, ranges := [(1, 1000)], plate := true },
  { addr := 0x60000A, count := 1, ty := .u8, acc := .wo, dflt := 0, ranges := [(1, 1)] },
  { addr := 0x600101, count := 1, ty := .u8, acc := .ro, dflt := 0, ranges := [(0, 4)] },
  { addr := 0x600102, count := 1, ty := .u8, acc := .ro, dflt := 0, ranges := [(0, 0), (1, 1), (2, 2)] },
  { addr := 0x600103, count := 1, ty := .u16, acc := .ro, dflt := 0, ranges := [(0, 999)] },
  { addr := 0x600104, count := 1, ty := .u16, acc := .ro, dflt := 0, ranges := [] },
  { addr := 0x600105, count := 1, ty := .u8, acc := .ro, dflt := 0, ranges := [(0, 2)] },
  { addr := 0x600106, count := 1, ty := .u16, acc := .ro, dflt := 0, ranges := [] }]

def rows60_1 : List Row := [
  { addr := 0x600201, count := 1, ty := .u64, acc := .ro, dflt := 0, ranges := [(0, 18446744073709551615)] },
  { addr := 0x600202, count := 1, ty := .u32, acc := .ro, dflt := 0, ranges := [(0, 4294967295)] },
  { addr := 0x600203, count := 1, ty := .u32, acc := .ro, dflt := 0, ranges := [(0, 4294967295)] },
  { addr := 0x600204, count := 1, ty := .u32, acc := .ro, dflt := 0, ranges := [(0, 4294967295)] },
  { addr := 0x600205, count := 1, ty := .u32, acc := .ro, dflt := 0, ranges := [(0, 4294967295)] },
  { addr := 0x600206, count := 1, ty := .u32, acc := .ro, dflt := 0, ranges := [(0, 4294967295)], plate := true },
  { addr := 0x600207, count := 1, ty := .u32, acc := .ro, dflt := 0, ranges := [(0, 4294967295)], plate := true }]

def rows60 : List Row := rows60_0 ++ rows60_1

def rows64_0 : List Row := [
  { addr := 0x640001, count := 1, ty := .u8, acc := .rwe, dflt := 0, ranges := [(0, 0), (1, 1), (2, 2)], integrator := true },
  { addr := 0x640002, count := 1, ty := .u8, acc := .ro, dflt := 0, ranges := [(0, 4)] },
  { addr := 0x640003, count := 1, ty := .u8, acc := .wo, dflt := 0, ranges := [(1, 3), (130, 130)] },
  { addr := 0x640004, count := 1, ty := .bool, acc := .rw, dflt := 1, ranges := [(0, 1)], plate := true },
  { addr := 0x640005, count := 1, ty := .u16, acc := .rw, dflt := 100, ranges := [(10, 60000)], plate := true },
  { addr := 0x640006, count := 1, ty := .u8, acc := .rw, dflt := 15, ranges := [], reserved := 0xF0, plate := true },
  { addr := 0x640007, count := 1, ty := .u8, acc := .rw, dflt := 16, ranges := [(1, 100)], plate := true },
  { addr := 0x640008, count := 1, ty := .u8, acc := .rw, dflt := 4, ranges := [(1, 255)], plate := true },
  { addr := 0x640009, count := 1, ty := .u8, acc := .rw, dflt := 0, ranges := [(0, 0), (64, 79)], plate := true },
  { addr := 0x6400FE, count := 1, ty := .u8, acc := .ro, dflt := 8, ranges := [(0, 8)] },
  { addr := 0x640101, count := 1, ty := .u8, acc := .ro, dflt := 0, ranges := [] },
  { addr := 0x640102, count := 1, ty := .u8, acc := .ro, dflt := 255, ranges := [(0, 4), (255, 255)] },
  { addr := 0x640103, count := 1, ty := .u8, acc := .ro, dflt := 0, ranges := [(0, 5)] },
  { addr := 0x640104, count := 1, ty := .u32, acc := .ro, dflt := 0, ranges := [(0, 4294967295)] },
  { addr := 0x640105, count := 1, ty := .u32, acc := .ro, dflt := 0, ranges := [(0, 4294967295)] },
  { addr := 0x640201, count := 1, ty := .u32, acc := .ro, dflt := 0, ranges := [(0, 4294967295)], plate := true }]

def rows64_1 : List Row := [
  { addr := 0x640202, count := 1, ty := .u32, acc := .ro, dflt := 0, ranges := [(0, 4294967295)], plate := true },
  { addr := 0x640203, count := 1, ty := .u32, acc := .ro, dflt := 0, ranges := [(0, 4294967295)], plate := true },
  { addr := 0x640204, count := 1, ty := .u32, acc := .ro, dflt := 0, ranges := [(0, 4294967295)], plate := true },
  { addr := 0x640205, count := 1, ty := .u32, acc := .ro, dflt := 0, ranges := [(0, 4294967295)], plate := true },
  { addr := 0x640206, count := 1, ty := .u32, acc := .ro, dflt := 0, ranges := [(0, 4294967295)] }]

def rows64 : List Row := rows64_0 ++ rows64_1

def rows70_0 : List Row := [
  { addr := 0x700001, count := 1, ty := .u8, acc := .wo, dflt := 0, ranges := [(165, 165), (60, 60)] },
  { addr := 0x700002, count := 1, ty := .u8, acc := .ro, dflt := 0, ranges := [(0, 0), (1, 1), (2, 2), (3, 3)] },
  { addr := 0x700003, count := 1, ty := .u32, acc := .ro, dflt := 0, ranges := [(0, 4294967295)], plate := true },
  { addr := 0x700004, count := 1, ty := .u16, acc := .ro, dflt := 0, ranges := [(0, 13000)] },
  { addr := 0x700005, count := 1, ty := .u8, acc := .ro, dflt := 255, ranges := [(0, 0), (1, 1), (255, 255)] },
  { addr := 0x700006, count := 1, ty := .u32, acc := .ro, dflt := 0, ranges := [(0, 4294967295)] },
  { addr := 0x700007, count := 1, ty := .u16, acc := .ro, dflt := 0, ranges := [(0, 4096)] },
  { addr := 0x700008, count := 1, ty := .u32, acc := .ro, dflt := 0, ranges := [(0, 4294967295)] },
  { addr := 0x700009, count := 1, ty := .u32, acc := .ro, dflt := 0, ranges := [(0, 4294967295)], plate := true },
  { addr := 0x70000A, count := 1, ty := .u8, acc := .ro, dflt := 0, ranges := [] },
  { addr := 0x700101, count := 1, ty := .u64, acc := .ro, dflt := 0, ranges := [(0, 18446744073709551615)] },
  { addr := 0x700102, count := 1, ty := .u64, acc := .ro, dflt := 0, ranges := [(0, 18446744073709551615)] },
  { addr := 0x700103, count := 1, ty := .u32, acc := .ro, dflt := 0, ranges := [(0, 999999)] },
  { addr := 0x700104, count := 1, ty := .u64, acc := .rw, dflt := 0, ranges := [(0, 18446744073709551615)] },
  { addr := 0x700105, count := 1, ty := .u32, acc := .wo, dflt := 0, ranges := [(0, 999999)] },
  { addr := 0x700106, count := 1, ty := .u8, acc := .ro, dflt := 0, ranges := [] }]

def rows70_1 : List Row := [
  { addr := 0x700201, count := 1, ty := .u8, acc := .wo, dflt := 0, ranges := [(193, 193)], integrator := true },
  { addr := 0x700202, count := 1, ty := .u8, acc := .ro, dflt := 0, ranges := [] },
  { addr := 0x700203, count := 1, ty := .u32, acc := .ro, dflt := 0, ranges := [(0, 524288)] },
  { addr := 0x700204, count := 1, ty := .u32, acc := .ro, dflt := 0, ranges := [(0, 4294967295)] },
  { addr := 0x700205, count := 1, ty := .u32, acc := .ro, dflt := 0, ranges := [(0, 4294967295)] },
  { addr := 0x700206, count := 1, ty := .u32, acc := .ro, dflt := 0, ranges := [(0, 4294967295)], plate := true },
  { addr := 0x700207, count := 1, ty := .u32, acc := .rw, dflt := 0, ranges := [(0, 4294967295)] },
  { addr := 0x700208, count := 1, ty := .dom, acc := .ro, dflt := 0, ranges := [], len := 256 },
  { addr := 0x700209, count := 1, ty := .u8, acc := .ro, dflt := 0, ranges := [(0, 4)], plate := true },
  { addr := 0x700301, count := 1, ty := .u16, acc := .rw, dflt := 0, ranges := [(0, 57340)] },
  { addr := 0x700302, count := 1, ty := .u32, acc := .rw, dflt := 0, ranges := [], plate := true },
  { addr := 0x700401, count := 1, ty := .u32, acc := .ro, dflt := 0, ranges := [(0, 4294967295)], plate := true },
  { addr := 0x700402, count := 1, ty := .u32, acc := .ro, dflt := 0, ranges := [(0, 4294967295)], plate := true },
  { addr := 0x700403, count := 1, ty := .u32, acc := .ro, dflt := 0, ranges := [(0, 4294967295)], plate := true },
  { addr := 0x700404, count := 1, ty := .u32, acc := .ro, dflt := 0, ranges := [(0, 4294967295)], plate := true },
  { addr := 0x700501, count := 9, ty := .u64, acc := .ro, dflt := 0, ranges := [(0, 18446744073709551615)], plate := true }]

def rows70 : List Row := rows70_0 ++ rows70_1

def rows78_0 : List Row := [
  { addr := 0x780001, count := 1, ty := .u8, acc := .wo, dflt := 0, ranges := [(16, 23), (31, 31)] },
  { addr := 0x780002, count := 1, ty := .u16, acc := .ro, dflt := 15, ranges := [] },
  { addr := 0x780003, count := 1, ty := .u16, acc := .ro, dflt := 512, ranges := [(128, 128), (512, 512)] },
  { addr := 0x780004, count := 1, ty := .u8, acc := .rw, dflt := 0, ranges := [], plate := true },
  { addr := 0x781001, count := 1, ty := .u8, acc := .wo, dflt := 0, ranges := [(1, 1), (2, 2), (3, 3), (4, 4)] },
  { addr := 0x781002, count := 1, ty := .u16, acc := .rw, dflt := 1, ranges := [(1, 4096)], plate := true },
  { addr := 0x781003, count := 1, ty := .u16, acc := .rw, dflt := 0, ranges := [], reserved := 0xFE00, plate := true },
  { addr := 0x781004, count := 1, ty := .s32, acc := .rw, dflt := 0, ranges := [], plate := true },
  { addr := 0x781005, count := 1, ty := .u8, acc := .rw, dflt := 10, ranges := [(0, 100)], plate := true },
  { addr := 0x781006, count := 1, ty := .u32, acc := .ro, dflt := 0, ranges := [] },
  { addr := 0x782001, count := 8, ty := .u32, acc := .rw, dflt := 0, ranges := [], reserved := 0xFFFFC000, plate := true }]

def rows78 : List Row := rows78_0

/-- The template address of an address that lies in a unit's range (R576): the address of the first instance of its
unit kind; the address itself where the range has one instance. -/
def template (a : Addr) : Addr :=
  let i := a / 256
  if i < 0x1140 then a
  else if i < 0x1150 then 0x1140 * 256 + a % 256
  else if i < 0x2100 then a
  else if i < 0x2200 then (0x2100 + (i - 0x2100) % 0x20) * 256 + a % 256
  else if i < 0x22C0 then (0x2200 + (i - 0x2200) % 0x08) * 256 + a % 256
  else if i < 0x3000 then a
  else if i < 0x3800 then (0x3000 + (i - 0x3000) % 0x100) * 256 + a % 256
  else if i < 0x4000 then a
  else if i < 0x4C00 then (0x4000 + (i - 0x4000) % 0x20) * 256 + a % 256
  else if i < 0x6000 then a
  else if i < 0x6040 then (0x6000 + (i - 0x6000) % 0x20) * 256 + a % 256
  else if i < 0x7810 then a
  else if i < 0x7818 then 0x7810 * 256 + a % 256
  else if 0x7820 ≤ i ∧ i < 0x7828 then 0x7820 * 256 + a % 256
  else a

/-- The unit number of an address in a unit's range: ring, region, block, loop, cell or port (R576). -/
def instOf (a : Addr) : Nat :=
  let i := a / 256
  if i < 0x1140 then 0
  else if i < 0x1150 then i - 0x1140
  else if i < 0x2100 then 0
  else if i < 0x2200 then (i - 0x2100) / 0x20
  else if i < 0x22C0 then (i - 0x2200) / 0x08
  else if i < 0x3000 then 0
  else if i < 0x3800 then (i - 0x3000) / 0x100
  else if i < 0x4000 then 0
  else if i < 0x4C00 then (i - 0x4000) / 0x20
  else if i < 0x6000 then 0
  else if i < 0x6040 then (i - 0x6000) / 0x20
  else if i < 0x7810 then 0
  else if i < 0x7818 then i - 0x7810
  else if 0x7820 ≤ i ∧ i < 0x7828 then i - 0x7820
  else 0

/-- The rows among which a template address may stand. -/
def rowsFor (t : Addr) : List Row :=
  let i := t / 256
  if i < 0x1100 then rows10 else
  if i < 0x2000 then rows11 else
  if i < 0x2100 then rows20 else
  if i < 0x2200 then rows21 else
  if i < 0x3000 then rows22 else
  if i < 0x3010 then rows30 else
  if i < 0x3020 then rows301 else
  if i < 0x3030 then rows302 else
  if i < 0x3040 then rows303 else
  if i < 0x3050 then rows304 else
  if i < 0x3060 then rows305 else
  if i < 0x4000 then rows306 else
  if i < 0x5000 then rows40 else
  if i < 0x5001 then rows500 else
  if i < 0x5800 then rows501 else
  if i < 0x6000 then rows58 else
  if i < 0x6100 then rows60 else
  if i < 0x7000 then rows64 else
  if i < 0x7800 then rows70 else
  rows78

/-- The descriptor row of an object address, mirrors apart. -/
def rowOf (a : Addr) : Option Row :=
  let t := template a
  (rowsFor t).find? fun r => r.addr ≤ t && t < r.addr + r.count

/-- Default BASE of ring r, KiB, and its size code (R681). -/
def ringDefault (r : Nat) : Int :=
  let bs : Nat × Nat :=
    if r = 0 then (448, 4) else if r = 1 then (464, 4) else if r = 2 then (384, 5) else if r = 3 then (504, 3)
    else if r < 12 then ((r - 4) * 32, 5) else if r = 12 then (256, 7) else if r = 13 then (416, 5)
    else if r = 14 then (480, 4) else (496, 3)
  (bs.1 + bs.2 * 512 + 8192 + 10 * 16777216 : Nat)

/-- The default of a scalar object (Default and Reset columns; R681 for RING_CFG, R177 for BANK_SEL). -/
def dflt (a : Addr) : Int :=
  if template a = 0x114001 then ringDefault (instOf a)
  else if template a = 0x301401 then 0x874B6001
  else if a = 0x100006 then Config.serial
  else if a = 0x780003 then (if Config.isL then 128 else 512)
  else if a = 0x100007 then (if Config.isL then 1024 else 4096)
  else match rowOf a with
    | some r => r.dflt
    | none => 0

end Sys2Proof.Machine
end

