-- ==== Sys2Proof/Machine/State.lean ====
section
/-! DEFINITION. The machine's state as plain data, and the state after reset.

Every scalar object of the dictionary has one home, `dict`: address (index × 256 + subindex) and value, sorted, listing
only values that differ from the default (log entry 9). What the manual gives the device beside its objects stands in one
record per unit. -/

namespace Sys2Proof.Machine

/-- Why the block stops. No meaning of this model ends in a fault: the spec gives every command an effect. -/
inductive Fault where
  /-- Raised by nothing: kept so that the type has a value that says so. Safe. -/
  | none
  deriving DecidableEq, Repr

/-- Why a command has no meaning. -/
inductive Refusal where
  /-- Raised by exec for a command that has no meaning yet. Safe. -/
  | notModelled (mnemonic : String)
  deriving DecidableEq, Repr

/-- One event record (R722, R723). -/
structure Record where
  code : Nat
  sev : Nat
  flags : Nat
  seq : Nat
  uptime : Nat
  wall : Nat
  payload : List Byte
  deriving DecidableEq, Repr

/-- The marker page of a shadow bank (R701). -/
structure Marker where
  /-- 0xA7 STARTED, 0x5E COMMITTED, else never stored -/
  state : Nat := 0
  trigger : Nat := 0
  pages : Nat := 0
  seq : Nat := 0
  uptime : Nat := 0
  nextEvt : Nat := 0
  deriving DecidableEq, Repr

/-- The content of the plate, as one image (R694). -/
structure Image where
  dict : List (Nat × Int) := []
  blobs : List (Nat × List Byte) := []
  log : List Record := []
  scratch : List (Nat × Byte) := []
  margin : List Record := []
  wall : Nat := 0
  deriving DecidableEq, Repr

/-- A store in progress (R700). -/
structure Store where
  /-- 1 STORE_CMD, 2 PFAIL_N, 3 VCTRL monitor -/
  trigger : Nat
  target : Nat
  seq : Nat
  uptime : Nat
  nextEvt : Nat
  /-- the pages to copy: every page, or those listed -/
  all : Bool
  pages : List Nat
  image : Image
  /-- it runs as a power-fail store (R703, R705) -/
  pf : Bool
  /-- another store runs after this one commits, with this trigger (R705) -/
  again : Option Nat := none
  deriving DecidableEq, Repr

/-- The plate, its shadow banks and the recorder (19_plate_and_recorder.md). -/
structure Plate where
  log : List Record := []
  scratch : List (Nat × Byte) := []
  margin : List Record := []
  bank : Vector Image 2 := Vector.replicate 2 {}
  marker : Vector Marker 2 := Vector.replicate 2 {}
  /-- pages dirty for bank 0 and 1 (R699); a bank never stored in whole has every page dirty -/
  dirty0 : List Nat := []
  dirty1 : List Nat := []
  all0 : Bool := true
  all1 : Bool := true
  store : Option Store := none
  /-- the plate content has been recalled since AON-NV rose -/
  recalled : Bool := true
  /-- pages that hold an uncorrectable error: of the SRAM, and of the bank that recall did not use (R712, R730) -/
  bad : List Nat := []
  badOther : List Nat := []
  /-- sequence number of the next record (R724) -/
  nextSeq : Nat := 0
  /-- the last event 0x0805, the correctable errors counted since (R731) -/
  ceAt : Option Nat := none
  /-- uptime of the commit of a power-fail store (R705) -/
  pfAt : Option Nat := none
  deriving DecidableEq, Repr

/-- The segmented transfer a requester stages for one object (R602, R603). -/
structure Req where
  /-- 0 OPEN, 1 INTEGRATOR -/
  level : Nat := 0
  lastAbort : Nat := 0
  lastAbortObj : Nat := 0
  descSel : Nat := 0
  /-- staging copies: object address and the bytes staged so far (R41) -/
  staging : List (Nat × List Byte) := []
  /-- the object whose working copy the read buffer holds, and its bytes (R605) -/
  buffer : Option (Nat × List Byte) := none
  /-- consecutive refused KEY writes (R586) -/
  keyFails : Nat := 0
  /-- until this uptime KEY is refused without comparison (R586) -/
  keyHold : Nat := 0
  /-- event 0x0704: last record, refusals since (R585) -/
  keyAt : Option Nat := none
  keySkip : Nat := 0
  /-- event 0x0702: last record, refusals since (R592) -/
  lockAt : Option Nat := none
  lockSkip : Nat := 0
  /-- data of the latest read that a command of its own makes (WALL_S, WALL_US, LOG_REC) -/
  out : List Byte := []
  /-- recorded µs of WALL_S (R719) -/
  wallUs : Option Nat := none
  /-- uptime of the latest transaction served (R587) -/
  served : Nat := 0
  deriving DecidableEq, Repr

/-- What a follower writes to the share bus in a sample (the table under R76): the low 8 bits of the sample count, the current sum
in 1/256 A, the maps of its cells that switch and of those under a request of priority 1 to 5. -/
structure UpEntry where
  num : Nat
  sum : Int
  act : Nat
  trip : Nat
  deriving DecidableEq, Repr

/-- What the master writes for a follower in a sample (the table under R76): sample number, duty command in 1/256 count, the
follower's cells that are to switch, the sample at which pending settings take effect. -/
structure DownEntry where
  num : Nat
  duty : Int
  act : Nat
  eff : Nat
  deriving DecidableEq, Repr

/-- A loop in one of its regions: period counter (R284), share bus (R75, R76), marker tracking of a follower (R85 to R90). -/
structure Track where
  lock : Bool := false
  good : Nat := 0
  missing : Nat := 0
  outSeq : Nat := 0
  far : Nat := 0
  /-- corrections of the period counter still to apply, counts (R86) -/
  adjust : Int := 0
  /-- the sample number that the latest marker payload carried (R83, R89) -/
  num : Option Nat := none
  /-- the period counter: time of its latest count 0, 500 ps, and the length of the period since, counts. It runs while the
  region is ready and its PLL has lock (R284, R312) -/
  zero : Nat := 0
  len : Nat := 2000
  /-- the share-bus entries of the latest sample that came in time -/
  up : Option UpEntry := none
  down : Option DownEntry := none
  /-- the alignment error of the latest marker, 125 ps: the follower's counter less the master's (R85) -/
  err : Int := 0
  /-- consecutive late entries, follower to master and master to follower (R81) -/
  lateUp : Nat := 0
  lateDown : Nat := 0
  /-- the follower's last current sum, 1/256 A (R35) -/
  sum : Int := 0
  /-- stipple residual and position of the region for the loop (R291) -/
  acc : Int := 0
  pos : Nat := 0
  /-- the duty command latched in the region, 1/256 count -/
  duty : Int := 0
  /-- cells that receive the extra count (R291) -/
  k : Int := 0
  deriving DecidableEq, Repr

/-- Loop states (09_setpoint.md). -/
structure LoopCtl where
  en : Bool := false
  /-- the on-request is inhibited until ENn next rises (R386) -/
  inhibit : Bool := false
  /-- a refusal has been recorded for this appearance of the on-request (R387) -/
  refused : Bool := false
  /-- affected by a commit, or a recall, that is not applied (R100, R102) -/
  affected : Bool := false
  armedAt : Nat := 0
  /-- uptime of the entry to FAULT, or of the latest retry tick since (R359) -/
  retryAt : Nat := 0
  /-- event 0x0110 recorded in this stay in ARMED -/
  armedNoted : Bool := false
  /-- samples since arming (R88) -/
  armedSamples : Nat := 0
  winZero : Bool := false
  preDone : Bool := false
  vPre : Rat := 0
  regAt : Nat := 0
  /-- tick since which PGOOD's window has held (R405) -/
  pgSince : Option Nat := none
  /-- consecutive samples outside the window (R406) -/
  pgOut : Nat := 0
  /-- the soft-stop has reached SS_END and sheds (R392) -/
  ending : Bool := false
  /-- the soft-stop follows BLIND_MAX: it ends in FAULT (R145) -/
  blindStop : Bool := false
  /-- a trip waits for the policy at the next sample boundary (R357): policies as R379 codes them, 0 HICCUP 1 LATCH 2 SHED -/
  trip : Option Nat := none
  /-- the cells of the loop rest low in the safe state (R345) -/
  safeLow : Bool := false
  /-- event 0x0112 last recorded (R395) -/
  clampAt : Option Nat := none
  /-- event 0x0441 recorded since RST_N rose (R261) -/
  runNoted : Bool := false
  deriving DecidableEq, Repr

/-- Set-point sources (R395 to R404). -/
structure LoopSp where
  /-- final target and set-point after slew, volts -/
  final : Rat := 0
  now : Rat := 0
  /-- value of the latest SETV applied since RST_N rose, volts (R396) -/
  setv : Option Rat := none
  /-- the value the set-point keeps after a change to the Amdin link, until the first SETV (R404) -/
  stay : Option Rat := none
  /-- the last 8 raw values, latest first, and the filter state of each path (R397) -/
  vref : List Rat := []
  vrefY : Rat := 0
  spin : List Rat := []
  spinY : Rat := 0
  /-- src_value, volts -/
  src : Rat := 0
  /-- consecutive conversions of code 0 (R401) -/
  vrefZero : Nat := 0
  /-- latest completed average or density (R399, R400) -/
  spinX : Rat := 0
  /-- pulse mode: the last rise and fall, 1.25 ns; the last periods (high, length), latest first, (0, 0) for an invalid one -/
  rise : Option Nat := none
  fall : Option Nat := none
  periods : List (Nat × Nat) := []
  badRun : Nat := 0
  /-- uptime of the latest rising edge of SPINn, or of SPCLKn in PDM mode; for each source the µs for which the condition of R401 has
  been absent: Amdin, VREFINn, SPINn -/
  edgeAt : Nat := 0
  quiet : Vector Nat 3 := Vector.replicate 3 0
  /-- PDM mode: the bits still needed by the sinc filter, latest first, and the count since the last output -/
  pdm : List Bool := []
  pdmN : Nat := 0
  /-- the set-point holds because the source is lost (R402), since this uptime -/
  lostAt : Option Nat := none
  /-- the final target is SP_SAFE by the action of R402 -/
  safe : Bool := false
  /-- slew in force, V/s (R228) -/
  slew : Rat := 0
  deriving DecidableEq, Repr

/-- Measurement of a loop (03_sensing.md). -/
structure LoopSense where
  /-- OBSERVER-ONLY has source local (R138) -/
  obsLocal : Bool := false
  blindAt : Nat := 0
  /-- measured output voltage of the latest sample, saturation flag, and the local and remote readings, volts -/
  vout : Rat := 0
  sat : Bool := false
  remote : Rat := 0
  local_ : Rat := 0
  code : Nat := 0
  localCode : Nat := 0
  centre : Rat := 0
  localCentre : Rat := 0
  /-- summed current of the latest sample and the one before, 1/256 A -/
  isum : Int := 0
  isumPrev : Int := 0
  /-- learned offset, volts; updates since learning began; the last 8 values with the time of their writing, latest first (R110
  to R112) -/
  offset : Rat := 0
  updates : Nat := 0
  offsets : List (Nat × Rat) := []
  /-- mean codes of the zero calibrations of the window ADC's remote and local channel (R126) -/
  zero : Rat := 2048
  zeroLocal : Rat := 2048
  /-- a write of VS_SRC_SEL that waits: the value and the sample from which it acts (R49, R50, R148) -/
  srcNext : Option (Nat × Nat) := none
  /-- the runs of the detectors start afresh with the next sample, the loop having turned to another channel -/
  fresh : Bool := false
  /-- sums for the mean of the present microsecond -/
  learnSum : Rat := 0
  learnN : Nat := 0
  /-- the last 64 samples, latest first: code, duty ratio, summed current A (R135) -/
  frz : List (Nat × Rat × Rat) := []
  satRun : Nat := 0
  divV : Nat := 0
  divI : Nat := 0
  frozenCode : Option Nat := none
  /-- the sample of the latest feedback loss, and whether VLS_OFFSET was valid at it (R139) -/
  lossAt : Nat := 0
  lossValid : Bool := false
  /-- that loss was an open pin, and no other condition has joined it (R139) -/
  lossOpen : Bool := false
  /-- consecutive samples that meet R142 -/
  good : Nat := 0
  /-- percent of the configured current limit in force (R141, R143) -/
  limit : Nat := 100
  restoring : Bool := false
  /-- tick of the return to measured operation (R143) -/
  backAt : Nat := 0
  /-- digital trips: consecutive samples, ticks of the start, or bus conversions, of the conditions of R340 -/
  ovSet : Nat := 0
  /-- the comparisons of OVP_SET, UVP and ITRIP in the latest sample (R782) -/
  ovNow : Bool := false
  uvNow : Bool := false
  itNow : Bool := false
  uvSince : Option Nat := none
  itSince : Option Nat := none
  busLo : Nat := 0
  busHi : Nat := 0
  deriving DecidableEq, Repr

/-- A blend term of f: volts at its start, samples left, samples in all (R201, R265, R275). -/
structure Blend where
  v : Rat
  left : Nat
  total : Nat
  deriving DecidableEq, Repr

/-- What stage 5 of a sample forms (R185): the duty in 1/256 count, the limited input, and its feedback part (R156). -/
structure Formed where
  duty : Int
  ratio : Rat
  u0 : Rat
  u1 : Rat
  ut0 : Int
  ut1 : Int
  deriving DecidableEq, Repr

/-- What a sample was computed from, kept until its deadline: a feedback loss that the sample completes acts on it (R141, R147). -/
structure Redo where
  /-- x̂ before the observer update, the innovation used, the factor s, the target and f of the next sample, the summed current -/
  x : List Int
  used : List Int
  s : Rat
  r : Rat
  f : Rat
  isum : Int
  deriving DecidableEq, Repr

/-- The engine of a loop (04_control_engine.md). -/
structure LoopEng where
  sample : Nat := 0
  tick : Nat := 0
  /-- x̂, and ũ in force, in Q8.24 -/
  x : List Int := List.replicate 12 0
  /-- x̂ before the observer update of the latest sample (R190, R194) -/
  xPrev : List Int := List.replicate 12 0
  ut0 : Int := 0
  ut1 : Int := 0
  /-- u0 and u1 in force, V and ratio -/
  u0 : Rat := 0
  u1 : Rat := 0
  /-- the target r of the latest sample and of the next, V -/
  r : Rat := 0
  rNext : Rat := 0
  /-- innovation before the zeroing of R159, and measurements, of the latest sample, Q8.24 -/
  e : List Int := [0, 0, 0, 0]
  y : List Int := [0, 0, 0, 0]
  /-- the result of the sample, waiting for its deadline; none after an overrun -/
  result : Option Formed := none
  /-- the duty in force, 1/256 count -/
  duty : Int := 0
  dutyRatio : Rat := 0
  /-- the sample in progress is a miss: overrun, late share-bus entry -/
  overrun : Bool := false
  late : Bool := false
  /-- the sample was confirmed and has latched (R262) -/
  confirmed : Bool := false
  /-- misses by 1 ms interval of uptime, latest first: interval and count (R196) -/
  bins : List (Nat × Nat) := []
  missAt : Option Nat := none
  /-- ground law: integrator, e_prev, first sample not yet formed (R200); the return's transfer is due (R201) -/
  gi : Rat := 0
  ePrev : Rat := 0
  gFirst : Bool := false
  back : Bool := false
  /-- event 0x040B recorded: no bank for the return (R197); on a shadow, event 0x0401: no bank to arm with (R175) -/
  noBank : Bool := false
  blends : List Blend := []
  /-- consecutive samples in which each bank has been eligible while the active one failed (R181) -/
  eligible : List Nat := [0, 0, 0, 0]
  /-- a forced bank that waits, and the sample from which it may take effect (R49, R50, R182) -/
  force : Option (Nat × Nat) := none
  /-- event 0x0402 is recorded for the present run of misses (R196) -/
  runNoted : Bool := false
  /-- the sample in progress, until its deadline -/
  redo : Option Redo := none
  /-- the payload of the latest marker: the sample number and the master's period counter at the tick (R83) -/
  marker : Option (Nat × Nat) := none
  /-- nodes 0x00 to 0x1F of the latest sample, as 32-bit words (R732) -/
  nodes : List Nat := List.replicate 32 0
  /-- a STANDBY's own last 64 samples, latest first: sample, duty (1/256 count) and x̂ (R559, R564) -/
  past : List (Nat × Int × List Int) := []
  /-- followers whose sum or duty command was late in the latest sample -/
  lateMap : Nat := 0
  /-- in-use tables: RIP_TAB and TIM_TAB, and the composite s_n (R210, R215) -/
  rip : List Int := List.replicate 64 0
  tim : List Nat := List.replicate 5 0x505028
  comp : List Rat := List.replicate 32 1
  s : Rat := 1
  deriving DecidableEq, Repr

/-- A notice that waits for its sample boundary, or the notice of the open sketch (R244, R245). -/
structure Notice where
  di : Int
  lead : Nat
  cls : Nat
  /-- t_ref in counts of 500 ps -/
  tRef : Nat
  deriving DecidableEq, Repr

/-- A sketch (06_sketch_ahead.md). -/
structure LoopSk where
  pending : Option Notice := none
  /-- the sample from which the waiting notice opens or replaces a sketch (R246) -/
  openAt : Nat := 0
  notice : Notice := ⟨0, 0, 0, 0⟩
  /-- CANCEL applied; SK_EN written 0 -/
  cancel : Bool := false
  disabled : Bool := false
  /-- proof state: x̂_I, x̂_D, I_open (A), the cells that switch, their slot positions, bank; tick of the opening -/
  pI : Int := 0
  pD : Int := 0
  iOpen : Rat := 0
  pActive : List Nat := []
  pSlots : List Nat := []
  pBank : Nat := 255
  tOpen : Nat := 0
  /-- the last 16 values of I_meas, latest first, A (R249) -/
  imeas : List Rat := []
  /-- the cells woken, in the order of their waking; time of the latest release of one at an erase (R275) -/
  woken : List Nat := []
  relAt : Option Nat := none
  /-- bias in force and its target, volts (R256, R257) -/
  bias : Rat := 0
  biasTo : Rat := 0
  /-- rate of the bias, V/s (R249) -/
  biasSlew : Rat := 0
  /-- headroom requested of loop FB, mV (R259), until this tick once inked -/
  headroom : Rat := 0
  hold : Option Nat := none
  /-- run-ahead chain: (ŷ0, ũ0, ũ1), head first; predicted x̂ and ũ (R260) -/
  chain : List (Int × Int × Int) := []
  xp : List Int := List.replicate 12 0
  up0 : Int := 0
  up1 : Int := 0
  reset : Bool := true
  avail : Bool := false
  /-- the last sketch term of f, volts (R265) -/
  term : Rat := 0
  dead : Bool := false
  deriving DecidableEq, Repr

/-- A change of the active set that the master has decided in the present sample, by the rows of R327. -/
inductive Change where
  /-- cells have left under a request of priority 1 to 5 -/
  | removal
  /-- a thermal rule sheds a cell, and one may join in its place (R498) -/
  | swap (out : Nat) (into : Option Nat)
  /-- a lowered PSTATE budget -/
  | budget (n : Nat)
  /-- the wake of a sketch; the shed of the cells named, at its erase or at the end of a soft-stop (R275, R392) -/
  | wake (ns : List Nat)
  | cells (ns : List Nat)
  /-- phase add and shed on current thresholds -/
  | add
  | shed
  deriving DecidableEq, Repr

/-- The active set that the master has decided, and the sample from which it is in force (R50, R314). -/
structure Plan where
  act : List Nat
  eff : Nat
  deriving DecidableEq, Repr

/-- Phases of a loop (07_pwm_and_phases.md). -/
structure LoopPh where
  /-- the active set in force, ascending cell numbers -/
  active : List Nat := []
  /-- the changes decided in the present sample, and the set they have given, until it is in force (R314, R327) -/
  changes : List Change := []
  plan : Option Plan := none
  /-- staggered enabling: cells to start, turns taken, in progress (R331, R332) -/
  rampN : Nat := 0
  turns : Nat := 0
  enabling : Bool := false
  started : List Nat := []
  /-- periods since the last start (R331) -/
  gap : Nat := 0
  /-- tick since which the add and the shed condition have held (R316) -/
  addAt : Option Nat := none
  shedAt : Option Nat := none
  /-- cells of the active set whose wake request waits, in order (R254, R318) -/
  wake : List Nat := []
  /-- a PSTATE that waits: budget, power code and effective sample (R50, R279) -/
  pstate : Option (Nat × Nat × Nat) := none
  /-- LOADI: load current, A, and the tick until which it is valid (R429) -/
  li : Rat := 0
  liUntil : Option Nat := none
  /-- a LOADI that waits: current, last valid tick and effective sample -/
  liNext : Option (Rat × Nat × Nat) := none
  /-- settings written while the loop spans several regions: address, old value, effective sample (R50) -/
  lag : List (Nat × Int × Nat) := []
  deriving DecidableEq, Repr

/-- Thermal throttling, energy and telemetry of a loop. -/
structure LoopTh where
  /-- t_up and t_dn of R494, µs; uptime of the last thermal swap (R498) -/
  tUp : Nat := 0
  tDn : Nat := 0
  swapAt : Option Nat := none
  /-- fraction below 1 µJ (R716) and the means of the present microsecond -/
  joule : Rat := 0
  vSum : Rat := 0
  iSum : Rat := 0
  n : Nat := 0
  /-- means over the preceding µs: V and A (R428, R716) -/
  vMean : Rat := 0
  iMean : Rat := 0
  peakU0 : Rat := 0
  deriving DecidableEq, Repr

/-- The samples of the present telemetry interval: their number, sums of V, A, ratio and V, least and greatest V, misses (R688). -/
structure LoopTel where
  n : Nat := 0
  v : Rat := 0
  i : Rat := 0
  d : Rat := 0
  b : Rat := 0
  lo : Rat := 0
  hi : Rat := 0
  miss : Nat := 0
  /-- uptime of the latest record (R688) -/
  at_ : Option Nat := none
  deriving DecidableEq, Repr

/-- Burnish of a loop (R522 to R537). -/
structure LoopBur where
  /-- cells still to measure, ascending; the slots measured, with whether a latch was set in the slot -/
  cells : List Nat := []
  slots : List (Nat × BurnishSlot × Bool) := []
  /-- latch numbers set at the end of the slot before -/
  before : List Nat := []
  /-- uptime of the start tb (R524); the on-time of the identification pulses of the cell in its slot, counts (R525) -/
  tb : Nat := 0
  ton : Nat := 0
  /-- started by BUR_CMD; abandonments in this start-up (R537) -/
  byCmd : Bool := false
  given : Nat := 0
  /-- BUR_MODE NONE at start-up: stored exclusions are not in force (R532) -/
  ignore : Bool := false
  deriving DecidableEq, Repr

/-- One output loop. -/
structure Loop where
  ctl : LoopCtl := {}
  sp : LoopSp := {}
  sn : LoopSense := {}
  eng : LoopEng := {}
  sk : LoopSk := {}
  ph : LoopPh := {}
  th : LoopTh := {}
  bur : LoopBur := {}
  tel : LoopTel := {}
  track : Vector Track 8 := Vector.replicate 8 {}
  deriving DecidableEq, Repr

/-- One phase cell (R14). -/
structure Cell where
  /-- the last conversions, latest first: aperture time in counts of 500 ps, and code -/
  conv : List (Nat × Nat) := []
  same : Nat := 0
  sat : Nat := 0
  oor : Nat := 0
  /-- mean code of the zero calibration (R127) -/
  zero : Rat := 256
  zeroDone : Bool := false
  /-- a wake request is issued: the cell starts with the next period of its loop's counter (R318) -/
  waking : Bool := false
  /-- the latest rising edge, 500 ps; the on-time at which its pulse falls, counts (R293); the latest edges, latest first (R23,
  R348) -/
  riseAt : Nat := 0
  fallAt : Nat := 0
  edges : List Nat := []
  /-- the pulse in progress, the on-time owed and the requested on-time, counts (R288, R293) -/
  inPulse : Bool := false
  owed : Int := 0
  onReq : Int := 0
  /-- the ledger that the pulse in progress took up (R288) -/
  carry : Int := 0
  /-- a shed waits for release; the periods begun since its effective sample (R320, R322) -/
  shedding : Bool := false
  shedPeriods : Nat := 0
  /-- a request of priority 1 to 5 was present and the cell has not resumed (R18) -/
  stopped : Bool := true
  /-- held low by OV_SAFE = 1 (R345); taken to mid-level by R346 -/
  low : Bool := false
  /-- re-spacing: position at its start, signed distance, steps made (R324) -/
  from_ : Nat := 0
  delta : Int := 0
  steps : Nat := 8
  /-- P of the present period, counts (R293) -/
  period : Nat := 2000
  /-- g_T in force and the one computed from the latest TMON conversion (R231, R232) -/
  gt : Rat := 1
  gtNext : Rat := 1
  /-- event 0x043A recorded since RST_N rose (R129); event 0x0452 last recorded (R296) -/
  trimNoted : Bool := false
  dropAt : Option Nat := none
  /-- in thermal hold (R499) -/
  held : Bool := false
  /-- the policy of the cell's IMON or READBACK latch has acted: the cell is at mid-level (R343) -/
  acted : Bool := false
  /-- a latch of the cell, or of its block, is set whose policy, at its trip, was SHED (R364) -/
  shedBy : Bool := false
  shedWith : Bool := false
  deriving DecidableEq, Repr

/-- What the supervisor keeps of one thermal sensor (R490, R492, R493, R500, R503). -/
structure Sens where
  /-- its own readings, latest first, 0.125 °C: the 208 that R490 compares -/
  own : List Int := []
  /-- the reading in use, own or substitute, 0.125 °C (R501); the latest that met no failure condition (R503) -/
  use : Int := 0
  good : Int := 0
  /-- its rate, °C/ms; none where it has none (R490) -/
  rate : Option Rat := none
  /-- a reading has set the band since the converter started -/
  seen : Bool := false
  band : Nat := 1
  /-- the band change that the latest readings ask for, −1, 0 or 1, and how many; uptime of the last change -/
  want : Int := 0
  wantN : Nat := 0
  bandAt : Option Nat := none
  /-- consecutive conversions that meet each failure condition; the last code and how often it has repeated -/
  low : Nat := 0
  high : Nat := 0
  far : Nat := 0
  code : Nat := 0
  same : Nat := 0
  /-- least and greatest summed cell current of the block over the repeats, 1/256 A -/
  iMin : Int := 0
  iMax : Int := 0
  /-- the converter's self-check passes -/
  check : Bool := true
  /-- uptime since which no failure condition has held -/
  okAt : Option Nat := none
  /-- failed (R500); failed with no valid neighbour (R503) -/
  failed : Bool := false
  alone : Bool := false
  deriving DecidableEq, Repr

/-- One block (R21). -/
structure Block where
  lsat : List Nat := List.replicate 32 4096
  sens : Sens := {}
  /-- the uptime since which the block has been cool (R499) -/
  coolAt : Option Nat := none
  deriving DecidableEq, Repr

/-- One open window of a collector (R371). -/
structure Window where
  at_ : CollectorId
  cause : Cause
  openedAt : Nat
  /-- further reports and their units -/
  count : Nat := 0
  cells : List Nat := []
  blocks : List Nat := []
  regions : List Nat := []
  closed : Bool := false
  /-- lower collectors that still owe a closing summary -/
  owed : List CollectorId := []
  deriving DecidableEq, Repr

/-- A message of the hatching tree: a first report or a closing summary (R36, R371, R372). -/
structure Msg where
  /-- the collector it is bound for -/
  to_ : CollectorId
  /-- the collector that sends it; none for a detector -/
  from_ : Option CollectorId
  cause : Cause
  summary : Bool
  unit : UnitId
  event : Nat
  count : Nat := 1
  /-- an overflow summary of R36, and the closing summaries that it counts; `count` holds its first reports -/
  overflow : Bool := false
  sums : Nat := 0
  cells : List Nat := []
  blocks : List Nat := []
  regions : List Nat := []
  /-- values that the rule of its event names beside those of R377 (R196; log entry 81) -/
  vals : List Byte := []
  deriving DecidableEq, Repr

/-- An open root of the chip collector (R373). -/
structure Root where
  cause : Cause
  event : Nat
  unit : UnitId
  openedAt : Nat
  deps : Nat := 0
  reports : Nat := 1
  cells : List Nat := []
  blocks : List Nat := []
  regions : List Nat := []
  vals : List Byte := []
  closed : Bool := false
  /-- causes whose closing summaries are still owed, with the sender -/
  owed : List (Cause × CollectorId) := []
  deriving DecidableEq, Repr

/-- One region (R29). -/
structure Region where
  /-- measured strobe-lane delay, 125 ps (R84) -/
  lanes : Nat := 0
  /-- where the region's engine serves two loops: the time of an even slot, modulo 80 ns, in counts of 500 ps (R31, R186) -/
  slot : Option Nat := none
  /-- the CK0 handshake is absent -/
  cut : Bool := false
  held : List Msg := []
  /-- messages that did not fit: per cause its overflow summary, with the number of each kind and the maps (R36) -/
  lost : List Msg := []
  /-- writes that wait for the handshake, with their requesters, oldest first (R311); what the region's status objects read
  meanwhile (R47) -/
  writes : List (Requester × Nat × Int) := []
  stale : List (Nat × Int) := []
  /-- the die sensor DTj -/
  sens : Sens := {}
  deriving DecidableEq, Repr

/-- The collectors' state (R371 to R375). -/
structure Tree where
  flight : List Msg := []
  windows : List Window := []
  roots : List Root := []
  /-- per cause: uptime of the last record and the roots suppressed since (R375) -/
  quiet : List (Cause × Nat × Nat) := []
  deriving DecidableEq, Repr

/-- One front-stage channel (R297 to R303, R449, R450, R457, R458). -/
structure Chan where
  /-- H of the period, counts, and the same with its fraction, 1/256 count -/
  onReq : Int := 0
  high : Int := 0
  ledger : Int := 0
  /-- balance trim, counts -/
  trim : Rat := 0
  /-- current of the latest FB sample, A, and its sum over the period -/
  current : Rat := 0
  iSum : Rat := 0
  slot : Nat := 0
  delta : Int := 0
  steps : Nat := 8
  started : Bool := false
  /-- it rejoins, with the next period of loop FB (R449) -/
  joining : Bool := false
  /-- the present period: its timing entry and its length; its edges in the order of R298, 500 ps: FLGn falls, FHGn rises and
  falls, FLGn rises; withheld, or not yet begun, both outputs stay low (R300) -/
  entry : Nat := 0x502828
  period : Nat := 2000
  flFall : Nat := 0
  fhRise : Nat := 0
  fhFall : Nat := 0
  flRise : Nat := 0
  withheld : Bool := true
  /-- the edges of the period before (R349) -/
  past : List Nat := []
  /-- the pulse in progress, the high interval owed, and the ledger that it took up (R288, R301) -/
  inPulse : Bool := false
  owed : Int := 0
  carry : Int := 0
  /-- FB sample since which the trim has stood at its limit (R459); uptime of the last event 0x0462 -/
  limAt : Option Nat := none
  trimAt : Option Nat := none
  deriving DecidableEq, Repr

/-- Loop FB and bus shaping (11_bus_shaping.md). -/
structure Fb where
  chan : Vector Chan 8 := Vector.replicate 8 {}
  /-- v_cmd, V; the law's integrator, e_prev and h (R457) -/
  vcmd : Rat := 0
  integ : Rat := 0
  ePrev : Rat := 0
  h : Rat := 0
  hClamped : Bool := false
  /-- latest bus and input voltage, V, and the last 5 bus conversions, latest first -/
  vbus : Rat := 0
  vbusCode : Nat := 0
  vbusLast : List Rat := []
  vin : Rat := 0
  vinCode : Nat := 0
  /-- consecutive conversions that meet FB_OV, FB_UV and VIN_UV (R340) -/
  fbOv : Nat := 0
  fbUv : Nat := 0
  vinUv : Nat := 0
  /-- a trip waits for its policy, coded as R379 codes policies; retries left (R361, R382) -/
  trip : Option Nat := none
  retryLeft : Nat := 3
  /-- uptime of the entry to FAULT, or of the latest retry tick since (R359, R382) -/
  retryAt : Nat := 0
  /-- affected by a commit that is not applied (R94, R100) -/
  affected : Bool := false
  /-- time of the latest count 0 of the FB period counter, 500 ps; FB sample m lies at 200·m -/
  zero : Nat := 0
  /-- in FAULT by a thermal shutdown (R486) -/
  thSd : Bool := false
  /-- uptime of the entry to REGULATE and to SOFTSTART -/
  regAt : Nat := 0
  ssAt : Nat := 0
  /-- FB samples; those of the present period -/
  n : Nat := 0
  iN : Nat := 0
  /-- FB periods since the last channel start (R453) -/
  gap : Nat := 2
  /-- stipple residual, position, and the extra counts and fraction of the command in force (R297) -/
  acc : Int := 0
  pos : Nat := 0
  k : Int := 0
  frac : Int := 0
  /-- the channels over which the command in force is distributed -/
  dist : List Nat := []
  tim : List Nat := List.replicate 5 0x502828
  eff : List Nat := List.replicate 128 10000
  /-- input band of the efficiency map (R462) -/
  col : Nat := 0
  pll : Bool := true
  /-- v_cmd at the start of suspension (R464) -/
  susp : Option Rat := none
  /-- demands that can still be the greatest of the last BS_DOWN_T, latest first: FB sample and mV (R461) -/
  demand : List (Nat × Int) := []
  /-- energy of the front stage below 1 µJ, the sums of the present microsecond (R716) -/
  joule : Rat := 0
  pSum : Rat := 0
  pN : Nat := 0
  /-- a STANDBY's own last 64 FB samples, latest first: sample, sum of the high intervals, and each with its fraction (R563) -/
  past : List (Nat × Int × List Int) := []
  /-- uptime of the last event 0x0460 -/
  floorAt : Option Nat := none
  /-- uptime of the latest telemetry record (R688) -/
  telAt : Option Nat := none
  deriving DecidableEq, Repr

/-- What the master regions report to CK9 and the bus budget of the loops (R460, R469). -/
structure Shape where
  /-- per loop: peaks of u0 reported, latest first, with their uptime -/
  peaks : Vector (List (Nat × Rat)) 8 := Vector.replicate 8 []
  /-- per loop: the bus budget, A, where it is in force -/
  budget : Vector (Option Rat) 8 := Vector.replicate 8 none
  /-- per loop: the grant lies below the present IOUT (R431 bit 9) -/
  short : Vector Bool 8 := Vector.replicate 8 false
  deriving DecidableEq, Repr

/-- A downstream frame that waits: TYPE, LOOP and payload (R421). -/
structure Down where
  kind : Nat
  loop : Nat
  payload : Nat
  deriving DecidableEq, Repr

/-- One Amdin port (10_amdin_link.md). -/
structure Aml where
  /-- a cycle has begun since the link reset -/
  cycleOn : Bool := false
  /-- answers owed, with the cycle they are due in (R425) -/
  replies : List (Nat × Down) := []
  /-- pending vectors of L0 to L7 and of the port (R431) -/
  alerts : Vector Nat 9 := Vector.replicate 9 0
  /-- outstanding vectors with their sequence numbers; cycles since each was sent; times repeated (R431, R432) -/
  out : Vector (Option (Nat × Nat)) 9 := Vector.replicate 9 none
  age : Vector Nat 9 := Vector.replicate 9 0
  tries : Vector Nat 9 := Vector.replicate 9 0
  alertSeq : Nat := 0
  /-- per loop: the grant and its marks last sent, and when (R435) -/
  grantSent : Vector (Option (Nat × Nat)) 8 := Vector.replicate 8 none
  grantAt : Vector Nat 8 := Vector.replicate 8 0
  /-- per loop: the quantity last sent in a TELEM; loops whose TELEM is due (R436) -/
  telLast : Vector Nat 8 := Vector.replicate 8 0
  telDue : List Nat := []
  /-- the loop last served in orders 2 to 5 of R430 -/
  last : Vector (Option Nat) 4 := Vector.replicate 4 none
  /-- training: its phase, the rate it trains or announces, the bound of its rates, the rise has ended, the highest rate
  that passed, correct answers in a row, cycles of the phase (R438 to R440) -/
  phase : Option TrainPhase := none
  rateTo : Nat := 0
  rateMax : Nat := 0
  ended : Bool := false
  passed : Nat := 0
  good : Nat := 0
  cycles : Nat := 0
  /-- the load's latest capability answer; CONTENT of the latest downstream TRAIN; PRBS-23 register -/
  cap : Option Nat := none
  content : Nat := 0
  prbs : Nat := 0
  /-- UP since RST_N rose; uptime of the first training since; LINK_UP_T has passed without UP; uptime of the entry to DOWN -/
  everUp : Bool := false
  firstAt : Option Nat := none
  upLate : Bool := false
  downAt : Nat := 0
  /-- consecutive upstream windows that failed their CRC (R442); bits of the present block (R441) -/
  winBad : Nat := 0
  blkBits : Nat := 0
  /-- event 0x0506: uptime of the last record, rejections since (R423) -/
  rejAt : Option Nat := none
  rejN : Nat := 0
  /-- a STANDBY's ADLY follows the upstream frames (14_counterproof.md) -/
  followed : Bool := false
  /-- the latest downstream frame, 40 bits -/
  line : Option Nat := none
  deriving DecidableEq, Repr

/-- The twin (14_counterproof.md). -/
structure Twin where
  token : Bool := true
  /-- TWTOKEN is high, as far as the device knows -/
  level : Bool := false
  linkUp : Bool := false
  /-- the own watchdog has not expired; uptime of the latest heartbeat sent and of the latest valid one received, and of the loss of
  the link (R551, R560, R565) -/
  wdOk : Bool := true
  sentAt : Nat := 0
  heardAt : Nat := 0
  lostAt : Nat := 0
  /-- sequence number of the next heartbeat; the latest one sent; the peer's latest -/
  seq : Nat := 0
  sent : Option Heartbeat := none
  peer : Option Heartbeat := none
  /-- abdication under way; a heartbeat of the peer with ABD set has arrived; an abdicating trip waits (R566) -/
  abd : Bool := false
  abdSeen : Bool := false
  abdDue : Bool := false
  /-- last journal sequence number sent, last applied; entries not yet applied by the STANDBY, or waiting to be applied -/
  jseq : Nat := 0
  applied : Nat := 0
  journal : List JournalEntry := []
  /-- per loop and for FB: consecutive counting digests, and digests still to be passed over (R559, R564) -/
  div : Vector Nat 9 := Vector.replicate 9 0
  skip : Vector Nat 9 := Vector.replicate 9 0
  /-- uptimes of the divergences; R564 has cleared READY; uptime of the latest counting sample -/
  divWin : List Nat := []
  divHold : Bool := false
  countAt : Option Nat := none
  /-- uptime of the latest alignment record applied, per loop and for FB; those asked for by ALIGN_REQ -/
  recAt : Vector (Option Nat) 9 := Vector.replicate 9 none
  alignFor : List Nat := []
  /-- the latest alignment record and duty digest sent -/
  sentRec : Option AlignRecord := none
  digest : Option Digest := none
  /-- a failed join, or the entry to DETACHED, since which TW_REJOIN_T runs; failures in succession (R569) -/
  waitAt : Option Nat := none
  fails : Nat := 0
  /-- uptime at which the present step of a join reaches its limit (R569); uptime of the latest read of the twin's role (R571) -/
  due : Nat := 0
  polledAt : Option Nat := none
  deriving DecidableEq, Repr

/-- The two-wire port (16_two_wire_port.md). -/
structure TwoWire where
  /-- what the device sent in the latest read: STAT, COUNT, data and PEC -/
  response : List Byte := []
  /-- RESULT, ABORT, IDX, SUB and TAG of the latest write (R625, R638) -/
  result : Nat := 3
  code : Nat := 0
  idx : Nat := 0
  sub : Nat := 0
  tag : Nat := 0
  /-- nothing is acknowledged until the next START or STOP (R619, R622, R626) -/
  deaf : Bool := false
  /-- alert messages that wait: event code, severity, sequence number (R634) -/
  alerts : List (Nat × Nat × Nat) := []
  /-- the address sampled at t0 equals TW_HOST_ADDR (R636) -/
  clash : Bool := false
  /-- the message at the head of the queue has failed once; retries made since (R632) -/
  failed : Bool := false
  tries : Nat := 0
  /-- uptime of the last bus activity, and of the STOP that has followed it; the delay drawn for the next retry, µs (R628, R632) -/
  busAt : Nat := 0
  stopAt : Option Nat := none
  delay : Nat := 0
  /-- messages sent, oldest first (R635) -/
  sent : List (List Byte) := []
  /-- events 0x0901 and 0x0902: uptime of the last record, occurrences since (R640) -/
  pecAt : Option Nat := none
  pecN : Nat := 0
  tmoAt : Option Nat := none
  tmoN : Nat := 0
  deriving DecidableEq, Repr

/-- The CAN FD port (17_can_fd_port.md). -/
structure Can where
  on : Bool := false
  /-- frames given to the bus, oldest first: function code and data -/
  tx : List (Nat × List Byte) := []
  /-- event frames that wait (R653): function code and data -/
  push : List (Nat × List Byte) := []
  /-- pushes have been lost since the previous push -/
  lost : Bool := false
  /-- count of heartbeats, and the uptime of the latest (R654) -/
  seq : Nat := 0
  hbAt : Option Nat := none
  /-- events 0x0914 and 0x0915: uptime of the last record (R645, R650) -/
  dupAt : Option Nat := none
  busyAt : Option Nat := none
  deriving DecidableEq, Repr

/-- The stream port and the memories behind it (18_stream_port.md). -/
structure Stream where
  /-- stream memory, 512 KiB: unlisted bytes read 0 (log entry 10) -/
  mem : List (Nat × Byte) := []
  /-- the device's phases of the latest frame: data, then the trailer (R660) -/
  response : List Byte := []
  /-- held high words: object address and value (R672); PWERR (R671); write frames reported -/
  high : List (Nat × Nat) := []
  pwerr : Bool := false
  frames : Nat := 0
  /-- event 0x0921: last record, mismatches since (R662) -/
  crcAt : Option Nat := none
  crcN : Nat := 0
  deriving DecidableEq, Repr

/-- A record that stands in a ring between CI and PI: its bytes, the uptime of its writing, and the number a gap marker
carries (R680). -/
structure RingRec where
  len : Nat
  at_ : Nat
  gap : Option Nat := none
  deriving DecidableEq, Repr

/-- A record that waits for its ring: TYPE and the words after the header (R686, R690). -/
structure RingItem where
  ty : Nat
  words : List Nat
  deriving DecidableEq, Repr

/-- One ring's internal state (R678 to R687). -/
structure Ring where
  /-- the unread records, oldest first -/
  recs : List RingRec := []
  /-- records lost since the last one written, owed to a gap marker -/
  gap : Nat := 0
  stopped : Bool := false
  /-- records produced, for SEQ (R680) -/
  count : Nat := 0
  held : List RingItem := []
  /-- event 0x0923 last recorded (R685) -/
  dropAt : Option Nat := none
  /-- a record has reached the age of TMO; in ring 0, the free space has risen to RING_CREDIT (R687) -/
  aged : Bool := false
  deriving DecidableEq, Repr

/-- Trace capture of one region (R732 to R738). -/
structure Trace where
  /-- the trace memory, in words: word index and word; unlisted words read 0 (log entry 10) -/
  mem : List (Nat × Nat) := []
  /-- ticks since the last frame, frames captured since ARM, frames still to capture after the trigger -/
  dec : Nat := 0
  total : Nat := 0
  left : Nat := 0
  /-- a trigger waits for the next frame; the trigger frame's number in capture order -/
  trig : Bool := false
  trigAt : Option Nat := none
  /-- the watched word, or count, of the previous frame -/
  prev : Option Int := none
  /-- trace blocks already unloaded (R737) -/
  sent : Nat := 0
  deriving DecidableEq, Repr

/-- What has been seen of a latch (R353, R735). -/
structure Seen where
  /-- the end of its input's last activity, µs of uptime (R353) -/
  till : Nat
  /-- how often it has been set (R735) -/
  sets : Nat
  deriving DecidableEq, Repr

/-- A topology that is being applied: the one recalled at start-up, until step 9 (R518), or that of an accepted commit (R98). -/
inductive Applying where
  | recall
  | commit
  deriving DecidableEq, Repr

/-- The chip's supervision (12_thermal.md, 13_startup.md). -/
structure Chip where
  /-- AON-NV powered; MAIN up; RST_N high -/
  aon : Bool := true
  main : Bool := true
  /-- a t0 has come since AON-NV rose (R779) -/
  released : Bool := true
  hkLock : Bool := true
  freeze : Bool := false
  /-- the values RO objects keep during freeze (R607) -/
  frozen : List (Nat × Int) := []
  /-- REF_CLK runs; the addresses sampled at t0 (R514); the slope code of the die sensors -/
  ref : Bool := true
  addr : Nat := 0
  nid : Nat := 0
  slope : Nat := 0
  /-- regions still to switch on, ascending, and the uptime of the latest switch-on (R52) -/
  rising : List Nat := []
  switchAt : Option Nat := none
  /-- what is being applied, whatever a later rejection has made of TOPO_STATUS (R96, R98, R518) -/
  applying : Option Applying := none
  /-- the share-bus schedule: per loop of several regions its crossing, ns (R43, R72) -/
  bus : List (Nat × Nat) := []
  /-- a region switched on by the latest commit or start-up has failed (R101, R519) -/
  failed : Bool := false
  /-- THERMTRIP_N is low; uptimes of the shutdowns, newest first; event 0x0301 waits for the CK0 path (R480) -/
  therm : Bool := false
  shutdowns : List Nat := []
  /-- uptime since which the restart conditions other than the latch have held (R486) -/
  coolAt : Option Nat := none
  tripDue : Bool := false
  /-- the central die sensor DTC -/
  sens : Sens := {}
  /-- the value of TW_PREF in force, taken at t0 (R600) -/
  pref : Nat := 0
  /-- the value of CAN_NID in force, taken at t0 (R600, R644) -/
  canNid : Nat := 0
  /-- antifuse slots of each etched object, newest first: the value, or none for an incomplete burn (R594 to R598) -/
  slots : List (Nat × List (Option Int)) := []
  /-- a burn is in progress, since this uptime (R597) -/
  etchAt : Option Nat := none
  deriving DecidableEq, Repr

/-- The machine. -/
structure State where
  /-- µs while AON-NV is powered (R717) -/
  uptime : Nat := 0
  /-- wall time, µs (R718) -/
  wall : Nat := 0
  /-- dictionary scalars -/
  dict : List (Nat × Int) := []
  /-- working copies of DOM and TAB objects (R41) -/
  blobs : List (Nat × List Byte) := []
  /-- latch inputs the environment judges active (R782), as latch numbers; and for each latch what has been seen of it -/
  inputs : List Nat := []
  seen : List (Nat × Seen) := []
  /-- position in the series of free values -/
  free : Nat := 0
  req : Vector Req 4 := Vector.replicate 4 {}
  plate : Plate := {}
  chip : Chip := {}
  loops : Vector Loop 8 := Vector.replicate 8 {}
  cells : Vector Cell 96 := Vector.replicate 96 {}
  blocks : Vector Block 24 := Vector.replicate 24 {}
  regions : Vector Region 8 := Vector.replicate 8 {}
  tree : Tree := {}
  fb : Fb := {}
  shape : Shape := {}
  aml : Vector Aml 2 := Vector.replicate 2 {}
  twin : Twin := {}
  tw : TwoWire := {}
  can : Can := {}
  sp : Stream := {}
  rings : Vector Ring 16 := Vector.replicate 16 {}
  traces : Vector Trace 8 := Vector.replicate 8 {}
  /-- the commands that wait, first in first out -/
  pending : List Instr := []
  deriving DecidableEq, Repr

/-- The device right after reset with an empty plate: every object at the value of its Default or Reset column, every
unit idle, no command waiting (R9, R711; log entry 11). -/
def State.reset : State := {}

/-- What a command answers. -/
abbrev Out := Host.Outcome State Fault Refusal

end Sys2Proof.Machine
end

