-- ==== Sys2Proof/Machine/Ops.lean ====
section
/-! DEFINITION. The named operations over the state: dictionary values, units, memories, rings and event records. -/

namespace Sys2Proof.Machine

/-! ### Dictionary values -/

/-- The value of a scalar object: the listed one, else the default. -/
def dval (d : List (Nat × Int)) (a : Addr) : Int := (lookupAt d a).getD (dflt a)

/-- The store after an object takes a value: a default is not listed. -/
def dput (d : List (Nat × Int)) (a : Addr) (v : Int) : List (Nat × Int) :=
  if v = dflt a then eraseAt d a else insertAt d a v

/-- The canonical form of the dictionary store: addresses strictly rising, no default listed. -/
def dictWf (d : List (Nat × Int)) : Bool := risingFrom 0 d && d.all fun e => decide (e.2 ≠ dflt e.1)

/-- The stored value of an object. -/
def State.get (s : State) (a : Addr) : Int := dval s.dict a

/-- The stored value of an object as a number. -/
def State.getN (s : State) (a : Addr) : Nat := (s.get a).toNat

/-- Bit b of an object's value. -/
def State.getB (s : State) (a : Addr) (b : Nat) : Bool := bit (s.getN a) b

/-- Whether an object is 1. -/
def State.isOn (s : State) (a : Addr) : Bool := s.get a == 1

/-- The plate page that holds a persisted object (R694): the persisted dictionary area, the lifetime counters, or the
vendor area for burnish results. Log entry 4. -/
def pageFor (r : Row) (a : Addr) : Nat :=
  if r.acc ≠ .ro ∨ r.addr / 256 = 0x2013 ∨ r.addr / 256 = 0x2014 ∨ r.addr / 256 = 0x2015 ∨ r.addr / 256 = 0x2017 then
    Config.pageOf a % 768
  else if r.addr / 256 = 0x400A ∨ r.addr / 256 = 0x3080 then 0xC00 + Config.pageOf a % 1024
  else 0xB00 + Config.pageOf a % 16

/-- The dirty bits of both banks after a write to a page (R699). -/
def Plate.touch (p : Plate) (page : Nat) : Plate :=
  { p with dirty0 := insertNat p.dirty0 page, dirty1 := insertNat p.dirty1 page }

/-- The plate after a scalar object is written: a persisted object dirties its page. -/
def touchFor (p : Plate) (a : Addr) : Plate :=
  match rowOf a with
  | some r => if r.plate then p.touch (pageFor r a) else p
  | none => p

/-- The state after an object takes a value. -/
def State.set (s : State) (a : Addr) (v : Int) : State :=
  { s with dict := dput s.dict a v, plate := touchFor s.plate a }

/-- The state after a number is written to an object. -/
def State.setN (s : State) (a : Addr) (v : Nat) : State := s.set a (v : Int)

/-- The state after a flag is written. -/
def State.setF (s : State) (a : Addr) (v : Bool) : State := s.set a (if v then 1 else 0)

/-- The state after bit b of an object is put. -/
def State.setBitAt (s : State) (a : Addr) (b : Nat) (v : Bool) : State := s.setN a (putBit (s.getN a) b v)

/-- Counters of 32 bits wrap. -/
def State.bump (s : State) (a : Addr) : State := s.setN a (wrapAdd 32 (s.getN a) 1)

/-- A 32-bit counter that takes n more counts. -/
def State.bumpBy (s : State) (a : Addr) (n : Nat) : State := s.setN a (wrapAdd 32 (s.getN a) n)

/-- Counters of 64 bits. -/
def State.bump64 (s : State) (a : Addr) (n : Nat) : State := s.setN a (wrapAdd 64 (s.getN a) n)

/-! ### Units -/

/-- The state after loop k is changed. -/
def State.modLoop (s : State) (k : LoopId) (f : Loop → Loop) : State :=
  { s with loops := s.loops.set k (f s.loops[k]) }
/-- The state after cell n is changed. -/
def State.modCell (s : State) (n : CellId) (f : Cell → Cell) : State :=
  { s with cells := s.cells.set n (f s.cells[n]) }
/-- The state after block b is changed. -/
def State.modBlock (s : State) (b : BlockId) (f : Block → Block) : State :=
  { s with blocks := s.blocks.set b (f s.blocks[b]) }
/-- The state after region r is changed. -/
def State.modRegion (s : State) (r : RegionId) (f : Region → Region) : State :=
  { s with regions := s.regions.set r (f s.regions[r]) }
/-- The state after port p is changed. -/
def State.modAml (s : State) (p : PortId) (f : Aml → Aml) : State :=
  { s with aml := s.aml.set p (f s.aml[p]) }
/-- The state after ring r is changed. -/
def State.modRing (s : State) (r : RingId) (f : Ring → Ring) : State :=
  { s with rings := s.rings.set r (f s.rings[r]) }
/-- The state after a region's trace is changed. -/
def State.modTrace (s : State) (r : RegionId) (f : Trace → Trace) : State :=
  { s with traces := s.traces.set r (f s.traces[r]) }

/-- The index of a requester, in the order of R39. -/
def rqIdx : Requester → Fin 4
  | .twoWire => 0 | .can => 1 | .stream => 2 | .twin => 3

/-- The state after a requester's record is changed. -/
def State.modReq (s : State) (q : Requester) (f : Req → Req) : State :=
  { s with req := s.req.set (rqIdx q) (f s.req[rqIdx q]) }

/-- A requester's record. -/
def State.rqOf (s : State) (q : Requester) : Req := s.req[rqIdx q]

/-- Apply an operation to every loop in turn. -/
def eachLoop (s : State) (f : State → LoopId → State) : State := (List.finRange 8).foldl f s
/-- Apply an operation to every cell in turn. -/
def eachCell (s : State) (f : State → CellId → State) : State := (List.finRange 96).foldl f s
/-- Apply an operation to every block in turn. -/
def eachBlock (s : State) (f : State → BlockId → State) : State := (List.finRange 24).foldl f s
/-- Apply an operation to every region in turn. -/
def eachRegion (s : State) (f : State → RegionId → State) : State := (List.finRange 8).foldl f s

/-- A number as a cell, if there is one. -/
def cellOf (n : Nat) : CellId := Fin.ofNat 96 n
/-- A number as a loop. -/
def loopOf (n : Nat) : LoopId := Fin.ofNat 8 n
/-- A number as a block. -/
def blockOf (n : Nat) : BlockId := Fin.ofNat 24 n
/-- A number as a region. -/
def regionOf (n : Nat) : RegionId := Fin.ofNat 8 n

/-- A time of silence has passed since an event's last record, if any. -/
def quietFor (last : Option Nat) (now gap : Nat) : Bool :=
  match last with
  | some u => decide (u + gap ≤ now)
  | none => true

/-- An interval of 1/`rate` has ended since the latest record: the intervals, `rate` in a millisecond, are counted on the axis of
uptime (R688; log entry 104). -/
def intervalDone (last : Option Nat) (now rate : Nat) : Bool :=
  match last with
  | some u => decide (u * rate / 1000 < now * rate / 1000)
  | none => true

/-! ### Rings (R678 to R687) -/

/-- Ring r is enabled. -/
def ringEn (s : State) (r : RingId) : Bool := s.getB (O.RING_CFG r) 13
/-- First byte of the ring's area in stream memory (R678). -/
def ringBase (s : State) (r : RingId) : Nat := bits (s.getN (O.RING_CFG r)) 0 9 * 1024
/-- Size of the ring, bytes (R678). -/
def ringSize (s : State) (r : RingId) : Nat := 1024 * 2 ^ bits (s.getN (O.RING_CFG r)) 9 4
/-- Bytes the ring holds (R679). -/
def ringUsed (s : State) (r : RingId) : Nat :=
  (s.getN (O.RING_PI r) + 2 ^ 32 - s.getN (O.RING_CI r)) % 2 ^ 32
/-- Bytes free in the ring (R679). -/
def ringFree (s : State) (r : RingId) : Nat := ringSize s r - ringUsed s r

/-- Stream memory after bytes are written at byte count `n` of a ring, wrapping at its end (R679). -/
def ringBytes (m : List (Nat × Byte)) (base size n : Nat) : List Byte → List (Nat × Byte)
  | [] => m
  | b :: bs => ringBytes (putByte m (base + n % size) b) base size (n + 1) bs

/-- A record's bytes: header and words (R680). -/
def ringWords (ty seq : Nat) (words : List Nat) : List Byte :=
  (leBytes 4 (ty + (words.length + 1) * 256 + seq % 65536 * 65536)) ++ words.flatMap (leBytes 4)

/-- The ring after a record of bytes is written at PI; PI advances once it is whole (R679). -/
def ringPut (s : State) (r : RingId) (bs : List Byte) (gap : Option Nat) : State :=
  let pi := s.getN (O.RING_PI r)
  let s := { s with sp := { s.sp with mem := ringBytes s.sp.mem (ringBase s r) (ringSize s r) pi bs } }
  let s := s.setN (O.RING_PI r) ((pi + bs.length) % 2 ^ 32)
  s.modRing r fun g => { g with recs := g.recs ++ [{ len := bs.length, at_ := s.uptime, gap := gap }] }

/-- The ring after a gap marker is written at PI (R680). -/
def ringGap (s : State) (r : RingId) : State :=
  let g := s.rings[r]
  let s := ringPut s r (ringWords 0x0F g.count [min g.gap 0xFFFFFFFF]) (some g.gap)
  s.modRing r fun g => { g with gap := 0, count := g.count + 1 }

/-- The ring after a record that fits is written, a gap marker before it where one is owed. -/
def ringWrite (s : State) (r : RingId) (i : RingItem) : State :=
  let s := if 0 < s.rings[r].gap then ringGap s r else s
  let s := ringPut s r (ringWords i.ty s.rings[r].count i.words) none
  s.modRing r fun g => { g with count := g.count + 1 }

/-- Bytes a record needs in the ring, with the gap marker it is owed. -/
def ringNeed (g : Ring) (i : RingItem) : Nat := 4 * (i.words.length + 1) + (if 0 < g.gap then 8 else 0)

/-- The oldest unread records that must go before `need` bytes are free, counting from `free`: their bytes, records and
the losses their gap markers carried (R685). -/
def dropOldest (need : Nat) : Nat → List RingRec → Nat × Nat × Nat × List RingRec
  | _, [] => (0, 0, 0, [])
  | free, c :: cs =>
    if need ≤ free then (0, 0, 0, c :: cs)
    else
      let (by_, n, g, rest) := dropOldest need (free + c.len) cs
      (by_ + c.len, (match c.gap with | none => n + 1 | some _ => n), (match c.gap with | none => g | some x => g + x), rest)

/-- A DROP-OLDEST ring makes room for a record and a gap marker (R685). -/
def ringDrop (s : State) (r : RingId) (need : Nat) : State :=
  let g := s.rings[r]
  let (by_, n, old, rest) := dropOldest (need + 8) (ringFree s r) g.recs
  if by_ = 0 then s
  else
    let ci := (s.getN (O.RING_CI r) + by_ + 2 ^ 32 - 8) % 2 ^ 32
    let mark := min (n + old + g.gap) 0xFFFFFFFF
    let bs := ringWords 0x0F g.count [mark]
    let s := { s with sp := { s.sp with mem := ringBytes s.sp.mem (ringBase s r) (ringSize s r) ci bs } }
    let s := (s.setN (O.RING_CI r) ci).bumpBy (O.RING_LOST r) n
    s.modRing r fun g =>
      { g with recs := { len := 8, at_ := s.uptime, gap := some mark } :: rest, gap := 0, count := g.count + 1 }

/-- What a ring asks to be recorded after a record was offered: an event code. -/
abbrev RingAsk := Option (Nat × Nat)

/-- A DROP-OLDEST ring has dropped records: event 0x0923 is asked for at most once in 10 ms (R685). -/
def dropNoted (s : State) (r : RingId) : State × RingAsk :=
  if quietFor s.rings[r].dropAt s.uptime 10000 then
    (s.modRing r fun g => { g with dropAt := some s.uptime }, some (0x0923, r.val))
  else (s, none)

/-- A device producer offers a record to a ring, under the ring's policy (R681, R685, R686, R690, R691). The answer
names an event to record: 0x0922 (ring stopped) or 0x0923 (records dropped, at most once in 10 ms). -/
def produce (s : State) (r : RingId) (i : RingItem) : State × RingAsk :=
  if !ringEn s r then (s, none)
  else if s.chip.freeze && decide (2 ≤ r.val) then
    if decide (4 ≤ r.val) && decide (r.val ≤ 13) then (s.modRing r fun g => { g with gap := g.gap + 1 }, none)
    else if r.val = 14 ∧ 512 ≤ s.rings[r].held.length then
      ((s.bump (O.RING_LOST r)).modRing r fun g => { g with gap := g.gap + 1 }, none)
    else (s.modRing r fun g => { g with held := g.held ++ [i] }, none)
  else if r.val = 2 ∨ r.val = 12 then
    if s.rings[r].stopped then ((s.bump (O.RING_LOST r)).modRing r fun g => { g with gap := g.gap + 1 }, none)
    else if ringNeed s.rings[r] i ≤ ringFree s r then (ringWrite s r i, none)
    else
      ((s.bump (O.RING_LOST r)).modRing r fun g => { g with gap := g.gap + 1, stopped := true }, some (0x0922, r.val))
  else if r.val = 14 then
    if s.rings[r].held.isEmpty && decide (ringNeed s.rings[r] i ≤ ringFree s r) then (ringWrite s r i, none)
    else if s.rings[r].held.length < 512 then (s.modRing r fun g => { g with held := g.held ++ [i] }, none)
    else ((s.bump (O.RING_LOST r)).modRing r fun g => { g with gap := g.gap + 1 }, none)
  else if r.val = 0 ∨ r.val = 1 then (ringWrite s r i, none)
  else
    if ringNeed s.rings[r] i ≤ ringFree s r then (ringWrite s r i, none)
    else dropNoted (ringWrite (ringDrop s r (4 * (i.words.length + 1))) r i) r

/-- A record offered to a ring by a producer that asks for no event of its own. -/
def offer (s : State) (r : RingId) (i : RingItem) : State := (produce s r i).1

/-! ### Event records (R722 to R731) -/

/-- Severity of an event code (R731). -/
def sevOf (code : Nat) : Nat :=
  if code ∈ [0x0101, 0x0104, 0x0120, 0x0130, 0x0132, 0x0116, 0x0408, 0x0441, 0x0501, 0x0509, 0x0601, 0x0607, 0x0701,
    0x0705, 0x0707, 0x0801, 0x0805, 0x0810, 0x0811] then 0
  else if code ∈ [0x0113, 0x0114, 0x0121, 0x0131, 0x0133, 0x0135, 0x0231, 0x0232, 0x0233, 0x0234, 0x0310, 0x0320,
    0x0401, 0x0402, 0x040A, 0x0422, 0x0424, 0x0430, 0x0439, 0x0442, 0x0460, 0x0462, 0x0502, 0x0503, 0x0604, 0x0608,
    0x0611, 0x0614, 0x0615, 0x0703, 0x0706, 0x0802, 0x0803, 0x0804, 0x0809, 0x0903, 0x0907, 0x0912, 0x0914] then 2
  else if code ∈ [0x0103, 0x0105, 0x0134, 0x0201, 0x0202, 0x0203, 0x0210, 0x0220, 0x0221, 0x0222, 0x0223, 0x0224,
    0x0225, 0x0228, 0x0229, 0x022A, 0x022B, 0x022C, 0x0242, 0x0243, 0x0301, 0x0303, 0x0322, 0x0404, 0x0406, 0x0407,
    0x040B, 0x0420, 0x0421, 0x0423, 0x0431, 0x0432, 0x0433, 0x0434, 0x0436, 0x0438, 0x0450, 0x0451, 0x0602, 0x0603,
    0x0612, 0x0613, 0x080A] then 3
  else 1

/-- UNIT_KIND and UNIT_NUM (R377). The kind and number of loop FB's number and of the device itself: log entry 12. -/
def unitCode : UnitId → Nat × Nat
  | .cell n => (1, n.val) | .block b => (2, b.val) | .loop k => (3, k.val) | .fb => (4, 0)
  | .channel f => (5, f.val) | .region r => (6, r.val) | .chip => (0, 0)

/-- Zeros up to a whole word (log entry 32). -/
def padWord (bs : List Byte) : List Byte := bs ++ List.replicate ((4 - bs.length % 4) % 4) 0

/-- The payload of a record that is not a root record (R723), cut at 224 bytes (R722; log entry 32). -/
def payloadOf (u : UnitId) (vals : List Byte) : List Byte :=
  (padWord ([BitVec.ofNat 8 (unitCode u).1, 0] ++ leBytes 2 (unitCode u).2 ++ vals)).take 224

/-- The bytes of a record (R722). -/
def recordBytes (r : Record) : List Byte :=
  leBytes 2 (32 + r.payload.length) ++ leBytes 2 r.code ++ leBytes 1 r.sev ++ leBytes 1 r.flags ++ [0, 0] ++
    leBytes 4 r.seq ++ leBytes 8 r.uptime ++ leBytes 8 (r.wall / 1000000) ++ leBytes 4 (r.wall % 1000000) ++ r.payload

/-- The words that bytes spell. -/
def wordsOf : List Byte → List Nat
  | a :: b :: c :: d :: rest => ofLe [a, b, c, d] :: wordsOf rest
  | [] => []
  | xs => [ofLe xs]

/-- Bytes a log holds. -/
def logBytes (l : List Record) : Nat := (l.map fun r => 32 + r.payload.length).sum

/-- Where the record after the present ones begins in the log area: a LOG-FULL record in the last 64 bytes (R725; log entry 28). -/
def logStart (l : List Record) (r : Record) : Nat := if r.code = 0x0809 then 524288 - 64 else logBytes l

/-- LOG_USED: the end of the last record. -/
def logUsed (l : List Record) : Nat :=
  match l.getLast? with
  | some r => logStart l.dropLast r + 32 + r.payload.length
  | none => 0

/-- The pages that bytes [lo, lo + n) of the log area lie in. -/
def logPages (lo n : Nat) : List Nat := (List.range ((lo + n - 1) / 256 - lo / 256 + 1)).map fun i => 0x300 + lo / 256 + i

/-- The plate with a record after the last of its log area, and the pages it lies in dirty (R699). -/
def Plate.keep (p : Plate) (r : Record) : Plate :=
  let q := (logPages (logStart p.log r) (32 + r.payload.length)).foldl Plate.touch p
  { q with log := p.log ++ [r] }

/-- The objects of the log area after a record is appended behind `used` bytes. -/
def logCounts (s : State) (used : Nat) (r : Record) : State :=
  (if used = 0 then s.setN O.LOG_FIRST_SEQ r.seq else s).setN O.LOG_USED (used + 32 + r.payload.length)

/-- Append a record to the log area. -/
def logAppend (s : State) (r : Record) : State :=
  logCounts { s with plate := s.plate.keep r } (logStart s.plate.log r) r

/-- A record of the state's moment. -/
def mkRecord (s : State) (code sev : Nat) (trunc : Bool) (payload : List Byte) : Record :=
  { code, sev, seq := s.plate.nextSeq, uptime := s.uptime, wall := s.wall, payload,
    flags := (if s.getB O.WALL_STAT 0 then 0 else 1) + (if s.getN O.TW_ROLE = 2 then 2 else 0) + (if trunc then 4 else 0) }

/-- The plate copy of a record: written, or refused by a full log, whose first refusal writes a LOG-FULL record (R725);
nothing is written while the recorder is at fault (R728). The LOG-FULL record takes the next sequence number. -/
def logRecord (s : State) (r : Record) : State × Bool :=
  if s.getB O.LOG_STAT 1 || s.getB O.LOG_STAT 2 then (s, false)
  else if s.getB O.LOG_STAT 0 then (s.bump O.LOG_REFUSED, false)
  else if logBytes s.plate.log + 32 + r.payload.length ≤ 524288 - 64 then (logAppend s r, false)
  else
    let s := (s.bump O.LOG_REFUSED).setBitAt O.LOG_STAT 0 true
    let f := { mkRecord s 0x0809 2 false (payloadOf .chip (leBytes 4 r.seq)) with seq := s.plate.nextSeq + 1 }
    (logAppend s f, true)

/-- Zeros up to the smallest CAN FD data length that holds the bytes (R647). -/
def padFd (bs : List Byte) : List Byte :=
  bs ++ List.replicate ((([0, 1, 2, 3, 4, 5, 6, 7, 8, 12, 16, 20, 24, 32, 48, 64].find? fun n => bs.length ≤ n).getD bs.length) - bs.length) 0

/-- The frame of R653: function code EVT3 to EVT0 by severity, and its bytes. -/
def pushFrame (r : Record) (lost : Bool) : Nat × List Byte :=
  (1 + (3 - r.sev), padFd <|
    leBytes 2 r.code ++ leBytes 1 r.sev ++ leBytes 1 ((if 36 < r.payload.length then 1 else 0) + (if lost then 2 else 0)) ++
    leBytes 4 r.seq ++ leBytes 8 r.uptime ++ leBytes 8 (r.wall / 1000000) ++ leBytes 4 (r.wall % 1000000) ++
    r.payload.take 36)

/-- The port can send: CAN_EN is 1, no bus-off (R652, R656). -/
def canUp (s : State) : Bool := s.isOn O.CAN_EN && s.can.on && !s.getB O.CAN_STAT 1

/-- The waiting event frames go to the bus when the port can send and no freeze holds them, lowest identifier first
(R647, R653). Log entry 13. -/
def canDrain (s : State) : State :=
  if canUp s && !s.chip.freeze then
    let by_ (f : Nat) := s.can.push.filter fun e => e.1 == f
    { s with can := { s.can with tx := s.can.tx ++ by_ 1 ++ by_ 2 ++ by_ 3 ++ by_ 4, push := [] } }
  else s

/-- A record is offered to the CAN FD push queue of 32 frames (R653). -/
def canPush (s : State) (r : Record) : State :=
  if s.getN O.CAN_PUSH_SEV ≤ r.sev then
    if s.can.push.length < 32 then
      canDrain { s with can := { s.can with push := s.can.push ++ [pushFrame r s.can.lost], lost := false } }
    else { s.bump O.PUSH_DROP_CNT with can := { s.can with lost := true } }
  else s

/-- A record is offered to the two-wire alert queue of 16 messages (R634, R636). The answer asks for event 0x0906 where the
queue is full. -/
def twAlert (s : State) (r : Record) : State × List (Nat × Nat) :=
  if s.getN O.TW_HOST_ADDR ≠ 0 ∧ !s.tw.clash ∧ s.getN O.TW_ALERT_SEV ≤ r.sev ∧ r.code ≠ 0x0906 ∧ r.code ≠ 0x0904 then
    if s.tw.alerts.length < 16 then
      ({ s with tw := { s.tw with alerts := s.tw.alerts ++ [(r.code, r.sev, r.seq)] } }, [])
    else (s.bump O.ALERT_DROP_CNT, [(0x0906, 0)])
  else (s, [])

/-- A record goes to the log and takes its sequence number (R725, R728). -/
def keepRecord (s : State) (r : Record) : State :=
  let (s, full) := logRecord s r
  let s := { s with plate := { s.plate with nextSeq := (r.seq + 1 + (if full then 1 else 0)) % 2 ^ 32 } }
  s.setN O.LOG_NEXT_SEQ s.plate.nextSeq

/-- A record goes to ring 2, from the severity of RING_OPT up (R693, R724). -/
def mirrorRecord (s : State) (r : Record) : State × RingAsk :=
  if s.getN (O.RING_OPT (2 : Nat)) % 4 ≤ r.sev then produce s 2 { ty := 3, words := wordsOf (recordBytes r) } else (s, none)

/-- A record is formed: it takes the next sequence number, goes to the log (R725, R728), to rings 2 and 3, to the CAN FD
push queue and to the two-wire alert queue (R724). The answer names what the rings and the log ask to be recorded. -/
def recordCore (s : State) (code sev : Nat) (trunc : Bool) (payload : List Byte) : State × List (Nat × Nat) :=
  let r := mkRecord s code sev trunc payload
  let a2 := mirrorRecord (keepRecord s r) r
  let a3 := produce a2.1 3 { ty := 4, words := [r.code + r.sev * 65536, r.seq] }
  let a6 := twAlert (canPush a3.1 r) r
  (a6.1, a2.2.toList ++ a3.2.toList ++ a6.2)

/-- The values of an event that a record causes: the ring of a ring event. -/
def askVals (a : Nat × Nat) : List Byte := if a.1 = 0x0906 then [] else leBytes 1 a.2

/-- A record with its payload, then the ring and queue events it causes (R634, R685, R686): these cause no further ones. -/
def recordRaw (s : State) (code sev : Nat) (trunc : Bool) (payload : List Byte) : State :=
  let (s, asks) := recordCore s code sev trunc payload
  asks.foldl (fun s a => (recordCore s a.1 (sevOf a.1) false (payloadOf .chip (askVals a))).1) s

/-- An event is recorded, with its unit and the values its rule names (R723). -/
def record (s : State) (code : Nat) (u : UnitId) (vals : List Byte := []) : State :=
  recordRaw s code (sevOf code) (decide (224 < (padWord vals).length + 4)) (payloadOf u vals)

/-- An event of a loop. -/
def recordLoop (s : State) (code : Nat) (k : LoopId) (vals : List Byte := []) : State := record s code (.loop k) vals

/-- A record offered to a ring, and the ring events it causes. -/
def offerAsk (s : State) (r : RingId) (i : RingItem) : State :=
  let (s, a) := produce s r i
  match a with
  | some (c, v) => record s c .chip (leBytes 1 v)
  | none => s

/-- A diagnostics record of a port with its counters (ring 15, R681; log entry 33). -/
def diag (s : State) (words : List Nat) : State := offerAsk s 15 { ty := 9, words := words }

/-! ### Free values -/

/-- The next free value of the series (log entry 5). -/
def State.draw (s : State) : Nat × State := (Config.freeNat s.free, { s with free := s.free + 1 })

/-! ### Numbers whose rounding no rule names (log entry 6) -/

/-- A quantity in Q8.24, limited to the format (R163). -/
def toQ (x : Rat) : Int :=
  let y := x * 16777216
  let v := if y.den = 1 then y.num else if Config.q824Up x then y.floor + 1 else y.floor
  clampI v (-2147483648) 2147483647

/-- The value of a Q8.24 number. -/
def ofQ (v : Int) : Rat := (v : Rat) / 16777216

/-- A current in 1/256 A (R120). -/
def toAmp (x : Rat) : Int :=
  let y := x * 256
  if y.den = 1 then y.num else if Config.currentUp x then y.floor + 1 else y.floor

/-- A reported quantity in whole steps. -/
def toStep (x : Rat) : Int := if x.den = 1 then x.num else if Config.reportUp x then x.floor + 1 else x.floor

end Sys2Proof.Machine
end

