-- ==== Sys2Proof/Machine/Operands.lean ====
section
/-! DEFINITION. What a command's unit numbers stand for: loops, blocks, cells, regions and their settings in force. -/

namespace Sys2Proof.Machine

/-! ### Topology (02_loop_topology.md) -/

/-- A topology: the loop of each block (255 unassigned), the master named for each loop (255 automatic), the channel mask. -/
structure Topo where
  blk : List Nat
  master : List Nat
  mask : Nat
  deriving DecidableEq, Repr

/-- The active topology. -/
def activeTopo (s : State) : Topo where
  blk := (List.range 24).map fun b => s.getN (O.BLK_LOOP b)
  master := (List.range 8).map fun k => s.getN (O.LOOP_MASTER k)
  mask := s.getN O.FB_MASK

/-- The staged topology (R92): a staging object holds a copy of its active counterpart until it is written. -/
def stagedTopo (s : State) : Topo where
  blk := (List.range 24).map fun b => s.getN (O.BLK_LOOP_STG b)
  master := (List.range 8).map fun k => s.getN (O.LOOP_MASTER_STG k)
  mask := s.getN O.FB_MASK_STG

/-- The blocks of a loop. -/
def Topo.blocks (t : Topo) (k : Nat) : List Nat := (List.range 24).filter fun b => t.blk.getD b 255 == k
/-- The regions that hold a loop. -/
def Topo.regions (t : Topo) (k : Nat) : List Nat := (List.range 8).filter fun r => (t.blocks k).any fun b => b / 3 == r
/-- The loops a region holds. -/
def Topo.held (t : Topo) (r : Nat) : List Nat := (List.range 8).filter fun k => (t.regions k).contains r
/-- The master region of a loop: the named one, or the lowest-numbered region that holds it (R93); 255 with no blocks. -/
def Topo.masterOf (t : Topo) (k : Nat) : Nat :=
  if (t.blocks k).isEmpty then 255
  else if t.master.getD k 255 = 255 then (t.regions k).headD 255 else t.master.getD k 255

/-- The law rate of a loop, samples per second (R72). -/
def Topo.rate (t : Topo) (k : Nat) : Nat :=
  let n := (t.regions k).length
  if n = 0 then 0
  else if n = 1 then
    let r := (t.regions k).headD 0
    if (t.held r).any (fun j => j != k && (t.regions j).length == 1) then 12500000 else 25000000
  else if n ≤ 4 then 20000000 else 16666667

/-- Share-bus crossing c of a loop, ns (R72). -/
def Topo.cross (t : Topo) (k : Nat) : Nat :=
  let n := (t.regions k).length
  if n ≤ 1 then 0 else if n ≤ 4 then 5 else 10

/-- Sample period T of a rate, ns (R72). -/
def periodOf (rate : Nat) : Nat :=
  if rate = 25000000 then 40 else if rate = 20000000 then 50 else if rate = 16666667 then 60
  else if rate = 12500000 then 80 else 0

/-- The loop a block belongs to, if any. -/
def loopOfBlock (s : State) (b : Nat) : Option LoopId :=
  let k := s.getN (O.BLK_LOOP b)
  if h : k < 8 then some ⟨k, h⟩ else none
/-- The loop a cell belongs to, if any. -/
def loopOfCell (s : State) (n : Nat) : Option LoopId := loopOfBlock s (n / 4)
/-- The blocks of a loop. -/
def blocksOf (s : State) (k : LoopId) : List Nat := (activeTopo s).blocks k
/-- The cells of a loop, ascending. -/
def cellsOf (s : State) (k : LoopId) : List Nat :=
  (blocksOf s k).flatMap fun b => [4 * b, 4 * b + 1, 4 * b + 2, 4 * b + 3]
/-- The regions of a loop. -/
def regionsOf (s : State) (k : LoopId) : List Nat := (activeTopo s).regions k
/-- The master region of a loop, 255 with no blocks. -/
def masterOf (s : State) (k : LoopId) : Nat := s.getN (O.LOOP_MASTER k)
/-- The follower regions of a loop (R67). -/
def followersOf (s : State) (k : LoopId) : List Nat := (regionsOf s k).filter fun r => r != masterOf s k
/-- The loops a region holds. -/
def heldBy (s : State) (r : Nat) : List Nat := (activeTopo s).held r
/-- Sample period T of a loop, ns. -/
def sampleNs (s : State) (k : LoopId) : Nat := periodOf (s.getN (O.LOOP_RATE k))
/-- The share-bus schedule of a topology: the crossing of every loop that spans several regions (R43, R72). -/
def Topo.schedule (t : Topo) : List (Nat × Nat) :=
  ((List.range 8).filter fun k => decide (1 < (t.regions k).length)).map fun k => (k, t.cross k)
/-- Crossing c of a loop, ns: that of the schedule in force, which the last commit, or start-up, computed (R43). -/
def crossNs (s : State) (k : LoopId) : Nat :=
  match s.chip.bus.find? fun e => e.1 == k.val with
  | some e => e.2
  | none => (activeTopo s).cross k
/-- The engine of the loop's region serves it alone (R71, R261). -/
def servedAlone (s : State) (k : LoopId) : Bool := s.getN (O.LOOP_RATE k) != 12500000 && s.getN (O.LOOP_RATE k) != 0

/-! ### Loop states (R383) -/

/-- LOOP_STATE of a loop. -/
def loopState (s : State) (k : LoopId) : Nat := s.getN (O.LOOP_STATE k)
/-- The codes of R383. -/
abbrev st.OFF : Nat := 0
abbrev st.ARMED : Nat := 1
abbrev st.RAMP : Nat := 2
abbrev st.REGULATE : Nat := 3
abbrev st.SOFTSTOP : Nat := 4
abbrev st.FAULT : Nat := 5
abbrev st.LATCHED : Nat := 6

/-- The loop is in RAMP, REGULATE or SOFTSTOP. -/
def running (s : State) (k : LoopId) : Bool :=
  let x := loopState s k
  x == 2 || x == 3 || x == 4
/-- The loop is OFF. -/
def isOff (s : State) (k : LoopId) : Bool := loopState s k == 0
/-- The loop is in FAULT or LATCHED. -/
def faulted (s : State) (k : LoopId) : Bool := loopState s k == 5 || loopState s k == 6

/-- FB_STATE (R451). -/
def fbState (s : State) : Nat := s.getN O.FB_STATE

/-- The twin role: 0 SOLO, 1 ACTIVE, 2 STANDBY, 3 JOINING, 4 DETACHED (R547). -/
def role (s : State) : Nat := s.getN O.TW_ROLE
/-- Start-up step n is complete (R515, R516): START_STEP holds the highest step completed (log entry 23). -/
def stepDone (s : State) (n : Nat) : State :=
  let s := if s.getN (O.START_T (n - 1)) = 0 then s.setN (O.START_T (n - 1)) (s.uptime % 2 ^ 32) else s
  s.setN O.START_STEP (max (s.getN O.START_STEP) n)

/-- The device shadows its twin: role STANDBY, or JOINING once join step 2 is complete (R548, R569). -/
def standby (s : State) : Bool := role s == 2 || (role s == 3 && decide (2 ≤ s.getN O.TW_JOIN_STEP))
/-- The device's role is STANDBY, JOINING or DETACHED (R548). -/
def passive (s : State) : Bool := decide (2 ≤ role s)
/-- The peer's READY, from its last heartbeat (R556). -/
def peerReady (s : State) : Bool := match s.twin.peer with | some h => h.ready | none => false
/-- An ACTIVE abdicates on a cause of TW_ABD_MASK bit b (R566, R573). -/
def abdicates (s : State) (b : Nat) : Bool := role s == 1 && peerReady s && s.getB O.TW_ABD_MASK b

/-- The loop is in OBSERVER-ONLY (R138). -/
def observing (s : State) (k : LoopId) : Bool := s.getN (O.VS_STATE k) == 3
/-- The loop is on the ground law (R204). -/
def grounded (s : State) (k : LoopId) : Bool := s.getB (O.ENG_FLAGS k) 1
/-- SK_STATE: 0 IDLE, 1 OPEN, 2 INKED, 3 ERASING. -/
def skState (s : State) (k : LoopId) : Nat := s.getN (O.SK_STATE k)

/-! ### Settings in force (R49, R50) -/

/-- A setting of a loop as the engine has it: in a loop that spans several regions, a value written is in force from its
effective sample (R50); in any other, from the next sample (R49). -/
def State.ef (s : State) (k : LoopId) (a : Addr) : Int :=
  match s.loops[k].ph.lag.find? fun e => e.1 == a with
  | some e => e.2.1
  | none => s.get a

/-- The same as a number. -/
def State.efN (s : State) (k : LoopId) (a : Addr) : Nat := (s.ef k a).toNat

/-- The sample from which a change made now is in force in a loop: the next one, or, in a loop that spans several regions,
one at least 2 samples after the write reaches the master, which sample the spec leaves open (R49, R50; log entry 5). -/
def State.effSample (s : State) (k : LoopId) : Nat × State :=
  if (regionsOf s k).length ≤ 1 then (s.loops[k].eng.sample + 1, s)
  else
    let (n, t) := s.draw
    (s.loops[k].eng.sample + 2 + n, t)

/-- A setting of a loop is about to change: a running loop that spans several regions keeps the old value until the
effective sample (R50). -/
def State.keepOld (s : State) (k : LoopId) (a : Addr) : State :=
  if running s k && decide (1 < (regionsOf s k).length) then
    let (n, t) := s.effSample k
    t.modLoop k fun l => { l with ph := { l.ph with lag := l.ph.lag ++ [(a, s.get a, n)] } }
  else s

/-! ### Periods, bands and thresholds -/

/-- PERIOD_CNT of a loop (R285). -/
def periodCnt (s : State) (k : LoopId) : Nat := s.getN (O.PERIOD_CNT k)
/-- PERIOD_CNT for a switching frequency in kHz, ties up (R285). -/
def periodFor (khz : Nat) : Nat := (2 * 2000000 + khz) / (2 * khz)

/-- PERIOD_CNT and FB_PERIOD_CNT follow FSW and FB_FSW, and LL_R_NOW of a loop in OFF follows LL_R, whatever has changed the settings
(R229, R285, R447). -/
def deriveSettings (s : State) : State :=
  eachLoop (s.setN O.FB_PERIOD_CNT (periodFor (s.getN O.FB_FSW))) fun s k =>
    let s := s.setN (O.PERIOD_CNT k) (periodFor (s.getN (O.FSW k)))
    if isOff s k then s.set (O.LL_R_NOW k) (s.get (O.LL_R k)) else s

/-! ### The two-wire bus (R628) -/

/-- The uptime since which the two-wire bus is free: that of a STOP seen since the last activity, or 50 µs after that activity; a bus
found stuck is not high (R628, R630; log entry 100). -/
def busFree (s : State) : Option Nat :=
  match s.tw.stopAt with
  | some u => some u
  | none => if !s.getB O.TW_PORT_STAT 0 && decide (s.tw.busAt + 50 ≤ s.uptime) then some (s.tw.busAt + 50) else none

/-- Activity on the bus without a STOP yet. -/
def busTaken (s : State) : State := { s with tw := { s.tw with busAt := s.uptime, stopAt := none } }
/-- A STOP ends what went on on the bus. -/
def busStopped (s : State) : State := { s with tw := { s.tw with busAt := s.uptime, stopAt := some s.uptime } }

/-! ### Period counters and deadlines -/

/-- The value of the period counter of a loop in a region at a time in counts of 500 ps (R284). -/
def counterAt (s : State) (k : LoopId) (r : RegionId) (t : Nat) : Nat :=
  (((t : Int) - s.loops[k].track[r].zero) % (periodCnt s k : Int)).toNat

/-- The sample deadline of the latest tick (R75, R187), and the latch of a confirmed duty (R262), in counts of 500 ps. -/
def deadlineOf (s : State) (k : LoopId) : Nat :=
  s.loops[k].eng.tick + 2 * (if s.getN (O.DL_MODE k) = 1 then 40 + 2 * crossNs s k else sampleNs s k)
def confirmOf (s : State) (k : LoopId) : Nat := s.loops[k].eng.tick + 2 * (18 + crossNs s k)

/-- The timing entry of a cell: its band's entry of the loop's in-use TIM_TAB (R234, R237). -/
def timEntry (s : State) (k : LoopId) (n : CellId) : Nat :=
  s.loops[k].eng.tim.getD (s.getN (O.IMON_BAND n)) 0x505028
/-- TON_MIN, TOFF_MIN and BLANK of an entry (R234). -/
def tonMin (e : Nat) : Nat := bits e 0 8
def toffMin (e : Nat) : Nat := bits e 8 8
def blankOf (e : Nat) : Nat := bits e 16 9
/-- DT_HL, DT_LH and FMIN_PULSE of a front-stage entry (R235). -/
def dtHl (e : Nat) : Nat := bits e 0 8
def dtLh (e : Nat) : Nat := bits e 8 8
def fminPulse (e : Nat) : Nat := bits e 16 8

/-- The effective peak and valley thresholds of a cell, A (R342). -/
def ocPkOf (s : State) (k : LoopId) (n : CellId) : Nat := min (s.getN (O.OCP_PK k)) (s.getN (O.CELL_IABS n))
def ocVlOf (s : State) (k : LoopId) (n : CellId) : Nat := min (s.getN (O.OCP_VL k)) (s.getN (O.CELL_IABS n))

/-- Current full scale of a loop: the sum of IMON_IFS over its active cells, A (R135). -/
def fullScale (s : State) (k : LoopId) : Nat :=
  (s.loops[k].ph.active.map fun n => s.getN (O.IMON_IFS (n / 4))).sum

/-! ### Output priorities (R15) -/

/-- The twin role is configured (R16, R521). -/
def twinCfg (s : State) : Bool := s.chip.pref != 0

/-- A latch that holds the cell at its safe state: OC_PK, OC_VL or OC_NEG, BFLT of its block, and IMON or READBACK once the
policy has acted (R340, R343). -/
def cellLatched (s : State) (n : Nat) : Bool :=
  s.getN (O.CELL_FLT n) % 8 != 0 || (s.getN (O.CELL_FLT n) != 0 && s.cells[(Fin.ofNat 96 n : CellId)].acted) ||
    s.getN (O.BLK_FLT (n / 4)) != 0

/-- A region is ready: powered up, self-test passed (R614). -/
def regionReady (s : State) (r : Nat) : Bool := s.getN (O.RG_STATE r) == 2
/-- The region's PLL has lock. -/
def pllLocked (s : State) (r : Nat) : Bool := s.getB (O.RG_FLAGS r) 0

/-- A cell is disabled by its own, its block's or its region's object (R306). -/
def cellDisabled (s : State) (n : Nat) : Bool :=
  s.isOn (O.CELL_DIS n) || s.isOn (O.BLK_DIS (n / 4)) || s.isOn (O.RG_PWM_DIS (n / 12))

/-- The highest-priority request of R15 below priority 1 present for a cell: 2 to 5, or 0 for none. -/
def cellHold (s : State) (n : Nat) : Nat :=
  if s.chip.therm then 2
  else if cellLatched s n || (match loopOfCell s n with | some k => faulted s k || s.getN (O.LOOP_FLT k) != 0 | none => false) ||
      (regionReady s (n / 12) && !pllLocked s (n / 12)) then 3
  else if cellDisabled s n then 4
  else if !regionReady s (n / 12) then 5
  else 0

/-- The highest-priority request of R15 present for a cell: 1 to 5, or 0 for none. Priority 1 is never present in SOLO (R16). -/
def cellReq (s : State) (n : Nat) : Nat :=
  if twinCfg s && role s != 0 && (!s.twin.token || !s.twin.wdOk) then 1 else cellHold s n

/-- The cell that a running burnish of the loop is measuring: the lowest of those still to measure (R524, R525). -/
def burnishCell (s : State) (k : LoopId) : Option Nat := s.loops[k].bur.cells.head?

/-- A burnish of the loop is running (R524). -/
def burning (s : State) (k : LoopId) : Bool := s.getN (O.BUR_STATE k) == 2

/-- The highest-priority request that keeps a cell from switching, 0 for none: a shadow runs its cells as if it held the token, its
outputs alone stay at priority 1 (R548, R557). -/
def cellStop (s : State) (n : Nat) : Nat := if standby s then cellHold s n else cellReq s n

/-- The start of the slot of the cell that is being measured, µs of uptime: 40 µs after tb, 20 µs a cell (R524). -/
def burnSlotAt (b : LoopBur) : Nat := b.tb + 40 + 20 * b.slots.length

/-- The four identification pulses of the slot, 500 ps: high for t_on, then low for 500 ns, then mid-level (R525). -/
def burnPulses (b : LoopBur) : List (Nat × Nat × Nat) :=
  [2, 6, 10, 14].map fun d => let r := (burnSlotAt b + d) * 2000; (r, r + b.ton, r + b.ton + 1000)

/-- The edges of the identification pulses of a cell in its slot; none for any other cell. -/
def burnEdges (s : State) (n : CellId) : List Nat :=
  match loopOfCell s n with
  | some k =>
    if burning s k && burnishCell s k == some n.val then (burnPulses s.loops[k].bur).flatMap fun e => [e.1, e.2.1] else []
  | none => []

/-- The level of a cell that is being burnished, at a time: high, low, or mid-level (R524, R525). -/
def burnLevel (s : State) (n : CellId) (t : Nat) : Option Bool :=
  match loopOfCell s n with
  | some k =>
    if burning s k && burnishCell s k == some n.val then
      ((burnPulses s.loops[k].bur).find? fun e => decide (e.1 ≤ t) && decide (t < e.2.2)).map fun e => decide (t < e.2.1)
    else none
  | none => none

/-- A cell excluded by burnish (R527, R529); at a start-up with BUR_MODE NONE no cell is (R532). -/
def excluded (s : State) (n : Nat) : Bool :=
  decide (0x10 ≤ s.getN (O.BUR_RES n)) && (match loopOfCell s n with | some k => !s.loops[k].bur.ignore | none => true)

/-- A cell in thermal hold (R499). -/
def heldCell (s : State) (n : Nat) : Bool := s.cells[cellOf n].held

/-- A cell is available (R252): not excluded by burnish and under no request of priority 1 to 5. -/
def available (s : State) (n : Nat) : Bool := !excluded s n && cellStop s n == 0

/-- n_avail of a loop (R252). -/
def nAvail (s : State) (k : LoopId) : Nat := ((cellsOf s k).filter fun n => available s n).length

/-- A cell would be available but for latches and the fault of its loop: no other request of R15 is present for it. -/
def availableClear (s : State) (n : Nat) : Bool :=
  !excluded s n && !cellDisabled s n && regionReady s (n / 12) && pllLocked s (n / 12) && !s.chip.therm &&
    (standby s || !(twinCfg s && role s != 0 && (!s.twin.token || !s.twin.wdOk)))

/-- The cells of a loop that the DISABLE input counts as available: the latches that a retry clears, and the FAULT that it
ends, do not count against it (R309, R782; log entry 14). -/
def nEnabled (s : State) (k : LoopId) : Nat := ((cellsOf s k).filter fun n => availableClear s n).length

/-- The loop's minimum phase count and phase ceiling. -/
def nMin (s : State) (k : LoopId) : Nat := s.getN (O.PH_MIN k)
def ceilOf (s : State) (k : LoopId) : Nat := s.getN (O.PH_CEIL k)
/-- The phase budget in force; one below the minimum phase count is applied as that (R328). -/
def budgetOf (s : State) (k : LoopId) : Nat := max (s.getN (O.PS_BUDGET k)) (nMin s k)

/-- The mid-level output of a cell, or high impedance where HIZ_ON_DIS of its block is 1 (R306, R307). -/
def midOut (s : State) (n : Nat) : Nat := if s.isOn (O.HIZ_ON_DIS (n / 4)) then 2 else 0

/-- The output of a cell under a request of R15 (R336): 0 mid-level, 1 switching, 2 high impedance, 3 low awaiting release, 4 held
low. -/
def outUnder (s : State) (n : CellId) (p : Nat) : Nat :=
  if p = 1 then 2
  else if p = 2 then 0
  else if p = 3 then (if s.cells[n].low then 4 else 0)
  else if p = 4 ∨ p = 5 then midOut s n
  else match loopOfCell s n with
    | none => midOut s n
    | some k =>
      if s.loops[k].ph.active.contains n.val && !s.cells[n].stopped then 1
      else if s.cells[n].shedding then (if s.cells[n].inPulse then 1 else 3)
      else if (burnLevel s n (s.uptime * 2000)).isSome then 1
      else midOut s n

/-- CELL_OUT of a cell (R336): output in [3:0], priority in force in [7:4]. -/
def cellOut (s : State) (n : CellId) : Nat := outUnder s n (cellReq s n) + 16 * cellReq s n

/-- What a cell does: its output, or that of the shadow cell in a STANDBY, which detects what the ACTIVE's cell meets (R341, R368,
R557). -/
def cellDoes (s : State) (n : CellId) : Nat := outUnder s n (cellStop s n)

/-! ### Add order and slot positions (R314, R315) -/

/-- Take one from each list in turn until all are empty. -/
def interleave (fuel : Nat) (ls : List (List Nat)) : List Nat :=
  match fuel with
  | 0 => []
  | f + 1 => ls.filterMap List.head? ++ interleave f ((ls.map List.tail).filter fun l => !l.isEmpty)

/-- The add order of a loop's cells (R315). -/
def addOrder (s : State) (k : LoopId) : List Nat :=
  if s.getN (O.PH_ORDER k) = 1 then cellsOf s k
  else
    let perBlock (b : Nat) := [4 * b, 4 * b + 1, 4 * b + 2, 4 * b + 3]
    let perRegion (r : Nat) := interleave 4 (((blocksOf s k).filter fun b => b / 3 == r).map perBlock)
    interleave 12 ((regionsOf s k).map perRegion)

/-- The active set in add order. -/
def ranked (s : State) (k : LoopId) (act : List Nat) : List Nat := (addOrder s k).filter fun n => act.contains n

/-- Slot position of rank r of n (R314). -/
def slotAt (period n r : Nat) : Nat := r * period / n

/-- Signed distance from q to q', in −P/2 < δ ≤ P/2 (R324). -/
def slotDelta (period q q' : Nat) : Int :=
  let d := ((q' : Int) - q) % (period : Int)
  if 2 * d ≤ period then d else d - period

/-- MISS_WIN: the misses of the present 1 ms interval of uptime and the nine before it (R196), up to 1,000. -/
def missWin (s : State) (k : LoopId) : Nat :=
  min 1000 ((s.loops[k].eng.bins.filter fun e => decide (s.uptime / 1000 < e.1 + 10)).map Prod.snd).sum

/-! ### Stipple sequence (R290) -/

/-- The cells that receive one extra count (R291). -/
def extraCells (n : Nat) (frac acc : Int) : Int := ((n : Int) * frac + acc + 128) / 256

/-- The stipple residual of a region with n active cells is cleared (R292); the extra counts of the command in force follow, so
that the residual of the next period stays within its bounds (R291; log entry 78). -/
def freshStipple (n : Nat) (t : Track) : Track := { t with acc := 0, pos := 0, k := extraCells n (t.duty % 256) 0 }

/-- b bits of a number reversed. -/
def revBits : Nat → Nat → Nat
  | 0, _ => 0
  | b + 1, v => v % 2 * 2 ^ b + revBits b (v / 2)

/-- The smallest b with 2^b not below n, up to 7. -/
def widthOf (n : Nat) : Nat := ((List.range 8).find? fun b => n ≤ 2 ^ b).getD 7

/-- The stipple sequence for n cells (R290). -/
def stippleSeq (n : Nat) : List Nat :=
  ((List.range (2 ^ widthOf n)).map fun v => revBits (widthOf n) v).filter fun v => v < n

end Sys2Proof.Machine
end

