-- ==== Sys2Proof/Machine/Flags.lean ====
section
/-! DEFINITION. The latch fields of the device and their inputs (R340, R352 to R356, R782). -/

namespace Sys2Proof.Machine

/-- A latch's object and bit. -/
def latchAt : LatchId → Addr × Nat
  | .loop k b => (O.LOOP_FLT k, b)
  | .cell n b => (O.CELL_FLT n, b)
  | .block b => (O.BLK_FLT b, 0)
  | .fb b => (O.FB_FLT, b)
  | .foc f => (O.FOC_FLT, f)
  | .restart => (O.TH_FLT, 0)

/-- A latch's number: object address × 16 + bit. -/
def latchNo (l : LatchId) : Nat := (latchAt l).1 * 16 + (latchAt l).2

/-- Whether a latch is set. -/
def latchSet (s : State) (l : LatchId) : Bool := s.getB (latchAt l).1 (latchAt l).2

/-- The environment judges the latch's input active (a comparator level, a pad, BFLT_N). -/
def envInput (s : State) (l : LatchId) : Bool := s.inputs.contains (latchNo l)

/-- Bus voltage y2 of loop k in mV, from the bus conversions (R122, R782). -/
def busMv (s : State) : Rat := s.fb.vbus * 1000

/-- The IMON condition over the latest conversions (R20, R116, R117). -/
def imonInput (s : State) (n : CellId) : Bool :=
  decide (16 ≤ s.cells[n].sat) || decide (16 ≤ s.cells[n].oor) || s.getN (O.IMREF_STAT (n / 4)) != 0 ||
    (decide (256 ≤ s.cells[n].same) && cellDoes s n == 1)

/-- The condition of R533: too few cells not excluded, or an exclusion under BUR_POLICY STOP. -/
def burnishBad (s : State) (k : LoopId) : Bool :=
  let left := (cellsOf s k).filter fun n => !excluded s n
  decide (left.length < nMin s k) || (s.getN (O.BUR_POLICY k) == 2 && decide (left.length < (cellsOf s k).length))

/-- The record of a sensor. -/
def sensOf (s : State) : Sensor → Sens
  | .tmon b => s.blocks[b].sens
  | .die r => s.regions[r].sens
  | .central => s.chip.sens

/-- A sensor's status object. -/
def sensStat : Sensor → Addr
  | .tmon b => O.TMON_STAT b | .die r => O.DIE_STAT r | .central => O.DTC_STAT

/-- A sensor has failed (R500): its status object shows it while its region is powered (R55). -/
def sensFailed (s : State) (x : Sensor) : Bool := (sensOf s x).failed

/-- A sensor has a reading in use. -/
def sensRead (s : State) (x : Sensor) : Bool :=
  (sensOf s x).seen && (match x with | .tmon b => regionReady s (b / 3) | _ => true)

/-- The die sensors. -/
def dieSensors : List Sensor := (List.finRange 8).map .die ++ [.central]

/-- Every sensor. -/
def allSensors : List Sensor := (List.finRange 24).map .tmon ++ dieSensors

/-- The limit of the rate of rise for shutdown, °C/ms (R491). -/
def rateLimit (s : State) : Sensor → Rat
  | .tmon _ => (s.getN O.TM_ROR_SD : Rat) / 10
  | _ => 8

/-- The restart conditions other than the latch (R485): die readings in use, TMON voltages with a reading, rates (log entry
72). -/
def coolEnough (s : State) : Bool :=
  allSensors.all fun x =>
    let v := sensOf s x
    (!sensRead s x ||
      (match x with
        | .tmon b => decide (s.get (O.TMON_MV b) < s.get O.TM_RS_MV)
        | _ => decide (v.use < 1000) && decide (v.use < (s.get O.TSD_DIE - 10) * 8))) &&
    (match v.rate with | some r => decide (r < rateLimit s x) | none => true)

/-- Since when they have held without interruption (R486). -/
def noteCool (s : State) : State :=
  { s with chip := { s.chip with coolAt := if coolEnough s then some (s.chip.coolAt.getD s.uptime) else none } }

/-- The channels of FB_MASK that no disable stops (R302, R309). -/
def fbEnabled (s : State) : List Nat :=
  (List.range 8).filter fun f => bit (s.getN O.FB_MASK) f && !bit (s.getN O.FCH_DIS) f

/-- The input of a latch field at this moment (R782). -/
def inputNow (s : State) (l : LatchId) : Bool :=
  match l with
  | .loop k b =>
    match b.val with
    | 0 => envInput s l
    | 1 => running s k && s.loops[k].sn.ovNow
    | 2 => running s k && s.loops[k].sn.uvNow
    | 3 => running s k && s.loops[k].sn.itNow
    | 4 => decide (busMv s < s.getN (O.VBUS_MIN_L k))
    | 5 => decide (busMv s > s.getN (O.VBUS_MAX_L k))
    | 8 => running s k && (decide (64 ≤ s.getN (O.MISS_CONSEC k)) || decide (1000 ≤ missWin s k) || (grounded s k && observing s k))
    | 9 => running s k && (followersOf s k).any fun r =>
        decide (64 ≤ s.loops[k].track[regionOf r].lateUp) || decide (64 ≤ s.loops[k].track[regionOf r].lateDown)
    | 10 => (masterOf s k != 255 && regionReady s (masterOf s k)) &&
        (followersOf s k).any fun r => !s.loops[k].track[regionOf r].lock
    | 11 => (regionsOf s k).any fun r => !pllLocked s r
    | 12 => running s k && s.loops[k].ctl.blindStop
    | 13 => !(cellsOf s k).isEmpty && decide (nEnabled s k < nMin s k)
    | 14 => s.getB (O.FBL_FLAGS k) 0 || s.getB (O.FBL_FLAGS k) 1
    | 15 => !(cellsOf s k).isEmpty && burnishBad s k
    | _ => false
  | .cell n b =>
    match b.val with
    | 3 => regionReady s (n / 12) && imonInput s n
    | 4 => envInput s l && cellDoes s n == 1
    | _ => regionReady s (n / 12) && envInput s l
  | .block _ => envInput s l
  | .fb b =>
    match b.val with
    | 0 => decide (busMv s > s.getN O.FB_OV)
    | 1 => fbState s == 3 && decide (busMv s < s.getN O.FB_UV)
    | 2 => envInput s l
    | 3 => decide (s.fb.vin * 1000 < s.getN O.VIN_UV)
    | _ => !s.fb.pll || (fbEnabled s).isEmpty
  | .foc _ => envInput s l
  | .restart => !coolEnough s

/-- The latches that hold loop k: its own, its cells', its blocks' (R359, R362). -/
def latchesOf (s : State) (k : LoopId) : List LatchId :=
  (([0, 1, 2, 3, 4, 5, 8, 9, 10, 11, 12, 13, 14, 15] : List (Fin 16)).map fun b => .loop k b) ++
    (cellsOf s k).flatMap (fun n => (List.finRange 5).map fun b => .cell (cellOf n) b) ++
    (blocksOf s k).map fun b => .block (blockOf b)

/-- The latches of loop FB. -/
def fbLatches : List LatchId := (List.finRange 5).map .fb ++ (List.finRange 8).map .foc

/-- Every latch field of the device. -/
def allLatches : List LatchId :=
  (List.finRange 8).flatMap (fun k =>
      ([0, 1, 2, 3, 4, 5, 8, 9, 10, 11, 12, 13, 14, 15] : List (Fin 16)).map fun b => .loop k b) ++
    (List.finRange 96).flatMap (fun n => (List.finRange 5).map fun b => .cell n b) ++
    (List.finRange 24).map .block ++ fbLatches ++ [.restart]

/-- The end of the last activity of a latch's input, µs of uptime, as far as it is known: the end of the microsecond in
which it was last seen active (log entry 15). -/
def lastActive (s : State) (l : LatchId) : Option Nat := (lookupAt s.seen (latchNo l)).map Seen.till

/-- How often a latch has been set. -/
def timesSet (s : State) (l : LatchId) : Nat := ((lookupAt s.seen (latchNo l)).map Seen.sets).getD 0

/-- A latch's input is seen active in the present microsecond, and the latch has been set so often. -/
def seeTimes (s : State) (l : LatchId) (times : Nat) : State :=
  { s with seen := insertAt s.seen (latchNo l) ⟨s.uptime + 1, times⟩ }

/-- A latch's input is seen active in the present microsecond. -/
def seeActive (s : State) (l : LatchId) : State := seeTimes s l (timesSet s l)

/-- The inputs of set latches that are active at this moment are seen (R353): a command that can change them sees them before
and after its change, so that no activity between two microseconds passes unseen. -/
def noteInputs (s : State) (ls : List LatchId) : State :=
  ls.foldl (fun s l => if latchSet s l && inputNow s l then seeActive s l else s) s

/-- The input has been inactive without interruption for 1 µs or longer (R353). -/
def inactiveLong (s : State) (l : LatchId) : Bool :=
  !inputNow s l && (match lastActive s l with
    | some u => decide (u + 1 ≤ s.uptime)
    | none => true)

/-- Time for which the input has been inactive, µs. -/
def inactiveFor (s : State) (l : LatchId) : Nat :=
  match lastActive s l with
  | some u => s.uptime - u
  | none => s.uptime

/-- A latch is set, its input being active at this moment. -/
def setLatch (s : State) (l : LatchId) : State :=
  seeTimes (s.setBitAt (latchAt l).1 (latchAt l).2 true) l (timesSet s l + b2n (!latchSet s l))

/-- A latch is cleared. -/
def clearLatch (s : State) (l : LatchId) : State :=
  let s := s.setBitAt (latchAt l).1 (latchAt l).2 false
  match l with
  | .cell n _ => if s.getN (O.CELL_FLT n) = 0 then s.modCell n fun c => { c with acted := false, shedBy := false } else s
  | .block b => [4 * b.val, 4 * b.val + 1, 4 * b.val + 2, 4 * b.val + 3].foldl (fun s n =>
      s.modCell (cellOf n) fun c => { c with shedWith := false }) s
  | _ => s

/-- A latch of the loop, of its cells or of its blocks is set. -/
def anyLatch (s : State) (k : LoopId) : Bool := (latchesOf s k).any fun l => latchSet s l

/-- The latch field a class sets for a loop (R379). CONTROL names its bit by its rule. -/
def loopBit : FaultClass → Fin 16
  | .ovpAbs => 0 | .ovpSet => 1 | .uvp => 2 | .itrip => 3 | .vbusLo => 4 | .vbusHi => 5 | _ => 8

/-- Class code of R340. -/
def classCode : FaultClass → Nat
  | .ocPk => 0x01 | .ocVl => 0x02 | .ocNeg => 0x03 | .imon => 0x04 | .readback => 0x05 | .bflt => 0x08
  | .ovpAbs => 0x10 | .ovpSet => 0x11 | .uvp => 0x12 | .itrip => 0x13 | .vbusLo => 0x14 | .vbusHi => 0x15
  | .control => 0x18 | .fbOv => 0x20 | .fbUv => 0x21 | .vinOv => 0x22 | .vinUv => 0x23 | .foc => 0x24 | .fbCtrl => 0x25

/-- The policy that POLICY or FB_POLICY gives a class: 0 HICCUP, 1 LATCH, 2 SHED (R340, R379, R382). -/
def policyOf (s : State) (k : LoopId) (c : FaultClass) : Nat :=
  let p := s.getN (O.POLICY k)
  match c with
  | .ocPk => bits p 0 2 | .ocVl => bits p 2 2 | .ocNeg => bits p 4 2 | .imon => bits p 6 2
  | .readback => bits p 8 2 | .bflt => bits p 10 2 | .ovpAbs => 1 | .ovpSet => bits p 12 2
  | .uvp => bits p 14 2 | .itrip => bits p 16 2 | .vbusLo => bits p 18 2 | .vbusHi => bits p 18 2
  | .control => bits p 20 2 | _ => 0

/-- The policy of a class of loop FB (R382). -/
def fbPolicyOf (s : State) (c : FaultClass) : Nat :=
  let p := s.getN O.FB_POLICY
  match c with
  | .fbOv => bits p 0 2 | .fbUv => bits p 2 2 | .vinOv => bits p 4 2 | .vinUv => bits p 6 2
  | .foc => bits p 8 2 | .fbCtrl => bits p 10 2 | _ => 0

/-- The more severe of two policies: LATCH, then HICCUP, then SHED (R358). -/
def sterner (a b : Nat) : Nat := if a = 1 ∨ b = 1 then 1 else if a = 0 ∨ b = 0 then 0 else 2

end Sys2Proof.Machine
end

