-- ==== Sys2Proof/Machine/Bank.lean ====
section
/-! DEFINITION. Coefficient banks: the image's layout, its checks, and the arithmetic of a matrix row
(R161 to R168, R172, R175). -/

namespace Sys2Proof.Machine

/-- Word i of an image (R164). -/
def wordAt (bs : List Byte) (i : Nat) : Nat := ofLe ((bs.drop (4 * i)).take 4)
/-- A coefficient or state of an image. -/
def coefAt (bs : List Byte) (i : Nat) : Int := signOf 32 (wordAt bs i)

/-- N_STATE, MEAS_MASK, U1_USED, IDX_INTEG, IDX_DIST of an image (R165). -/
def nState (bs : List Byte) : Nat := bits (wordAt bs 1) 0 4
def measMask (bs : List Byte) : Nat := bits (wordAt bs 1) 4 4
def u1Used (bs : List Byte) : Bool := bit (wordAt bs 1) 8
def idxInteg (bs : List Byte) : Nat := bits (wordAt bs 1) 12 4
def idxDist (bs : List Byte) : Nat := bits (wordAt bs 1) 16 4
/-- Exponents of an observer row, a C row and a K row (R165). -/
def expObs (bs : List Byte) (i : Nat) : Nat :=
  if i < 8 then bits (wordAt bs 4) (4 * i) 4 else bits (wordAt bs 5) (4 * (i - 8)) 4
def expC (bs : List Byte) (j : Nat) : Nat := bits (wordAt bs 5) (16 + 4 * j) 4
def expK (bs : List Byte) (m : Nat) : Nat := bits (wordAt bs 6) (4 * m) 4

/-- The exact accumulated sum of a row: products of Q4.28 and Q8.24 (R161). -/
def rowSum (bs : List Byte) (base stride : Nat) (xs : List Int) : Int :=
  ((List.range xs.length).map fun i => coefAt bs (base + stride * i) * xs.getD i 0).sum

/-- Nearest integer of n / d, ties away from zero (R162). -/
def roundAway (n : Int) (d : Nat) : Int :=
  if 0 ≤ n then (2 * n + d) / (2 * d) else -((-2 * n + d) / (2 * d))

/-- A row result in Q8.24: scaled by 2^E, rounded (R162) and saturated (R163), with the saturation flag. -/
def rowResult (sum : Int) (e : Nat) : Int × Bool :=
  let v := roundAway (sum * (2 ^ e : Nat)) 268435456
  (clampI v (-2147483648) 2147483647, decide (v < -2147483648) || decide (2147483647 < v))

/-- −K·x̂ of row m (R155). -/
def lawRow (bs : List Byte) (m : Nat) (x : List Int) : Int × Bool :=
  rowResult (-(rowSum bs (280 + 12 * m) 1 x)) (expK bs m)

/-- C·x̂ of row j. -/
def outRow (bs : List Byte) (j : Nat) (x : List Int) : Int × Bool :=
  rowResult (rowSum bs (232 + 12 * j) 1 x) (expC bs j)

/-- Observer row i: A·x̂ + B·ũ + L·e (R155, R162). -/
def obsRow (bs : List Byte) (i : Nat) (x u e : List Int) : Int × Bool :=
  rowResult (rowSum bs (16 + 12 * i) 1 x + rowSum bs (160 + 2 * i) 1 u + rowSum bs (184 + 4 * i) 1 e) (expObs bs i)

/-- The image's CRC matches (R166). -/
def bankCrcOk (bs : List Byte) : Bool := bs.length == 1280 && crc32 (bs.take 1276) == wordAt bs 319

/-- A reserved field of the header is not zero (R165). -/
def bankReserved (bs : List Byte) : Bool :=
  bits (wordAt bs 0) 0 8 != 0 || bits (wordAt bs 1) 9 3 != 0 || bits (wordAt bs 1) 20 12 != 0 ||
  bits (wordAt bs 3) 16 16 != 0 || bits (wordAt bs 6) 8 24 != 0 ||
  ((List.range 8).any fun i => wordAt bs (8 + i) != 0) || wordAt bs 318 != 0

/-- An entry that R167 requires to be zero is not. -/
def bankNonZero (bs : List Byte) : Bool :=
  let n := nState bs
  let idx12 := List.range 12
  let nz (w : Nat) := wordAt bs w != 0
  (idx12.any fun i => idx12.any fun j => (decide (n ≤ i) || decide (n ≤ j)) && nz (16 + 12 * i + j)) ||
  (idx12.any fun i => decide (n ≤ i) && (nz (160 + 2 * i) || nz (161 + 2 * i) || nz (280 + i) || nz (292 + i) ||
    nz (306 + i) || (List.range 4).any fun j => nz (184 + 4 * i + j))) ||
  ((List.range 4).any fun j => !bit (measMask bs) j &&
    (idx12.any fun i => nz (184 + 4 * i + j) || nz (232 + 12 * j + i))) ||
  (!u1Used bs && (nz 305 || idx12.any fun i => nz (161 + 2 * i) || nz (292 + i)))

/-- The checks 0x03 to 0x09 of R168: the code of the first that fails, 0 for none. -/
def bankCheck (bs : List Byte) : Nat :=
  if bs.length ≠ 1280 then 3
  else if !bankCrcOk bs then 4
  else if bits (wordAt bs 0) 16 16 ≠ 0xB412 ∨ bits (wordAt bs 0) 8 8 ≠ 1 then 5
  else if nState bs = 0 ∨ 12 < nState bs then 6
  else if (List.range 12).any (fun i => decide (8 < expObs bs i)) || (List.range 4).any (fun j => decide (8 < expC bs j)) ||
      decide (8 < expK bs 0) || decide (8 < expK bs 1) then 7
  else if (idxInteg bs ≠ 15 ∧ nState bs ≤ idxInteg bs) ∨ (idxDist bs ≠ 15 ∧ nState bs ≤ idxDist bs) then 8
  else if bankReserved bs || bankNonZero bs then 9
  else 0

/-- Abort code of a failing check (R168). -/
def bankAbort (c : Nat) : Nat :=
  match c with
  | 1 => 0xA032 | 2 => 0xA030 | 3 => 0xA021 | 4 => 0xA021 | 9 => 0xA022 | _ => 0xA020

/-- The stored image of bank m of loop k; empty when the bank holds none. -/
def bankImage (s : State) (k : LoopId) (m : Nat) : List Byte := (lookupAt s.blobs (O.BANK k m)).getD []

/-- BANK_STATE of bank m: 0 EMPTY, 1 LOADING, 2 VALID, 3 INVALID. -/
def bankState (s : State) (k : LoopId) (m : Nat) : Nat := bits (s.getN (O.BANK_STATE k)) (4 * m) 4

/-- The state after BANK_STATE of bank m is put. -/
def setBankState (s : State) (k : LoopId) (m v : Nat) : State :=
  let w := s.getN (O.BANK_STATE k)
  s.setN (O.BANK_STATE k) (w - bits w (4 * m) 4 * 2 ^ (4 * m) + v * 2 ^ (4 * m))

/-- The active bank, 255 for none. -/
def bankActive (s : State) (k : LoopId) : Nat := s.getN (O.BANK_ACTIVE k)

/-- The image of the active bank. -/
def activeImage (s : State) (k : LoopId) : List Byte := bankImage s k (bankActive s k)

/-- The windows of a bank (R178): phases and bus, V. -/
def phLo (s : State) (k : LoopId) (m : Nat) : Nat := bits (s.getN (O.BANK_SEL k m)) 0 8
def phHi (s : State) (k : LoopId) (m : Nat) : Nat := bits (s.getN (O.BANK_SEL k m)) 8 8
def vbLo (s : State) (k : LoopId) (m : Nat) : Rat := (bits (s.getN (O.BANK_SEL k m)) 16 8 : Rat) / 10
def vbHi (s : State) (k : LoopId) (m : Nat) : Rat := (bits (s.getN (O.BANK_SEL k m)) 24 8 : Rat) / 10

/-- The bus lies in a bank's bus window. -/
def busFits (s : State) (k : LoopId) (m : Nat) (v : Rat) : Bool := decide (vbLo s k m ≤ v) && decide (v ≤ vbHi s k m)

/-- The bank that steps 1 to 3 of R175 name at a bus voltage (log entry 54). -/
def bankNamed (s : State) (k : LoopId) (v : Rat) : Option Nat :=
  let f := s.getN (O.BANK_FORCE k)
  if f ≠ 255 ∧ bankState s k f = 2 then some f
  else
    let ok := (List.range 4).filter fun m => bankState s k m == 2 && phLo s k m != 0
    match ok.find? fun m => busFits s k m v with
    | some m => some m
    | none => ok.head?

/-- The bank a loop arms with; none where BANK_FORCE names a bank that is not VALID (R175; log entry 54). -/
def bankFor (s : State) (k : LoopId) (v : Rat) : Option Nat :=
  let f := s.getN (O.BANK_FORCE k)
  if f ≠ 255 ∧ bankState s k f ≠ 2 then none else bankNamed s k v

/-- BANK_TAG and BANK_CRC follow the stored image (R205). -/
def bankInfo (s : State) (k : LoopId) (m : Nat) (bs : List Byte) : State :=
  (s.setN (O.BANK_TAG k m) (wordAt bs 7)).setN (O.BANK_CRC k m) (wordAt bs 319)

/-- BANK_STATE of every bank of a loop rebuilt from its stored images (R172), with event 0x040A for each INVALID bank. -/
def rebuildBanks (s : State) (k : LoopId) : State :=
  (List.range 4).foldl (fun s m =>
    let bs := bankImage s k m
    if bs.isEmpty then setBankState s k m 0
    else if bankCrcOk bs then setBankState (bankInfo s k m bs) k m 2
    else recordLoop (setBankState (bankInfo s k m bs) k m 3) 0x040A k (leBytes 1 m)) s

/-- The bank switch of a loop (R183): the chain resets (R264), stipple residuals clear (R292), the count rises. -/
def switchBank (s : State) (k : LoopId) (m : Nat) : State :=
  let s := (s.setN (O.BANK_ACTIVE k) m).bump (O.BANK_SW_CNT k)
  s.modLoop k fun l =>
    { l with sk := { l.sk with reset := true, chain := [] },
             eng := { l.eng with eligible := [0, 0, 0, 0] },
             track := Vector.ofFn fun r : Fin 8 =>
               freshStipple (l.ph.active.filter fun n => n / 12 == r.val).length l.track[r] }

end Sys2Proof.Machine
end

