-- ==== Sys2Proof/Machine/Moves.lean ====
section
/-! DEFINITION. The shared transitions of the loops: the active set, the close of a sketch, arming, stopping, trips and
their reports (R175, R275, R314, R324, R371, R387, R391, R394). -/

namespace Sys2Proof.Machine

/-! ### Alerts to the load (R431) -/

/-- Bit b is set in the pending vector of slot i (a loop, or 8 for the port) of a port, where ALERT_MASK lets it. -/
def amlPend (s : State) (p : PortId) (i : Fin 9) (b : Nat) : State :=
  if s.getB (O.ALERT_MASK p) b then s.modAml p fun a => { a with alerts := a.alerts.set i (setBit a.alerts[i] b) } else s

/-- The port that owns a loop (OWN_MAP), AML0 first. -/
def ownerOf (s : State) (k : LoopId) : Option PortId :=
  if s.getB (O.OWN_MAP (0 : Nat)) k then some 0 else if s.getB (O.OWN_MAP (1 : Nat)) k then some 1 else none

/-- An alert of a loop to the port that owns it. -/
def amlAlert (s : State) (k : LoopId) (b : Nat) : State :=
  match ownerOf s k with
  | some p => amlPend s p ⟨k.val, by omega⟩ b
  | none => s

/-- PGOODn is pulled low (R406); a device in role STANDBY, JOINING or DETACHED never pulls it low (R407, R548). -/
def pgoodLow (s : State) (k : LoopId) : State :=
  if s.isOn (O.PG_STAT k) && !passive s then
    amlAlert ((s.setN (O.PG_STAT k) 0).modLoop k fun l => { l with ctl := { l.ctl with pgSince := none, pgOut := 0 } }) k 0
  else s.modLoop k fun l => { l with ctl := { l.ctl with pgSince := none, pgOut := 0 } }

/-! ### The active set (R314, R324 to R326) -/

/-- A cell takes its place among N: a cell that was active moves there by re-spacing from its present position, a new
one starts there (R324, R326). -/
def placeCell (s : State) (k : LoopId) (n : CellId) (was : Bool) (pos : Nat) : State :=
  if was then
    let q := s.getN (O.SLOT_POS n)
    s.modCell n fun c => { c with from_ := q, delta := slotDelta (periodCnt s k) q pos, steps := 0 }
  else
    (s.setN (O.SLOT_POS n) pos).modCell n fun c => { c with from_ := pos, delta := 0, steps := 8 }

/-- The stipple residual of every region whose active cells of the loop change is cleared (R292). -/
def clearStipple (t : Vector Track 8) (old new : List Nat) : Vector Track 8 :=
  Vector.ofFn fun r : Fin 8 =>
    let inR (l : List Nat) := l.filter fun n => n / 12 == r.val
    if inR old == inR new then t[r]
    else freshStipple (inR new).length t[r]

/-- The loop's active set takes the cells of `act`: the residual of each region it changes in is cleared. -/
def putActive (s : State) (k : LoopId) (act : List Nat) : State :=
  let new := (List.range 96).filter fun n => act.contains n
  s.modLoop k fun l =>
    { l with ph := { l.ph with active := new, wake := l.ph.wake.filter new.contains }, track := clearStipple l.track l.ph.active new }

/-- A cell leaves the set in force: one that switches waits low for its release (R320, R323). -/
def leaveCell (s : State) (n : CellId) : State :=
  s.modCell n fun c => { c with shedding := !c.stopped, waking := false, shedPeriods := 0 }

/-- A cell joins the set in force: one whose shed is in progress goes on at once (R329), any other waits for its wake request. -/
def joinCell (s : State) (n : CellId) : State :=
  s.modCell n fun c => { c with shedding := false, stopped := !c.shedding, inPulse := c.inPulse && c.shedding }

/-- The active set that the master has decided comes into force (R314, R318, R320): the cells that left it wait for their
release, those that join take their positions and wait for their wake requests, those that remain move by re-spacing (R324 to
R326). While staggered enabling lasts every cell keeps its position (R332; log entry 79). -/
def setActive (s : State) (k : LoopId) (act : List Nat) : State :=
  let old := s.loops[k].ph.active
  let order := ranked s k act
  let fresh := order.filter fun n => !old.contains n
  let asleep := fresh.filter fun n => !s.cells[cellOf n].shedding
  let still := s.loops[k].ph.enabling
  let s := (old.filter fun n => !act.contains n).foldl (fun s n => leaveCell s (cellOf n)) s
  let s := fresh.foldl (fun s n => joinCell s (cellOf n)) s
  let s := order.zipIdx.foldl (fun s e =>
    if still && old.contains e.1 then s
    else placeCell s k (cellOf e.1) (old.contains e.1) (slotAt (periodCnt s k) order.length e.2)) s
  let s := (putActive s k act).modLoop k fun l => { l with ph := { l.ph with plan := none, wake := l.ph.wake ++ asleep } }
  if still then s else s.setN (O.RESPACE k) (if order.any fun n => old.contains n then 8 else 0)

/-- The set that the master has decided: the one in force, or the one that comes into force next. -/
def planned (s : State) (k : LoopId) : List Nat :=
  match s.loops[k].ph.plan with
  | some p => p.act
  | none => s.loops[k].ph.active

/-- The master decides a change of the active set in the present sample (R327). -/
def decideChange (s : State) (k : LoopId) (c : Change) : State :=
  s.modLoop k fun l => { l with ph := { l.ph with changes := l.ph.changes ++ [c] } }

/-- A cell stops under a request of priority 1 to 5: a pulse in progress is cut, a shed is complete (R294, R330). -/
def stopCell (s : State) (n : CellId) : State :=
  s.modCell n fun c => { c with inPulse := false, stopped := true, waking := false, shedding := false, shedPeriods := 0 }

/-- Cells leave the active set at once under a request of priority 1 to 5 (R308, R327 order 1, R363); the positions of those
that remain follow as those of every change do (R314). -/
def removeCells (s : State) (k : LoopId) (ns : List Nat) : State :=
  let mine := ns.any fun n => s.loops[k].ph.active.contains n || (planned s k).contains n
  let s := ns.foldl (fun s n => stopCell s (cellOf n)) s
  if mine then
    let s := putActive s k (s.loops[k].ph.active.filter fun n => !ns.contains n)
    decideChange (s.modLoop k fun l =>
      { l with ph := { l.ph with plan := l.ph.plan.map fun p => { p with act := p.act.filter fun n => !ns.contains n } } }) k .removal
  else s

/-! ### The close of a sketch (R269, R273, R275) -/

/-- Mean of a list, 0 for none. -/
def meanR (l : List Rat) : Rat := if l.isEmpty then 0 else l.sum / l.length

/-- x̂ after an erase (R269): the integrator and the disturbance take their proof values with the drift. -/
def restoredX (s : State) (k : LoopId) (d : Rat) : List Int :=
  let l := s.loops[k]
  let img := activeImage s k
  let x := if idxInteg img < 12 then l.eng.x.set (idxInteg img) (toQ (ofQ l.sk.pI + ofQ (s.get (O.SK_DRIFT_KI k)) * d / 1000)) else l.eng.x
  if idxDist img < 12 then x.set (idxDist img) (toQ (ofQ l.sk.pD + d / 1000)) else x

/-- An open sketch is erased (R275) by a cause of R273; by the loss of its proof state with code 0 (R277), which leaves
SK_LAST_CLOSE, whose codes are those of R273. Both ũ0 of step 3 are computed on the estimate of the erasing sample before its
observer step, which the rule leaves open (log entry 83). -/
def sketchErase (s : State) (k : LoopId) (code : Nat) : State :=
  if skState s k ≠ 1 then s
  else
    let l := s.loops[k]
    let d := meanR l.sk.imeas - l.sk.iOpen
    let x := if l.sk.dead then l.eng.x else restoredX s k d
    let img := activeImage s k
    let gap := ofQ (lawRow img 0 l.eng.x).1 - ofQ (lawRow img 0 x).1
    let n := s.getN (O.SK_BLEND k)
    let blends := if grounded s k then [] else l.eng.blends ++ [⟨l.sk.term + gap, n, n⟩]
    let woken := l.sk.woken.filter fun c => (planned s k).contains c
    let s := s.set (O.SK_DRIFT_LAST k) (clampI (toAmp d) (-1048576) 1048576)
    let s := s.modLoop k fun l =>
      { l with eng := { l.eng with x := x, blends := blends },
               sk := { l.sk with headroom := 0, hold := none, biasTo := 0, term := 0, cancel := false, disabled := false,
                                 chain := [], reset := true, pending := none },
               ph := { l.ph with wake := l.ph.wake.filter fun n => !l.sk.woken.contains n
                                 changes := l.ph.changes.filter fun c => match c with | .wake _ => false | _ => true } }
    let s := s.setN (O.SK_STATE k) 3
    let s := if woken.isEmpty then s else decideChange s k (.cells woken.reverse)
    let s := (if code = 0 then s else s.setN (O.SK_LAST_CLOSE k) code).bump (O.SK_ERASE_CNT k)
    let s := if code = 0x10 then s.bump (O.SK_ERASE_EXP k)
      else if code = 0x11 ∨ code = 0x16 then s.bump (O.SK_ERASE_CANCEL k)
      else if code = 0x12 then amlAlert (recordLoop (s.bump (O.SK_ERASE_PROT k)) 0x0440 k) k 8
      else s
    if l.sk.dead then recordLoop s 0x0442 k else s

/-- The sketch of a loop that leaves REGULATE (R279, the table of states): an open one is erased, any other ends. -/
def sketchEnd (s : State) (k : LoopId) (code : Nat) : State :=
  let s := sketchErase s k code
  (s.setN (O.SK_STATE k) 0).modLoop k fun l =>
    { l with sk := { l.sk with pending := none, headroom := 0, hold := none, bias := 0, biasTo := 0, term := 0, woken := [],
                               cancel := false, disabled := false, chain := [], reset := true } }

/-- A notice is in preparation: SK_BIAS_NOW, SK_NWOKEN and SK_CHAIN of a sketch (R282) are read from the state. -/
def skChain (s : State) (k : LoopId) : Nat := s.loops[k].sk.chain.length + (if s.loops[k].sk.avail then 8 else 0)

/-! ### Throttling and the current limit (R370, R494 to R497, R503) -/

/-- A failed sensor of the loop has no valid neighbour (R503). -/
def aloneIn (s : State) (k : LoopId) : Bool :=
  s.chip.sens.alone || (blocksOf s k).any (fun b => s.blocks[blockOf b].sens.alone) ||
    (regionsOf s k).any fun r => s.regions[regionOf r].sens.alone

/-- TH_FACTOR of a level (R495, R496, R503). -/
def thFactorOf (s : State) (k : LoopId) (level : Nat) : Nat :=
  let f := 4096 * (20 - (level - s.getN (O.TH_BUD_LVLS k))) / 20
  if aloneIn s k then min 2048 f else f

/-- TH_BUDGET of a level (R495, R496). -/
def thBudgetOf (s : State) (k : LoopId) (level : Nat) : Nat :=
  if level = 0 then 0 else s.getN (O.ILIM_TOT k) * max 8 (20 - level) / 20

/-- ILIM_SCALE in force: of the thermal factor in force at the sample (R49, R50, R370, R495). -/
def ilimNow (s : State) (k : LoopId) : Nat := s.loops[k].sn.limit * s.efN k (O.TH_FACTOR k) / 100

/-- ILIM_SCALE: the OBSERVER-ONLY factor and the thermal factor, truncated once (R370). -/
def ilimRefresh (s : State) (k : LoopId) : State :=
  let v := s.loops[k].sn.limit * s.getN (O.TH_FACTOR k) / 100
  let t := s.setN (O.ILIM_SCALE k) v
  if v < 4096 ∧ 4096 ≤ s.getN (O.ILIM_SCALE k) then amlAlert t k 6 else t

/-- A loop takes a throttle level: TH_LEVEL, TH_FACTOR, TH_BUDGET, ILIM_SCALE (R495, R496). -/
def putLevel (s : State) (k : LoopId) (level : Nat) : State :=
  let s := (s.setN (O.TH_LEVEL k) level).setN (O.TH_FACTOR k) (thFactorOf s k level)
  ilimRefresh (s.setN (O.TH_BUDGET k) (thBudgetOf s k level)) k

/-- The factors of a loop's level are about to change: they act at the sample boundary of R49 or R50 (R495). -/
def keepFactors (s : State) (k : LoopId) (level : Nat) : State :=
  if thFactorOf s k level = s.getN (O.TH_FACTOR k) ∧ thBudgetOf s k level = s.getN (O.TH_BUDGET k) then s
  else (s.keepOld k (O.TH_FACTOR k)).keepOld k (O.TH_BUDGET k)

/-- The factors of the loop's level are formed afresh (R496, R503, R509). -/
def levelAgain (s : State) (k : LoopId) : State :=
  let v := s.getN (O.TH_LEVEL k)
  if thFactorOf s k v = s.getN (O.TH_FACTOR k) ∧ thBudgetOf s k v = s.getN (O.TH_BUDGET k) then s
  else putLevel (keepFactors s k v) k v

/-- The level becomes 0 as the loop stops (R494, R497). -/
def thermQuiet (s : State) (k : LoopId) : State :=
  let was := s.getN (O.TH_LEVEL k)
  let s := (putLevel s k 0).modLoop k fun l => { l with th := { l.th with tUp := 0, tDn := 0, swapAt := none } }
  if was = 0 then s else recordLoop s 0x0312 k

/-! ### Stopping a loop -/

/-- Everything that ends when a loop leaves RAMP, REGULATE and SOFTSTOP: the sketch, the active set, the ground law,
OBSERVER-ONLY, PGOOD (R138, R192, R198, R279, R406). -/
def loopQuiet (s : State) (k : LoopId) (code : Nat) : State :=
  let s := sketchEnd s k code
  let s := (cellsOf s k).foldl (fun s n => stopCell s (cellOf n)) s
  let s := pgoodLow s k
  let s := (s.setN (O.RESPACE k) 0).setN (O.MISS_CONSEC k) 0
  let s := s.setBitAt (O.ENG_FLAGS k) 1 false
  let s := if observing s k then
      (s.setN (O.VS_STATE k) (if s.getN (O.VS_SRC_SEL k) = 1 then 2 else 0)).modLoop k fun l =>
        { l with sn := { l.sn with limit := 100, restoring := false } }
    else s
  let f := s.getN (O.FBL_FLAGS k)
  let s := thermQuiet (s.setN (O.FBL_FLAGS k) (f - bits f 2 3 * 4)) k
  s.modLoop k fun l =>
    { l with
      ph := { l.ph with active := [], changes := [], plan := none, enabling := false, started := [], turns := 0, gap := 0, wake := [],
                        addAt := none, shedAt := none }
      eng := { l.eng with result := none, blends := [], past := [], back := false, gFirst := false, noBank := false, overrun := false, late := false,
                          confirmed := false, eligible := [0, 0, 0, 0], missAt := none, force := none, redo := none, runNoted := false }
      sn := { l.sn with good := 0, satRun := 0, divV := 0, divI := 0, frz := [], ovSet := 0,
                        uvSince := none, itSince := none, busLo := 0, busHi := 0, ovNow := false, uvNow := false,
                        itNow := false, fresh := false, lossOpen := false, srcNext := none }
      ctl := { l.ctl with ending := false, blindStop := false }
      sp := { l.sp with slew := 0, lostAt := none, safe := false, stay := none }
      track := l.track.map fun t => { t with lateUp := 0, lateDown := 0, acc := 0, pos := 0, k := 0, up := none, down := none } }

/-- VLS_OFFSET is marked invalid, and learning starts afresh (R110, R111). -/
def offsetInvalid (s : State) (k : LoopId) : State :=
  (s.setBitAt (O.FBL_FLAGS k) 5 false).modLoop k fun l => { l with sn := { l.sn with updates := 0, learnSum := 0, learnN := 0 } }

/-- The on-request of a loop (R384, R386; log entry 59). -/
def onRequest (s : State) (k : LoopId) : Bool :=
  let c := s.loops[k].ctl
  match s.getN (O.ON_SRC k) with
  | 0 => s.isOn (O.LOOP_REQ k)
  | 1 => c.en && !c.inhibit
  | _ => s.isOn (O.LOOP_REQ k) && c.en

/-- A source of a loop is lost: the bits of SRC_STAT (R401). -/
def srcLost (s : State) (k : LoopId) (src : Nat) : Bool := s.getB (O.SRC_STAT k) src

/-- The set-point of a loop whose source is lost holds from now on, with event 0x0113 (R402). -/
def holdLost (s : State) (k : LoopId) : State :=
  recordLoop (s.modLoop k fun l => { l with sp := { l.sp with lostAt := some s.uptime } }) 0x0113 k

/-- The first reason of R387 that refuses the loop's arming, 0 for none. -/
def armReason (s : State) (k : LoopId) : Nat :=
  if passive s then 1
  else if (blocksOf s k).isEmpty then 2
  else if s.loops[k].ctl.affected ||
      (regionsOf s k).any (fun r => !s.getB O.REGION_AVAIL r) then 3
  else if (bankFor s k s.fb.vbus).isNone then 4
  else if s.getN (O.SP_SRC k) ≠ 0 ∧ srcLost s k (s.getN (O.SP_SRC k)) then 5
  else if s.chip.therm || latchSet s .restart then 6
  else 0

/-- A running burnish of a loop is abandoned (R537): one of the start-up may begin again; after a second one it is not
possible (R523). -/
def burnishAbandon (s : State) (k : LoopId) : State :=
  if burning s k then
    let b := s.loops[k].bur
    let n := if b.byCmd then b.given else b.given + 1
    let s := s.modLoop k fun l => { l with bur := { l.bur with cells := [], slots := [], before := [], given := n } }
    let s := recordLoop (s.setN (O.BUR_STATE k) 6) 0x0135 k
    if !b.byCmd && decide (2 ≤ n) then recordLoop (s.setN (O.BUR_STATE k) 5) 0x0133 k else s
  else s

/-- The loop enters FAULT; its retry ticks run from the entry (R359). -/
def toFault (s : State) (k : LoopId) (code : Nat) : State :=
  amlAlert (((loopQuiet s k code).setN (O.LOOP_STATE k) 5).modLoop k fun l => { l with ctl := { l.ctl with retryAt := s.uptime } }) k 1

/-- The loop enters LATCHED. -/
def toLatched (s : State) (k : LoopId) (code : Nat) : State := amlAlert ((loopQuiet s k code).setN (O.LOOP_STATE k) 6) k 2

/-- A trip's HICCUP or LATCH takes the loop to FAULT or LATCHED (R359, R360, R362, R394): 0 HICCUP, 1 LATCH. A loop in
OFF, or already in LATCHED, keeps its state; a device in role STANDBY never enters them (R368). -/
def stopBy (s : State) (k : LoopId) (pol : Nat) : State :=
  let st := loopState s k
  if standby s ∨ st = 0 ∨ st = 6 then s
  else if pol = 1 then toLatched s k 0x12
  else if s.getN (O.RETRY_LEFT k) = 0 then recordLoop (toLatched s k 0x12) 0x0242 k
  else if st = 5 then s
  else toFault s k 0x12

/-! ### Reports (R28, R371) -/

/-- The collector a detector reports to: a cell or a block to its block's, a loop to its master region's, loop FB and a
channel to the chip's. -/
def firstCollector (s : State) : UnitId → CollectorId
  | .cell n => .block ⟨n.val / 4, by omega⟩
  | .block b => .block b
  | .loop k => .region (regionOf (masterOf s k))
  | .region r => .region r
  | _ => .chip

/-- A report enters the hatching tree (R20, R371; log entry 58), with the values that the rule of its event names (log entry
81). -/
def report (s : State) (cls : FaultClass) (lp : LoopOrFb) (u : UnitId) (event : Nat) (vals : List Byte := []) : State :=
  { s with tree := { s.tree with flight := s.tree.flight ++
    [{ to_ := firstCollector s u, from_ := none, cause := ⟨cls, lp⟩, summary := false, unit := u, event := event, vals := vals,
       cells := match u with
         | .cell n => [n.val]
         | .block b => [4 * b.val, 4 * b.val + 1, 4 * b.val + 2, 4 * b.val + 3]
         | _ => []
       blocks := match u with | .block b => [b.val] | _ => []
       regions := match u with | .region r => [r.val] | _ => [] }] } }

/-- A trip waits for the policy of its class at the master's next sample boundary (R357, R358). -/
def tripWaits (s : State) (k : LoopId) (pol : Nat) : State :=
  s.modLoop k fun l => { l with ctl := { l.ctl with trip := some (match l.ctl.trip with | some p => sterner p pol | none => pol) } }

/-- A rule of class CONTROL acts on a loop outside OFF (R394): its latch is set, the report enters the tree with the rule's
event, and the loop goes to FAULT or LATCHED by P_CONTROL; an ACTIVE that abdicates on it waits for POLICY_APPLY (R566; log
entry 58). -/
def controlTrip (s : State) (k : LoopId) (b : Fin 16) (event : Option Nat) (u : UnitId) (vals : List Byte := []) : State :=
  if isOff s k then s
  else
    let s := (setLatch s (.loop k b)).bump (O.TRIP_CNT k)
    let s := match event with
      | some e => report s .control (.loop k) u e vals
      | none => s
    if abdicates s 0 then tripWaits { s with twin := { s.twin with abdDue := true } } k (policyOf s k .control)
    else stopBy s k (policyOf s k .control)

/-! ### Arming (R175, R387) and the return to OFF -/

/-- The loop enters ARMED: a bank becomes active, calibrations and pre-bias start, RETRY_LEFT is loaded where the loop
leaves OFF (R126, R127, R175, R361); a source in use that is lost already holds the set-point (R402; log entry 47); the burnish
rule of R533 may stop the loop at once. -/
def enterArmed (s : State) (k : LoopId) (m : Nat) : State :=
  let s := if isOff s k then s.set (O.RETRY_LEFT k) (s.get (O.RETRY_N k)) else s
  let s := (s.setN (O.LOOP_STATE k) 1).setN (O.BANK_ACTIVE k) m
  let s := (cellsOf s k).foldl (fun s n => s.modCell (cellOf n) fun c => { c with zeroDone := false, low := false }) s
  let s := s.modLoop k fun l =>
    { l with ctl := { l.ctl with armedAt := s.uptime, armedNoted := false, armedSamples := 0, winZero := false, preDone := false,
                                 vPre := 0, trip := none, safeLow := false, refused := false } }
  let s := if srcLost s k (s.getN (O.SP_SRC k)) then holdLost s k else s
  if burnishBad s k then controlTrip s k 15 (some 0x0134) (.loop k) else s

/-- The loop's on-request meets the checks of R387: it enters ARMED, or the refusal is recorded once per appearance of
the on-request. The reason is answered. -/
def tryArm (s : State) (k : LoopId) : State × Nat :=
  let s := if onRequest s k && s.loops[k].bur.byCmd then burnishAbandon s k else s
  let r := armReason s k
  if r = 0 then (enterArmed s k ((bankFor s k s.fb.vbus).getD 0), 0)
  else if s.loops[k].ctl.refused then (s, r)
  else
    let s := if r = 4 then recordLoop s 0x0401 k else s
    let s := recordLoop s 0x0111 k (leBytes 1 r)
    (s.modLoop k fun l => { l with ctl := { l.ctl with refused := true } }, r)

/-- The checks of R387 run for a loop that is OFF with its on-request present. -/
def rearm (s : State) (k : LoopId) : State :=
  if isOff s k && onRequest s k then (tryArm s k).1 else s

/-- The checks of R387 run again after a condition they list has changed. -/
def rearmAll (s : State) : State := eachLoop s rearm

/-- The loop enters OFF (R175, R192, R229, R391); an on-request still present then takes effect by R387 (R393). -/
def enterOff (s : State) (k : LoopId) : State :=
  let s := loopQuiet s k 0x15
  let s := (s.setN (O.LOOP_STATE k) 0).setN (O.BANK_ACTIVE k) 255
  let s := s.set (O.LL_R_NOW k) (s.get (O.LL_R k))
  let s := offsetInvalid s k
  let s := if s.getN (O.VS_STATE k) = 1 then recordLoop (s.setN (O.VS_STATE k) 0) 0x0437 k else s
  let s := (cellsOf s k).foldl (fun s n => s.modCell (cellOf n) fun c => { c with low := false, held := false }) s
  let s := s.modLoop k fun l => { l with ctl := { l.ctl with trip := none, safeLow := false }, ph := { l.ph with lag := [] } }
  rearm s k

/-- The soft-stop's last cell has been released (R145, R392): OFF, or FAULT by the latch BLIND where BLIND_MAX caused it.
A STANDBY's loop follows its ACTIVE's states (R559). -/
def softstopDone (s : State) (k : LoopId) : State :=
  if standby s then s
  else if s.loops[k].ctl.blindStop then controlTrip s k 12 none (.loop k) else enterOff s k

/-- No cell of the loop is active or waits for release. -/
def noneLeft (s : State) (k : LoopId) : Bool :=
  s.loops[k].ph.active.isEmpty && (cellsOf s k).all fun n => !s.cells[cellOf n].shedding

/-- The last cell of an ending soft-stop has been released, or was removed while it waited (R330, R392). -/
def shedsDone (s : State) (k : LoopId) : State :=
  if s.loops[k].ctl.ending && loopState s k == 4 && noneLeft s k then softstopDone s k else s

/-- A sketch that is INKED or ERASING ends, its bias at 0, as the loop leaves REGULATE (the table of states); an open one is
erased by R273. -/
def sketchLeave (s : State) (k : LoopId) : State :=
  if skState s k = 1 ∨ skState s k = 0 then s
  else (s.setN (O.SK_STATE k) 0).modLoop k fun l =>
    { l with sk := { l.sk with headroom := 0, hold := none, bias := 0, biasTo := 0, term := 0, woken := [], chain := [], reset := true } }

/-- The loop enters SOFTSTOP (R391, R392). -/
def enterSoftstop (s : State) (k : LoopId) : State :=
  let s := sketchLeave s k
  pgoodLow ((s.setN (O.LOOP_STATE k) 4).modLoop k fun l =>
    { l with ctl := { l.ctl with ending := false }, sp := { l.sp with lostAt := none } }) k

/-- The on-request ceases (R391): `now` for OFF_NOW and for ENn falling with EN_OFF = 1. FAULT and LATCHED go to OFF
either way (R367, R394). -/
def offBy (s : State) (k : LoopId) (now : Bool) : State :=
  match loopState s k with
  | 0 => s
  | 1 => enterOff s k
  | 2 => if now then enterOff s k else enterSoftstop s k
  | 3 => if now then enterOff s k else enterSoftstop s k
  | 4 => if now then enterOff s k else s
  | _ => enterOff s k

/-! ### Trips of the classes (R340, R345, R357) -/

/-- A cell's latch counts as one that SHED holds: the policy of its class at the trip is SHED, and applies (R364, R365). -/
def noteShed (s : State) (k : LoopId) (cls : FaultClass) (n : CellId) : State :=
  if policyOf s k cls = 2 ∧ faulted s k = false ∧ isOff s k = false then s.modCell n fun c => { c with shedBy := true } else s

/-- A trip of a cell class: its latch, its count, the cell at mid-level, the report, the policy to come. The IMON and
READBACK classes leave the cell as it is until the policy acts (R340, R343), but for a cell that is being burnished. No
trip sets a latch of a loop in OFF (R394). -/
def cellTrip (s : State) (n : CellId) (b : Fin 5) (cls : FaultClass) (event : Nat) : State :=
  match loopOfCell s n with
  | none => s
  | some k =>
    if isOff s k && !burning s k then s
    else
      let s := (setLatch s (.cell n b)).bump (O.CELL_TRIP_CNT n)
      let later := (cls == .imon || cls == .readback) && !isOff s k
      let s := noteShed s k cls n
      let s := if later then s else (stopCell s n).modCell n fun c => { c with low := false, acted := true }
      let s := report s cls (.loop k) (.cell n) event
      if isOff s k then s else tripWaits s k (policyOf s k cls)

/-- A trip of a loop class: its latch, the count, every cell of the loop at the safe state of the class (R345), the
report, the policy to come. A cell that its OC_NEG latch holds at mid-level stays there (R346). -/
def loopTrip (s : State) (k : LoopId) (cls : FaultClass) (event : Nat) : State :=
  let low := (cls == .ovpAbs || cls == .ovpSet) && s.efN k (O.OV_SAFE k) == 1
  let s := (setLatch s (.loop k (loopBit cls))).bump (O.TRIP_CNT k)
  let s := (cellsOf s k).foldl (fun s n => (stopCell s (cellOf n)).modCell (cellOf n) fun c =>
    { c with low := low && !latchSet s (.cell (cellOf n) 2) }) s
  let s := s.modLoop k fun l => { l with ctl := { l.ctl with safeLow := low } }
  tripWaits (report s cls (.loop k) (.loop k) event) k (policyOf s k cls)

end Sys2Proof.Machine
end

