-- ==== Sys2Proof/Machine/Capture.lean ====
section
/-! DEFINITION. Trace capture at the engine's ticks (R732 to R736). -/

namespace Sys2Proof.Machine

/-- TR_STAT [2:0]: 0 IDLE, 1 FILLING, 2 ARMED, 3 TRIGGERED, 4 DONE, 5 UNLOADING (R740). -/
def trState (s : State) (r : RegionId) : Nat := bits (s.getN (O.TR_STAT r)) 0 3

/-- TR_STAT takes a state, its trigger frame field kept. -/
def trPut (s : State) (r : RegionId) (st : Nat) : State :=
  s.setN (O.TR_STAT r) (s.getN (O.TR_STAT r) / 8 * 8 + st)

/-- The enabled streams of a region, ascending: TR_SEL of each (R734, R740). -/
def trStreams (s : State) (r : RegionId) : List Nat :=
  ((List.range 8).map fun i => s.getN (O.TR_SEL r i)).filter fun v => bit v 13

/-- D, the frames that the trace memory holds for N streams (R734). -/
def trDepth (s : State) (r : RegionId) : Nat :=
  (if Config.isL then 32768 else 131072) / max 1 (trStreams s r).length

/-- Frames captured before a trigger is taken (R735). -/
def trPre (s : State) (r : RegionId) : Nat := trDepth s r * s.getN (O.TR_PRE r) / 100

/-- The loop that a selection bit names in a region: the lower-numbered held, or the other. -/
def trLoop (s : State) (r : RegionId) (other : Bool) : Option LoopId :=
  match heldBy s r with
  | [] => none
  | k :: ks => if other then ks.head?.map loopOf else some (loopOf k)

/-- The cells of a region that are active in a loop, as a 12-bit map. -/
def regionMap (s : State) (r : RegionId) (k : LoopId) : Nat :=
  ((List.range 12).filter fun i => s.loops[k].ph.active.contains (12 * r.val + i)).foldl (fun m i => m + 2 ^ i) 0

/-- The word of a node of a region, for the loop and the cell its stream selects (R732, R733). -/
def nodeWord (s : State) (r : RegionId) (sel : Nat) : Nat :=
  let node := bits sel 0 8
  let n : CellId := cellOf (12 * r.val + bits sel 8 4)
  if node = 0x2F then 0xA5A50000 + r.val
  else if node = 0x22 then twos 32 (s.get (O.IMON_CUR n))
  else if node = 0x23 then s.getN (O.IMON_RAW n)
  else if node = 0x24 then twos 32 (s.get (O.LEDGER n))
  else if node = 0x25 then twos 32 s.cells[n].onReq
  else if node = 0x26 then s.getN (O.TON_LAST n)
  else if node = 0x27 then s.getN (O.SLOT_POS n)
  else if 0x2F < node then Config.openNode node % 2 ^ 32
  else match trLoop s r (bit sel 12) with
    | none => 0
    | some k =>
      let l := s.loops[k]
      let t := l.track[r]
      if node = 0x16 then twos 32 t.duty
      else if node < 0x20 then (if masterOf s k = r.val then l.eng.nodes.getD node 0 else 0)
      else if node = 0x20 then twos 32 t.sum
      else if node = 0x21 then regionMap s r k
      else if node = 0x28 then twos 32 t.acc
      else if node = 0x29 then twos 32 t.k
      else if node = 0x2A then l.sn.code
      else if node = 0x2B then l.sn.localCode
      else if node = 0x2C then twos 32 (s.get (O.VLS_OFFSET k))
      else if node = 0x2D then l.eng.lateMap
      else l.eng.sample % 2 ^ 32

/-- What TR_TRIG watches in a region: the word of its stream, signed, or a count of its loop: of the latches set for it, its cells and
its blocks, of its sketch openings, of its misses. -/
def trWatch (s : State) (r : RegionId) : Int :=
  let tr := s.getN (O.TR_TRIG r)
  let kind := bits tr 0 4
  if kind = 5 then
    (match trLoop s r (bit tr 8) with | some k => ((latchesOf s k).map (timesSet s)).sum | none => 0)
  else if kind = 6 then
    (match trLoop s r (bit tr 8) with | some k => s.get (O.SK_OPEN_CNT k) | none => 0)
  else if kind = 7 then
    (match trLoop s r (bit tr 8) with | some k => s.get (O.MISS_TOTAL k) | none => 0)
  else signOf 32 (nodeWord s r (s.getN (O.TR_SEL r (bits tr 4 3))))

/-- The trigger condition of TR_TRIG, from the watched value of this frame and of the one before. -/
def trHit (s : State) (r : RegionId) (prev : Option Int) (now : Int) : Bool :=
  let tr := s.getN (O.TR_TRIG r)
  let lv := s.get (O.TR_LEVEL r)
  let rise := match prev with | some p => decide (p < lv) && decide (lv ≤ now) | none => false
  let fall := match prev with | some p => decide (lv < p) && decide (now ≤ lv) | none => false
  match bits tr 0 4 with
  | 1 => if bit tr 7 then decide (now ≤ lv) else decide (lv ≤ now)
  | 2 => rise
  | 3 => fall
  | 4 => rise || fall
  | 5 | 6 | 7 => match prev with | some p => p != now | none => false
  | _ => false

/-- A trigger of a region of TR_GROUP reaches every other region of the group that is not still filling (R736). -/
def trGroup (s : State) (r : RegionId) : State :=
  if s.getB O.TR_GROUP r then
    eachRegion s fun s j =>
      if j ≠ r ∧ s.getB O.TR_GROUP j ∧ trState s j = 2 then s.modTrace j fun t => { t with trig := true } else s
  else s

/-- The words of the trace memory after a frame is written from a word index upward. -/
def putWords (m : List (Nat × Nat)) (a : Nat) : List Nat → List (Nat × Nat)
  | [] => m
  | w :: ws => putWords (if w = 0 then eraseAt m a else insertAt m a w) (a + 1) ws

/-- One frame is captured in a region, and a trigger that it brings fixes the trigger frame (R734, R735). -/
def trFrame (s : State) (r : RegionId) : State :=
  let st := trState s r
  let t := s.traces[r]
  if (st = 3 ∧ t.left = 0) ∨ (st ≠ 1 ∧ st ≠ 2 ∧ st ≠ 3) then s
  else
    let sel := trStreams s r
    let f := t.total % trDepth s r
    let now := trWatch s r
    let s' := s.modTrace r fun t =>
      { t with mem := putWords t.mem (f * sel.length) (sel.map (nodeWord s r)), total := t.total + 1, prev := some now,
               left := if st = 3 then t.left - 1 else t.left }
    if st = 1 then (if trPre s r ≤ t.total + 1 then trPut s' r 2 else s')
    else if st = 2 ∧ (t.trig || trHit s r t.prev now) then
      let s' := s'.modTrace r fun t =>
        { t with trig := false, trigAt := some (t.total - 1), left := trDepth s r - trPre s r - 1 }
      trGroup (s'.setN (O.TR_STAT r) (f * 256 + 3)) r
    else s'

/-- The tick of a loop captures a frame in every region that holds it in its even slot, at every TR_DEC-th tick. -/
def trTick (s : State) (k : LoopId) : State :=
  eachRegion s fun s r =>
    if (heldBy s r).head? = some k.val then
      if s.traces[r].dec + 1 < s.getN (O.TR_DEC r) then s.modTrace r fun t => { t with dec := t.dec + 1 }
      else (trFrame s r).modTrace r fun t => { t with dec := 0 }
    else s

end Sys2Proof.Machine
end

