-- ==== Sys2Proof/Machine/Sample.lean ====
section
/-! DEFINITION. What a sample fetches and aims at: the set-point and its slew, the bias, the droop, the window ADC and the
summed current (R103 to R121, R227, R228, R249, R257, R266, R390, R395). -/

namespace Sys2Proof.Machine

/-! ### The set-point (R390, R392, R395, R396, R402) -/

/-- Volts of a count of 0.25 mV. -/
def quarter (v : Int) : Rat := (v : Rat) / 4000

/-- The value of a loop's source before the clamp (R396, R397, R402, R404). -/
def sourceValue (s : State) (k : LoopId) : Rat :=
  let sp := s.loops[k].sp
  if sp.safe then quarter (s.ef k (O.SP_SAFE k))
  else if s.getN (O.SP_SRC k) = 0 then
    match sp.stay with
    | some v => v
    | none => sp.setv.getD (quarter (s.ef k (O.SP_BOOT k)))
  else sp.src

/-- The final target is formed afresh (R395): SP_TARGET, the clamp flag, and event 0x0112 at most once in 10 ms (log entry
61). -/
def refreshTarget (s : State) (k : LoopId) : State :=
  let v := sourceValue s k
  let t := clampR v (quarter (s.ef k (O.SP_MIN k))) (quarter (s.ef k (O.SP_MAX k)))
  let was := s.getB (O.SRC_STAT k) 4
  let s := (s.modLoop k fun l => { l with sp := { l.sp with final := t } }).set (O.SP_TARGET k) (toStep (t * 4000))
  let s := s.setBitAt (O.SRC_STAT k) 4 (decide (t ≠ v))
  if t = v then s
  else
    let s := if was then s else amlAlert s k 10
    match s.loops[k].ctl.clampAt with
    | some u => if s.uptime < u + 10000 then s
      else recordLoop (s.modLoop k fun l => { l with ctl := { l.ctl with clampAt := some s.uptime } }) 0x0112 k
    | none => recordLoop (s.modLoop k fun l => { l with ctl := { l.ctl with clampAt := some s.uptime } }) 0x0112 k

/-- One period of a slew: the value after `ns`, and the rate in force with its sign, V/s (R228). -/
def slewStep (now goal rate : Rat) (ns : Nat) : Rat × Rat :=
  if now = goal then (now, 0)
  else
    let d := rate * ns / 1000000000
    if now < goal then (if goal - now ≤ d then (goal, rate) else (now + d, rate))
    else if now - goal ≤ d then (goal, -rate) else (now - d, -rate)

/-- The set-point holds: OBSERVER-ONLY, unless its own soft-stop runs (R141, R145), or a lost source (R402; log entry 53). -/
def spHeld (s : State) (k : LoopId) : Bool :=
  if loopState s k = 4 then observing s k && !s.loops[k].ctl.blindStop
  else observing s k || s.loops[k].sp.lostAt.isSome

/-- The set-point after slew of the next sample, from a present value, with the slew in force (R390, R392, R395; log entry
53). -/
def spStep (s : State) (k : LoopId) (now : Rat) : Rat × Rat :=
  if spHeld s k then (now, 0)
  else
    let f := s.loops[k].sp.final
    if loopState s k = 4 then
      slewStep now (quarter (s.ef k (O.SS_END k))) (s.efN k (O.SS_SLEW k) * 100) (sampleNs s k)
    else if loopState s k = 2 ∧ s.loops[k].sp.safe = false then slewStep now f (s.efN k (O.RAMP_SLEW k) * 100) (sampleNs s k)
    else slewStep now f (s.efN k (O.SP_SLEW k) * 100) (sampleNs s k)

/-- The sketch bias of the next sample, from a present value, with its rate (R257). -/
def biasStep (s : State) (k : LoopId) (now : Rat) : Rat × Rat :=
  slewStep now s.loops[k].sk.biasTo (s.efN k (O.SK_SLEW k) * 100) (sampleNs s k)

/-- The droop, V, from a summed current in 1/256 A and a slew in V/s (R227). -/
def droopOf (s : State) (k : LoopId) (isum : Int) (slew : Rat) : Rat :=
  let i := (isum : Rat) / 256 - (s.efN k (O.LL_CSLEW k) : Rat) / 100000 * slew
  let m := quarter (s.ef k (O.LL_VMAX k))
  clampR ((s.getN (O.LL_R_NOW k) : Rat) / 1000000 * i) (-m) m

/-- The target: set-point and bias less the droop, the bias held in the band of R266. -/
def aimOf (s : State) (k : LoopId) (sp bias droop : Rat) : Rat :=
  let u := sp - droop
  if bias = 0 then u
  else
    let b := clampR bias (-(quarter (s.ef k (O.SK_TOL_DN k)))) (quarter (s.ef k (O.SK_TOL_UP k)))
    if 0 < b then min (u + b) (max u (36 / 10)) else max (u + b) (min u (1 / 4))

/-! ### The window ADC (R103 to R113) -/

/-- The nearest 0.25 mV, ties up. -/
def toQuarter (x : Rat) : Rat := quarter (roundUpTies (x * 4000))

/-- The voltage of a code in a window, the converter's zero being the code of 0 V (R105, R126). -/
def codeVolts (zero centre : Rat) (code : Nat) : Rat := centre + ((code : Rat) - zero) / 8000

/-- The edge of the window that a saturated code stands for (R107). -/
def edgeVolts (centre : Rat) (code : Nat) : Rat := if code = 0 then centre - 256 / 1000 else centre + 255875 / 1000000

/-- A converter at its limit. -/
def railCode (c : Nat) : Bool := c == 0 || c == 4095

/-- The measurement of a sample from its conversions, latest first, and its saturation flag (R106, R107). -/
def windowVolts (zero centre : Rat) (codes : List Nat) : Rat × Bool :=
  match codes.find? railCode with
  | some c => (edgeVolts centre c, true)
  | none => (meanR (codes.map (codeVolts zero centre)), false)

/-- The summed current that the window centre of the sample uses: of the sample before, or of the one before that (R104). -/
def centreSum (s : State) (k : LoopId) : Int :=
  if 10 * s.getN (O.VS_AVG k) + 13 + crossNs s k ≤ sampleNs s k then s.loops[k].sn.isum else s.loops[k].sn.isumPrev

/-! ### Phase current (R118 to R121) -/

/-- The band whose trim set a cell uses (R129): the nearest one measured, the lower on a tie; none measured. -/
def trimBand (s : State) (n : CellId) : Option Nat :=
  let v := s.getN (O.IMTRIM_VALID n)
  let b := s.getN (O.IMON_BAND n)
  ([b, b - 1, b + 1, b - 2, b + 2, b - 3, b + 3, b - 4, b + 4].filter fun j => decide (j < 5) && bit v j).foldl
    (fun best j => match best with
      | none => some j
      | some o => if ((j : Int) - b).natAbs < ((o : Int) - b).natAbs then some j else some o) none

/-- Trimmed delay d of a cell, counts of 500 ps (R118, R152). -/
def trimDelay (s : State) (n : CellId) : Nat :=
  match trimBand s n with | some b => s.getN (O.IMTRIM_DLY n b) | none => 0

/-- IMON_DREF in force, counts of 500 ps (R119). -/
def drefOf (s : State) (k : LoopId) : Nat :=
  let m := ((s.loops[k].ph.active.map fun n => trimDelay s (cellOf n)).foldl max 0)
  let auto := (m + 1) / 2 * 2
  let d := s.getN (O.IMON_DREF k)
  if d = 0 ∨ d < m then auto else d

/-- A code after the ADC offset trims (R120 step 1): the factory offset of the die band and the zero calibration. -/
def imonTrimmed (s : State) (n : CellId) (code : Rat) : Rat :=
  code - Config.imonOffset n (s.getN (O.DIE_BAND (n.val / 12))) - (s.cells[n].zero - 256)

/-- Steps 3 to 5 of R120: amperes by R114, the trim set of the band, the current-sense correction of R231. -/
def imonAmps (s : State) (n : CellId) (code : Rat) : Rat :=
  let i := (code - 256) * s.getN (O.IMON_IFS (n.val / 4)) / 768
  let (g, o) : Rat × Rat := match trimBand s n with
    | some b => ((s.get (O.IMTRIM_GAIN n b) : Rat) / 268435456, (s.get (O.IMTRIM_OFS n b) : Rat) / 256)
    | none => (1, 0)
  (((i - o) * g) - (s.get (O.CS_OFS n) : Rat) / 256) * ((s.get (O.CS_GAIN n) : Rat) / 268435456) * s.cells[n].gt

/-- The conversions, latest first, that bracket a pin time: the earlier and the later one. -/
def bracket (t : Int) : List (Nat × Nat) → Option ((Nat × Nat) × (Nat × Nat))
  | a :: b :: rest => if (b.1 : Int) ≤ t ∧ t ≤ a.1 then some (b, a) else bracket t (b :: rest)
  | _ => none

/-- The weight of the later conversion: the fraction of 25 ns, to the nearest 1/32, ties toward the later one (R118). -/
def pinWeight (t : Int) (earlier : Nat) : Rat := (roundUpTies (((t - earlier : Int) : Rat) / 50 * 32) : Rat) / 32

/-- The code of a cell at a pin time. Where the state holds no bracketing pair, the latest conversion; where it holds
none, the code of 0 A (log entry 16). -/
def pinCode (s : State) (n : CellId) (t : Int) : Rat :=
  match bracket t s.cells[n].conv with
  | some (a, b) => let w := pinWeight t a.1; (1 - w) * (a.2 : Rat) + w * b.2
  | none => match s.cells[n].conv with
    | c :: _ => c.2
    | [] => 256

/-- A cell's corrected current for a sample whose tick is `t0` counts (R118 to R120), 1/256 A. -/
def cellCurrent (s : State) (k : LoopId) (n : CellId) (t0 : Nat) : Int :=
  let t : Int := (t0 : Int) - 70 - drefOf s k + trimDelay s n
  toAmp (imonAmps s n (imonTrimmed s n (pinCode s n t)))

/-- A cell's current counts in its region's sum: it is active, or its shed waits for release (R121, R321). -/
def summed (s : State) (k : LoopId) (n : Nat) : Bool :=
  s.loops[k].ph.active.contains n || s.cells[cellOf n].shedding

/-- The region's current sum for a sample (R121), 1/256 A. -/
def regionSum (s : State) (k : LoopId) (r : Nat) : Int :=
  (((cellsOf s k).filter fun n => n / 12 == r && summed s k n).map fun n => s.get (O.IMON_CUR (cellOf n))).sum

/-- IMON_CUR of every cell of the loop takes its corrected current of the sample, within the object's range (R152; log entry 82). -/
def cellCurrents (s : State) (k : LoopId) (t0 : Nat) : State :=
  (cellsOf s k).foldl (fun s n =>
    if regionReady s (n / 12) then s.set (O.IMON_CUR (cellOf n)) (clampI (cellCurrent s k (cellOf n) t0) (-30720) 30720) else s) s

/-- A map of the twelve cells of a region. -/
def cellMap (r : RegionId) (p : Nat → Bool) : Nat :=
  (((List.range 12).filter fun i => p (12 * r.val + i)).map fun i => 2 ^ i).sum

/-- What a follower writes to the share bus for the sample (the table under R76). -/
def upEntry (s : State) (k : LoopId) (r : RegionId) : UpEntry :=
  { num := s.loops[k].eng.sample % 256, sum := regionSum s k r
    act := cellMap r fun n => s.loops[k].ph.active.contains n && !s.cells[cellOf n].stopped
    trip := cellMap r fun n => loopOfCell s n == some k && cellStop s n != 0 }

/-- The followers' entries of the sample are written; those of `late` do not come in time, and are discarded when they come
(R78). -/
def shareUp (s : State) (k : LoopId) (late : List RegionId) : State :=
  let entry (r : RegionId) := upEntry s k r
  s.modLoop k fun l =>
    { l with track := Vector.ofFn fun r : Fin 8 =>
        { l.track[r] with up := if (followersOf s k).contains r.val && !late.contains r then some (entry r) else none } }

/-- The sum that a follower's entry brings for the sample: an entry counts for the sample whose number it carries (R77). -/
def upSum (s : State) (k : LoopId) (r : RegionId) : Option Int :=
  match s.loops[k].track[r].up with
  | some e => if e.num = s.loops[k].eng.sample % 256 then some e.sum else none
  | none => none

/-- A follower's sum is late in the sample (R78). -/
def upLate (s : State) (k : LoopId) (r : Nat) : Bool := (followersOf s k).contains r && (upSum s k (regionOf r)).isNone

/-- The sums of every region, and the loop's: a late follower's previous contribution stands (R78, R191). The summed
current of the confirmed path takes every follower's previous one (R268). -/
def gatherSums (s : State) (k : LoopId) : State × Int × Int :=
  let m := masterOf s k
  let new (r : Nat) := if r = m then regionSum s k r else (upSum s k (regionOf r)).getD s.loops[k].track[regionOf r].sum
  let all := ((regionsOf s k).map new).sum
  let conf := ((regionsOf s k).map fun r => if r = m then new r else s.loops[k].track[regionOf r].sum).sum
  let held := regionsOf s k
  let track := Vector.ofFn fun r : Fin 8 =>
    let t := s.loops[k].track[r]
    if held.contains r.val then { t with sum := new r.val } else t
  (s.modLoop k fun l => { l with track := track }, all, conf)

/-! ### Stage 1 (R184) -/

/-- The bus voltage that a sample uses in V: the latest conversion, or the previous value where it has not crossed (R48). -/
def busY (s : State) (k : LoopId) (crossed : Bool) : Int :=
  if crossed then toQ s.fb.vbus else s.loops[k].eng.y.getD 2 0

/-- y3 and its validity at a tick (R429). -/
def linkY (s : State) (k : LoopId) (tick : Nat) : Int × Bool :=
  match s.loops[k].ph.liUntil with
  | some u => if tick ≤ u then (toQ (s.loops[k].ph.li / 1000), true) else (0, false)
  | none => (0, false)

/-- The set-point, the slew and the bias move to this sample; a RAMP whose set-point meets the final target becomes
REGULATE (R390), but in a STANDBY, whose loop states follow its ACTIVE's (R559). -/
def advanceAim (s : State) (k : LoopId) : State :=
  let s := refreshTarget s k
  let (sp, sl) := spStep s k s.loops[k].sp.now
  let (b, bs) := biasStep s k s.loops[k].sk.bias
  let s := s.modLoop k fun l =>
    { l with sp := { l.sp with now := sp, slew := sl }, sk := { l.sk with bias := b, biasSlew := bs } }
  let s := s.set (O.SP_NOW k) (toStep (sp * 4000))
  if loopState s k = 2 ∧ sp = s.loops[k].sp.final ∧ !spHeld s k ∧ !standby s then
    (s.setN (O.LOOP_STATE k) 3).modLoop k fun l => { l with ctl := { l.ctl with regAt := s.uptime } }
  else s

/-- The part of stage 1 that measures: target, window centres, output voltages, summed current, bus and link estimate.
The summed current of the confirmed path and y3's validity are answered. Each reported value keeps to its object's range (R150;
log entry 82). -/
def fetchSample (s : State) (k : LoopId) (i : SampleIn) : State × Int × Bool :=
  let l := s.loops[k]
  let droop := droopOf s k l.sn.isum l.sp.slew
  let r := aimOf s k l.sp.now l.sk.bias droop
  let ci := centreSum s k
  let centre := toQuarter (aimOf s k l.sp.now l.sk.bias (droopOf s k ci l.sp.slew))
  let plane := (s.getN (O.VLS_RPLANE k) : Rat) / 1000000
  let lcentre := toQuarter (centre + plane * ((ci : Rat) / 256) - l.sn.offset)
  let codes := (i.remote.take (s.getN (O.VS_AVG k))).map Fin.val
  let (vr, satR) := windowVolts l.sn.zero centre codes
  let lc := i.localCode.val
  let s := shareUp (cellCurrents s k i.tick) k i.lateSums
  let (s, isum, conf) := gatherSums s k
  let lv := (if railCode lc then edgeVolts lcentre lc else codeVolts l.sn.zeroLocal lcentre lc)
  let corr := lv - plane * ((isum : Rat) / 256) + l.sn.offset
  let useLocal := s.getN (O.VS_STATE k) = 1 ∨ s.getN (O.VS_STATE k) = 2 ∨ (observing s k && l.sn.obsLocal)
  let v := if useLocal then corr else vr
  let (y3, ok3) := linkY s k i.tick
  let y := [toQ (v - r), toQ ((isum : Rat) / 256000), busY s k i.busCrossed, y3]
  let s := s.modLoop k fun l =>
    { l with
      sn := { l.sn with vout := v, sat := if useLocal then railCode lc else satR, remote := vr, local_ := lv,
                        code := codes.headD 0, localCode := lc, centre := centre, localCentre := lcentre,
                        isumPrev := l.sn.isum, isum := isum }
      eng := { l.eng with r := r, y := y, tick := i.tick } }
  let s := (s.set (O.VOUT_MEAS k) (clampI (toStep (v * 8000)) 0 31200)).set (O.ISUM_MEAS k) (clampI isum (-8388608) 8388607)
  let s := (s.set (O.WIN_CENTRE k) (clampI (toStep (centre * 4000)) 1000 14400)).set (O.DROOP_NOW k) (toStep (droop * 4000))
  (s, conf, ok3)

end Sys2Proof.Machine
end

