-- ==== Sys2Proof/Machine/Law.lean ====
section
/-! DEFINITION. The arithmetic of stages 2 to 5: innovation, observer, law, ground law, limits and bus feedforward
(R155 to R163, R185, R200, R201, R216 to R225, R260, R369). -/

namespace Sys2Proof.Machine

/-! ### Inductance versus current (R215 to R217) -/

/-- The factor s at a mean cell current (R216). -/
def lsatAt (comp : List Rat) (step : Nat) (iavg : Rat) : Rat :=
  let x := iavg / ((step : Rat) / 4)
  let n := x.floor.toNat
  if 31 ≤ n then comp.getD 31 1
  else
    let frac : Rat := (((x - n) * 256).floor : Rat) / 256
    comp.getD n 1 + frac * (comp.getD (n + 1) 1 - comp.getD n 1)

/-- s of the sample (R216, R219). -/
def lsatNow (s : State) (k : LoopId) : Rat :=
  let n := s.loops[k].ph.active.length
  let y1 := absR (ofQ (s.loops[k].eng.y.getD 1 0))
  lsatAt s.loops[k].eng.comp (s.getN (O.LSAT_STEP k)) (if n = 0 then 0 else y1 * 1000 / n)

/-- A composite: per entry, the mean of 4,096 / r over the active cells, else over the available cells, else 1 (R215). -/
def lsatComposite (s : State) (k : LoopId) : List Rat :=
  let act := s.loops[k].ph.active
  let cells := if act.isEmpty then (cellsOf s k).filter fun n => available s n else act
  (List.range 32).map fun i =>
    if cells.isEmpty then 1
    else meanR (cells.map fun n => 4096 / ((s.blocks[blockOf (n / 4)].lsat.getD i 4096 : Nat) : Rat))

/-! ### Ripple (R220 to R223) -/

/-- The ripple term at a value q of a period counter of P counts (R221). -/
def rippleAt (tab : List Int) (q p : Nat) : Rat :=
  let x : Rat := (q * 64 : Nat) / (p : Rat)
  let n := x.floor.toNat
  let frac : Rat := (((x - n) * 256).floor : Rat) / 256
  let v (i : Nat) : Rat := (tab.getD (i % 64) 0 : Rat) / 32768
  v n + frac * (v (n + 1) - v n)

/-- The value of the master's period counter at the deadline of the sample (R221). -/
def deadlineCount (s : State) (k : LoopId) : Nat := counterAt s k (regionOf (masterOf s k)) (deadlineOf s k)

/-- The ripple term of the sample (R221, R222). -/
def rippleNow (s : State) (k : LoopId) : Rat :=
  let na := s.efN k (O.RIP_NACT k)
  if s.efN k (O.RIP_EN k) = 0 ∨ (na ≠ 0 ∧ na ≠ s.loops[k].ph.active.length) ∨ s.getN (O.RESPACE k) ≠ 0 then 0
  else rippleAt s.loops[k].eng.rip (deadlineCount s k) (periodCnt s k)

/-! ### Bus feedforward (R224, R225) -/

/-- V_ff of the sample before the floor (R224). -/
def vffRaw (s : State) (k : LoopId) : Rat :=
  if s.getN (O.BFF_MODE k) = 1 then (s.getN (O.BFF_VFIX k) : Rat) / 1000 else ofQ (s.loops[k].eng.y.getD 2 0)

/-- The floor of R224 is in force. -/
def bffFloor (s : State) (k : LoopId) : Bool := decide (vffRaw s k < (s.getN (O.BFF_VMIN k) : Rat) / 1000)

/-- The bus feedforward factor: 1 / V_ff within a relative error of 2⁻²⁰ (R224; log entry 7). -/
def bffNow (s : State) (k : LoopId) : Rat :=
  let v := if bffFloor s k then (s.getN (O.BFF_VMIN k) : Rat) / 1000 else vffRaw s k
  1 / v * (1 + clampR (Config.bffError v) (-(1 / 1048576)) (1 / 1048576))

/-! ### Limits of stage 5 (R185, R369) -/

/-- u_hi and u_lo of the current limit (R369), V. -/
def currentBand (s : State) (k : LoopId) (sf rNext : Rat) (isum : Int) : Rat × Rat :=
  let i : Rat := (isum : Rat) / 256
  let ilim : Rat := (s.efN k (O.ILIM_TOT k) : Rat) * ilimNow s k / 4096
  let g : Rat := sf * sampleNs s k * (max s.loops[k].ph.active.length 1 : Nat) / s.efN k (O.ILIM_LCELL k)
  (rNext + (ilim - i) / g, rNext - ((s.efN k (O.ILIM_NEG k) : Rat) + i) / g)

/-- A sum of exact products as an input in Q8.24: to the nearest value, ties away from zero, limited (R158, R161 to R163). -/
def toInput (x : Rat) : Rat :=
  let y := x * 16777216
  ofQ (clampI (roundAway y.num y.den) (-2147483648) 2147483647)

/-- A quantity held in Q8.24 (R158), where no rule names its rounding (log entry 6). -/
def inQ (x : Rat) : Rat := ofQ (toQ x)

/-- Stage 5 from the limits onwards (R185): u0 and u1 limited, each in Q8.24 (R158), the duty, and the feedback part of the
input (R156). `kr` and `f` are what the sample's own law added. -/
def formDuty (s : State) (k : LoopId) (sf rNext : Rat) (isum : Int) (u0 u1 kr0 kr1 f : Rat) : Formed :=
  let a := clampR (toInput u0) (ofQ (s.get (O.U0_MIN k))) (ofQ (s.get (O.U0_MAX k)))
  let (hi, lo) := currentBand s k sf rNext isum
  let a := inQ (clampR a lo hi)
  let m : Rat := (1 + u1) * bffNow s k
  let dmax : Rat := (s.get (O.DUTY_MAX k) : Rat) / 32768
  let d := a * m
  let (d, a) := if dmax < d then (dmax, inQ (dmax / m)) else (d, a)
  let (d, a) := if d < 0 then ((0 : Rat), (0 : Rat)) else (d, a)
  { duty := roundUpTies (d * periodCnt s k * 256), ratio := d, u0 := a, u1 := u1,
    ut0 := toQ (a - kr0 * rNext - f), ut1 := toQ (u1 - kr1 * rNext) }

/-- Kr[m] of an image. -/
def krOf (img : List Byte) (m : Nat) : Rat := (coefAt img (304 + m) : Rat) / 268435456

/-- Stage 5 of the full law from a feedback part (R185). -/
def fullDuty (s : State) (k : LoopId) (img : List Byte) (sf rNext f : Rat) (isum : Int) (ut0 ut1 : Int) : Formed :=
  let k0 := krOf img 0
  let k1 := krOf img 1
  let lim : Rat := (s.get (O.U1_LIM k) : Rat) / 32768
  let u1 := if u1Used img then clampR (toInput (ofQ ut1 + k1 * rNext)) (-lim) lim else 0
  formDuty s k sf rNext isum (ofQ ut0 + k0 * rNext + f) u1 k0 k1 f

/-- The ground law of a sample (R200): u0 before the limits, the integrator and e. On its first sample the integrator is the
preset alone, to which that sample's KI · e is not added: the rule leaves it open (log entry 80). -/
def groundLaw (s : State) (k : LoopId) (rNext rip : Rat) : Rat × Rat × Rat :=
  let l := s.loops[k]
  let e := -(ofQ (l.eng.y.getD 0 0))
  let kp := ofQ (s.get (O.GL_KP k))
  let lim := ofQ (s.get (O.GL_ILIM k))
  let ePrev := if l.eng.gFirst then e else l.eng.ePrev
  let i := if l.eng.gFirst then clampR (l.eng.u0 - (rNext + kp * e + rip)) (-lim) lim
    else clampR (l.eng.gi + ofQ (s.get (O.GL_KI k)) * e) (-lim) lim
  (rNext + kp * e + i + ofQ (s.get (O.GL_KD k)) * (e - ePrev) + rip, i, e)

/-! ### Stages 2 to 4 -/

/-- Innovation of the sample before R159, and how many rows saturated (R155, R163). The difference is held in Q8.24
(log entry 18). -/
def innovation (img : List Byte) (x y : List Int) : List Int × Nat :=
  let rows := (List.range 4).map fun j => outRow img j x
  (rows.zipIdx.map fun e => clampI (y.getD e.2 0 - e.1.1) (-2147483648) 2147483647, (rows.filter Prod.snd).length)

/-- The innovation that the observer takes (R159). -/
def usedInnovation (s : State) (k : LoopId) (img : List Byte) (e : List Int) (ok3 : Bool) : List Int :=
  e.zipIdx.map fun v =>
    if !bit (measMask img) v.2 || (v.2 == 0 && observing s k) || (v.2 == 3 && !ok3) then 0 else v.1

/-- One observer step: the rows of R155, with the row of LSAT_ROW scaled by s and the scaled result rounded (R217), and how many
saturated. -/
def observe (img : List Byte) (row : Nat) (sf : Rat) (x u e : List Int) : List Int × Nat :=
  let rows := (List.range 12).map fun i =>
    if i = row then
      let sum := rowSum img (16 + 12 * i) 1 x + rowSum img (160 + 2 * i) 1 u + rowSum img (184 + 4 * i) 1 e
      let rho := roundAway (sum * (2 ^ expObs img i : Nat)) 268435456
      let xi := x.getD i 0
      let scaled := (xi : Rat) + sf * ((rho - xi : Int) : Rat)
      let v := roundAway scaled.num scaled.den
      (clampI v (-2147483648) 2147483647, decide (v < -2147483648) || decide (2147483647 < v))
    else obsRow img i x u e
  (rows.map Prod.fst, (rows.filter Prod.snd).length)

/-- Stage 4: ũ from an estimate (R155), and how many rows saturated. -/
def lawOf (img : List Byte) (x : List Int) : Int × Int × Nat :=
  let (a, fa) := lawRow img 0 x
  let (b, fb) := lawRow img 1 x
  (a, b, b2n fa + b2n fb)

/-! ### Run-ahead (R260, R261) -/

/-- The run-ahead can run (R261). -/
def runAvail (s : State) (k : LoopId) (img : List Byte) : Bool :=
  servedAlone s k && decide (50 ≤ sampleNs s k) && s.isOn (O.SK_RUNAHEAD k) && decide (idxDist img < 12)

/-- ramp(t) of R260 at a time in counts. -/
def rampAt (s : State) (k : LoopId) (t : Nat) : Rat :=
  let n := s.loops[k].sk.notice
  let step := n.tRef + n.lead * 200
  let rise := s.efN k (O.SK_TRISE k) * 2
  if t < step then 0 else if step + rise ≤ t then 1 else ((t - step : Nat) : Rat) / rise

/-- The next chain entry and the predicted vectors (R260). `x1` and `u` are x̂[k+1] and the feedback input in force at the
deadline; the predicted sample is the one whose estimate is computed (log entry 19). -/
def runAhead (s : State) (k : LoopId) (img : List Byte) (row : Nat) (sf : Rat) (x1 : List Int) (u0 u1 : Int) : State × Nat :=
  let l := s.loops[k]
  let xp := if l.sk.reset then x1 else l.sk.xp
  let up := if l.sk.reset then [u0, u1] else [l.sk.up0, l.sk.up1]
  let chain := if l.sk.reset then [] else l.sk.chain
  let (xp, n1) := observe img row sf xp up [0, 0, 0, 0]
  let t := l.eng.tick + 4 * sampleNs s k
  let xp := if idxDist img < 12 then
      xp.set (idxDist img) (toQ (ofQ l.sk.pD + (l.sk.notice.di : Rat) / 1000 * rampAt s k t)) else xp
  let (a, b, n2) := lawOf img xp
  let (y, fy) := outRow img 0 xp
  (s.modLoop k fun l =>
    { l with sk := { l.sk with xp := xp, up0 := a, up1 := b, reset := false, avail := true,
                               chain := (chain ++ [(y, a, b)]).take 4 } }, n1 + n2 + b2n fy)

end Sys2Proof.Machine
end

