-- ==== Sys2Proof/Machine/Engine.lean ====
section
/-! DEFINITION. The sample of a loop: tick, deadline, late data (R75 to R81, R184 to R204, R262 to R275). -/

namespace Sys2Proof.Machine

/-! ### Distribution (R290, R291) -/

/-- The active cells of a loop in a region, in slot order (R290). -/
def slotOrder (s : State) (k : LoopId) (r : Nat) : List Nat :=
  let cells := s.loops[k].ph.active.filter fun n => n / 12 == r
  (List.mergeSort (cells.map fun n => (s.getN (O.SLOT_POS (cellOf n)), n)) fun a b => a.1 < b.1 || (a.1 == b.1 && a.2 ≤ b.2)).map
    Prod.snd

/-- The on-time at which the pulse of a cell falls (R293): what it owes, within the minimum widths of its band entry. -/
def fallOf (s : State) (k : LoopId) (n : CellId) (owed : Int) : Nat :=
  let e := timEntry s k n
  (clampI owed (tonMin e) ((s.cells[n].period : Int) - toffMin e)).toNat

/-- A cell takes its requested on-time at a latch at time `now` (R288, R289): the end of a pulse in progress moves to the count
that the new request gives, or to the next count where that lies at or before the present one; a pulse that has ended, or has
not begun, is left for the next slot position. -/
def newRequest (s : State) (k : LoopId) (n : CellId) (now : Nat) (q : Int) : State :=
  let c := s.cells[n]
  if c.inPulse && decide (now < c.riseAt + c.fallAt) then
    let owed := q + c.carry
    s.modCell n fun c => { c with onReq := q, owed := owed, fallAt := max (fallOf s k n owed) (now + 1 - c.riseAt) }
  else s.modCell n fun c => { c with onReq := q }

/-- The stipple algorithm at a latch in one region at time `now` (R291): every active cell's requested on-time, and the end of
a pulse in progress (R288). -/
def stipple (s : State) (k : LoopId) (r : RegionId) (now : Nat) : State :=
  let t := s.loops[k].track[r]
  let cells := slotOrder s k r
  let n := cells.length
  let dInt := t.duty / 256
  let x := extraCells n (t.duty % 256) t.acc
  let seq := stippleSeq n
  let extra := (List.range x.toNat).map fun i => seq.getD ((t.pos + i) % max 1 n) 0
  let s := cells.zipIdx.foldl (fun s e =>
    newRequest s k (cellOf e.1) now (dInt + (if extra.contains e.2 then 1 else 0))) s
  s.modLoop k fun l => { l with track := l.track.set r { l.track[r] with k := x } }

/-- What the master writes to the share bus for a follower (the table under R76): the cells that are to switch are those of the
set decided, and the effective sample is that of the set, or the next. -/
def downEntry (s : State) (k : LoopId) (r : RegionId) (duty : Int) : DownEntry :=
  let n := s.loops[k].eng.sample
  { num := n % 256, duty := duty, act := cellMap r fun c => (planned s k).contains c
    eff := (match s.loops[k].ph.plan with | some p => p.eff | none => n + 1) % 256 }

/-- The master's entries of a duty are written; those of `late` do not come in time, and are discarded when they come (R79). -/
def shareDown (s : State) (k : LoopId) (duty : Int) (late : List RegionId) : State :=
  let entry (r : RegionId) := downEntry s k r duty
  s.modLoop k fun l =>
    { l with track := Vector.ofFn fun r : Fin 8 =>
        { l.track[r] with down := if (followersOf s k).contains r.val && !late.contains r then some (entry r) else none } }

/-- The duty that a region has for the sample: the master its own, a follower that of its entry, which counts for the sample
whose number it carries (R77). -/
def downDuty (s : State) (k : LoopId) (r : RegionId) (duty : Int) : Option Int :=
  if r.val = masterOf s k then some duty
  else match s.loops[k].track[r].down with
    | some e => if e.num = s.loops[k].eng.sample % 256 then some e.duty else none
    | none => none

/-- A duty comes into force at time `now`: the engine's input (R156), and the duty and stipple of every region that has it (R76,
R79). -/
def latchForm (s : State) (k : LoopId) (f : Formed) (late : List RegionId) (now : Nat) : State :=
  let s := s.modLoop k fun l =>
    { l with eng := { l.eng with duty := f.duty, dutyRatio := f.ratio, u0 := f.u0, u1 := f.u1, ut0 := f.ut0, ut1 := f.ut1,
                                 result := none } }
  let s := shareDown s k f.duty late
  (regionsOf s k).foldl (fun s r =>
    match downDuty s k (regionOf r) f.duty with
    | none => s
    | some d => stipple (s.modLoop k fun l =>
        { l with track := l.track.set (regionOf r) { l.track[regionOf r] with duty := d } }) k (regionOf r) now) s

/-! ### The sketch at a sample boundary (R272 to R275) -/

/-- I_meas of the sample, A (R249). -/
def measuredLoad (s : State) (k : LoopId) : Rat :=
  (s.loops[k].sn.isum : Rat) / 256 -
    (s.efN k (O.LL_CSLEW k) : Rat) / 100000 * (s.loops[k].sp.slew + s.loops[k].sk.biasSlew)

/-- The expiry time of the open sketch, counts (R245). -/
def sketchEndsAt (s : State) (k : LoopId) : Nat :=
  s.loops[k].sk.notice.tRef + s.loops[k].sk.notice.lead * 200 + s.efN k (O.SK_GRACE k) * 2000

/-- The ink (R274): the bias target is 0, the sketch term passes to the blend, the bus request is held (R258, R259, R265). -/
def sketchInk (s : State) (k : LoopId) : State :=
  let l := s.loops[k]
  let n := s.efN k (O.SK_BLEND k)
  let s := s.modLoop k fun l =>
    { l with eng := { l.eng with blends := l.eng.blends ++ [⟨l.sk.term, n, n⟩] },
             sk := { l.sk with pending := none, term := 0, biasTo := 0, hold := some (l.eng.tick + s.efN k (O.SK_BUS_HOLD k) * 2000) } }
  let s := ((s.setN (O.SK_STATE k) 2).setN (O.SK_LAST_CLOSE k) 1).bump (O.SK_INK_CNT k)
  s.bump64 (O.SK_TCONF_SUM k) ((l.eng.tick - l.sk.tOpen) / 2)

/-- The movement of R272, from the last four values of I_meas. -/
def movement (s : State) (k : LoopId) (last : List Rat) : Rat :=
  (meanR last - s.loops[k].sk.iOpen) / (s.loops[k].sk.notice.di : Rat)

/-- The first condition of R273, orders 1 to 5, that holds for an open sketch, by its close code: 1 is the ink. -/
def closeCause (s : State) (k : LoopId) (m : Rat) : Option Nat :=
  let l := s.loops[k]
  if anyLatch s k || fbLatches.any (latchSet s) || s.chip.therm then some 0x12
  else if loopState s k ≠ 3 then some 0x15
  else if observing s k then some 0x13
  else if grounded s k then some 0x14
  else if l.sk.cancel then some 0x11
  else if l.sk.disabled then some 0x16
  else if 1 / 2 ≤ m ∧ l.eng.tick ≤ sketchEndsAt s k then some 1
  else if sketchEndsAt s k < l.eng.tick then some 0x10
  else none

/-- An open sketch closes by a cause: the ink, or an erase. -/
def sketchClose (s : State) (k : LoopId) (code : Nat) : State := if code = 1 then sketchInk s k else sketchErase s k code

/-- The conditions of R273 at a sample boundary while OPEN, in order, and the sketch term of R265; once SK_BUS_HOLD has passed
since the ink, the bus request is withdrawn (R259). -/
def sketchBoundary (s : State) (k : LoopId) : State :=
  let now := measuredLoad s k
  let l := s.loops[k]
  let s :=
    if skState s k = 1 then
      let m := movement s k (now :: l.sk.imeas.take 3)
      match closeCause s k m with
      | some c => sketchClose s k c
      | none =>
        let term := ofQ (s.ef k (O.SK_KFF k)) * clampR m 0 1 * (l.sk.notice.di : Rat) / 1000
        s.modLoop k fun l => { l with sk := { l.sk with term := term } }
    else if skState s k == 2 && (match l.sk.hold with | some t => decide (t ≤ l.eng.tick) | none => true) then
      s.modLoop k fun l => { l with sk := { l.sk with headroom := 0 } }
    else s
  s.modLoop k fun l => { l with sk := { l.sk with imeas := (now :: l.sk.imeas).take 16 } }

/-! ### Changes of the active set (R314 to R318, R327, R328) -/

/-- The next cells of the loop in add order that can join a set; a cell in thermal hold is passed over, and one that an erased
sketch sheds (R253, R276, R316, R499). -/
def nextFrom (s : State) (k : LoopId) (act : List Nat) (count : Nat) : List Nat :=
  ((addOrder s k).filter fun n => !act.contains n && available s n && !heldCell s n &&
    !(skState s k == 3 && s.loops[k].sk.woken.contains n)).take count

/-- The count that phase add raises the active set to (R316). -/
def addTarget (s : State) (k : LoopId) : Nat :=
  let i : Rat := (s.loops[k].sn.isum : Rat) / 256
  let mid : Rat := ((s.efN k (O.PH_ADD_I k) + s.efN k (O.PH_SHED_I k) : Nat) : Rat) / 2
  min (i / mid).ceil.toNat (min (ceilOf s k) (min (nAvail s k) (budgetOf s k)))

/-- N cells would carry less than PH_SHED_I with one of them shed, and are more than the minimum (R316). -/
def shedFits (s : State) (k : LoopId) (n : Nat) : Bool :=
  decide (nMin s k < n) && decide (1 < n) &&
    decide ((s.loops[k].sn.isum : Rat) / 256 / ((n : Rat) - 1) < (s.efN k (O.PH_SHED_I k) : Rat))

/-- The row of R327 that a change belongs to. -/
def rowOfChange : Change → Nat
  | .removal => 1 | .swap _ _ => 2 | .budget _ => 3 | .wake _ => 4 | .cells _ => 4 | .add => 5 | .shed => 5

/-- Where the changes of a sample have led: the set, the cells that a row has acted on, the cells added and shed. -/
structure Settled where
  act : List Nat
  acted : List Nat
  adds : Nat
  sheds : Nat
  deriving DecidableEq, Repr

/-- Cells are shed; one that an earlier row acted on is passed over (R327). -/
def shedOf (e : Settled) (ns : List Nat) : Settled :=
  let ns := ns.filter fun n => e.act.contains n && !e.acted.contains n
  { e with act := e.act.filter fun n => !ns.contains n, acted := e.acted ++ ns, sheds := e.sheds + ns.length }

/-- Cells are added: those available that no earlier row acted on. -/
def joinOf (s : State) (e : Settled) (ns : List Nat) : Settled :=
  let ns := ns.filter fun n => !e.act.contains n && available s n && !e.acted.contains n
  { e with act := e.act ++ ns, acted := e.acted ++ ns, adds := e.adds + ns.length }

/-- One change of a sample, on the set that the changes before it have left (R327). -/
def settleOne (s : State) (k : LoopId) (e : Settled) (c : Change) : Settled :=
  let order := (ranked s k e.act).reverse.filter fun n => !e.acted.contains n
  match c with
  | .removal => e
  | .swap out into => joinOf s (shedOf e [out]) into.toList
  | .budget n => shedOf e (order.take (e.act.length - max n (nMin s k)))
  | .wake ns => joinOf s e (ns.take (min (ceilOf s k) (min (nAvail s k) (budgetOf s k)) - e.act.length))
  | .cells ns => shedOf e ns
  | .add => joinOf s e (nextFrom s k (e.act ++ e.acted) (addTarget s k - e.act.length))
  | .shed => if shedFits s k e.act.length then shedOf e (order.take 1) else e

/-- The changes decided in a sample, in the order of R327, with the cells and counts they leave. -/
def settled (s : State) (k : LoopId) : Settled :=
  (List.mergeSort s.loops[k].ph.changes fun a b => rowOfChange a ≤ rowOfChange b).foldl (settleOne s k) ⟨planned s k, [], 0, 0⟩

/-- At a sample boundary the changes decided in the sample before become the set that the master has decided, and its effective
sample is set: this one in a loop of one region, or where a sketch opens (R49, R246, R253), else one that R50 allows (log entry 5). -/
def planChanges (s : State) (k : LoopId) : State :=
  if s.loops[k].ph.changes.isEmpty then s
  else
    let e := settled s k
    let now := s.loops[k].eng.sample
    let opens := s.loops[k].ph.changes.any fun c => rowOfChange c == 4
    let (n, s) := if (regionsOf s k).length ≤ 1 || opens then (now, s) else let (d, s) := s.draw; (now + 1 + d, s)
    let s := s.modLoop k fun l => { l with ph := { l.ph with changes := [], plan := some ⟨e.act, n⟩ } }
    (s.bumpBy (O.ADD_CNT k) e.adds).bumpBy (O.SHED_CNT k) e.sheds

/-- The set decided comes into force at its effective sample (R314). -/
def takePlan (s : State) (k : LoopId) : State :=
  match s.loops[k].ph.plan with
  | some p => if p.eff ≤ s.loops[k].eng.sample then setActive s k p.act else s
  | none => s

/-! ### Counters that a sample keeps for other rules -/

/-- A count that goes on while a condition holds. -/
def runOf (b : Bool) (n : Nat) : Nat := if b then n + 1 else 0

/-- The moment since which a condition has held. -/
def since (b : Bool) (t : Nat) (o : Option Nat) : Option Nat := if b then (match o with | some u => some u | none => some t) else none

/-- Current full scale share: a percentage of the sum of IMON_IFS over the active cells, A (R135, R137). -/
def shareOf (s : State) (k : LoopId) (pct : Nat) : Rat := (fullScale s k * pct : Nat) / 100

/-- The loop's present source is the local pair: LOCAL, or OBSERVER-ONLY with source local. -/
def onLocal (s : State) (k : LoopId) : Bool :=
  s.getN (O.VS_STATE k) == 1 || s.getN (O.VS_STATE k) == 2 || (observing s k && s.loops[k].sn.obsLocal)

/-- The feedback-loss detectors' counts (R135 to R137, R142). The innovation of a measurement outside MEAS_MASK is zero
(R159; log entry 52). The duty that belongs to a sample of R135's span is the one in force at its tick, which the previous
deadline latched: the rule leaves it open (log entry 84). -/
def countSense (s : State) (k : LoopId) : State :=
  let s := if s.loops[k].sn.fresh then
      s.modLoop k fun l => { l with sn := { l.sn with frz := [], satRun := 0, divV := 0, fresh := false } }
    else s
  let l := s.loops[k]
  let code := if onLocal s k then l.sn.localCode else l.sn.code
  let bound := quarter (s.get (O.DIV_V_BOUND k))
  let e0 := absR (ofQ (l.eng.e.getD 0 0))
  let e1 := absR (ofQ (l.eng.e.getD 1 0)) * 1000
  let divI := s.getN (O.DIV_I_BOUND k)
  let open_ := s.getB (O.FBL_FLAGS k) 0 || s.getB (O.FBL_FLAGS k) 1
  let ok := observing s k && !l.sn.sat && l.sn.frozenCode != some code && decide (e0 ≤ bound) && (l.sn.obsLocal || !open_)
  let mask := measMask (activeImage s k)
  let overV := bit mask 0 && decide (bound < e0)
  let overI := bit mask 1 && divI != 0 && decide (shareOf s k divI < e1)
  let n := l.sn
  let sn := { n with frz := ((code, l.eng.dutyRatio, (n.isum : Rat) / 256) :: n.frz).take 64, satRun := runOf n.sat n.satRun,
                     divV := runOf overV n.divV, divI := runOf overI n.divI, good := runOf ok n.good }
  s.modLoop k fun l => { l with sn := sn }

/-- The digital trips' comparisons in the sample, and their counts (R340, R341, R782). -/
def countTrips (s : State) (k : LoopId) : State :=
  let l := s.loops[k]
  let ov := !observing s k && decide (l.sn.vout * 1000 > s.efN k (O.OVP_SET k))
  let uv := !observing s k && decide (l.sn.vout < l.eng.r - quarter (s.ef k (O.UVP_MARGIN k)))
  let it := decide ((l.sn.isum : Rat) / 256 > (s.efN k (O.ILIM_TOT k) * s.efN k (O.ITRIP_PCT k) : Nat) / (100 : Rat))
  s.modLoop k fun l =>
    { l with sn := { l.sn with ovSet := runOf ov l.sn.ovSet, uvSince := since (uv && loopState s k == 3) l.eng.tick l.sn.uvSince,
                               itSince := since it l.eng.tick l.sn.itSince, ovNow := ov, uvNow := uv, itNow := it } }

/-- The output lies in PGOOD's window (R405). -/
def inWindow (s : State) (k : LoopId) : Bool :=
  let l := s.loops[k]
  decide (l.eng.r - quarter (s.ef k (O.PG_WIN_LO k)) ≤ l.sn.vout) && decide (l.sn.vout ≤ l.eng.r + quarter (s.ef k (O.PG_WIN_HI k)))

/-- The moments of R405 and R406; OBSERVER-ONLY keeps PGOODn as it is. -/
def countPgood (s : State) (k : LoopId) : State :=
  if loopState s k = 3 ∧ !observing s k then
    let w := inWindow s k
    s.modLoop k fun l => { l with ctl := { l.ctl with pgSince := since w l.eng.tick l.ctl.pgSince, pgOut := runOf (!w) l.ctl.pgOut } }
  else s.modLoop k fun l => { l with ctl := { l.ctl with pgSince := none, pgOut := 0 } }

/-- Phase add and shed on current thresholds are held (R319, R333). -/
def phasesHeld (s : State) (k : LoopId) : Bool :=
  loopState s k != 3 || grounded s k || observing s k || s.loops[k].ph.enabling || s.ef k (O.PH_AUTO k) != 1

/-- The add condition of R316 in the present sample; PS_POWER LIGHT holds it (R426). -/
def addHolds (s : State) (k : LoopId) : Bool :=
  let n := (planned s k).length
  !phasesHeld s k && s.getN (O.PS_POWER k) == 0 && decide (0 < n) &&
    decide ((s.efN k (O.PH_ADD_I k) : Rat) < (s.loops[k].sn.isum : Rat) / 256 / n)

/-- The shed condition of R316; a sketch that is OPEN or ERASING holds it (R255). -/
def shedHolds (s : State) (k : LoopId) : Bool :=
  !phasesHeld s k && !addHolds s k && skState s k != 1 && skState s k != 3 && shedFits s k (planned s k).length

/-- The moments since which the phase conditions hold. -/
def countPhases (s : State) (k : LoopId) : State :=
  let a := addHolds s k
  let d := shedHolds s k
  s.modLoop k fun l =>
    { l with ph := { l.ph with addAt := since a l.eng.tick l.ph.addAt, shedAt := since d l.eng.tick l.ph.shedAt } }

/-- The active bank fails R180 at the operating point of the sample. -/
def bankFails (s : State) (k : LoopId) : Bool :=
  let m := bankActive s k
  let n := s.loops[k].ph.active.length
  let v := ofQ (s.loops[k].eng.y.getD 2 0)
  !(phLo s k m != 0 && decide (phLo s k m ≤ n) && decide (n ≤ phHi s k m) && decide (vbLo s k m - 1 / 5 ≤ v) &&
    decide (v ≤ vbHi s k m + 1 / 5))

/-- Bank m is eligible at the operating point of the sample (R178). -/
def bankEligible (s : State) (k : LoopId) (m : Nat) : Bool :=
  let n := s.loops[k].ph.active.length
  bankState s k m == 2 && phLo s k m != 0 && decide (phLo s k m ≤ n) && decide (n ≤ phHi s k m) &&
    busFits s k m (ofQ (s.loops[k].eng.y.getD 2 0))

/-- Automatic selection runs (R177). -/
def autoRuns (s : State) (k : LoopId) : Bool :=
  loopState s k == 3 && s.getN (O.BANK_FORCE k) == 255 && !grounded s k && !observing s k

/-- Consecutive samples in which each bank has been eligible while the active one failed R180 (R181). -/
def countBanks (s : State) (k : LoopId) : State :=
  let on := autoRuns s k && bankFails s k
  let el := (List.range 4).map fun m =>
    runOf (on && m != bankActive s k && bankEligible s k m) (s.loops[k].eng.eligible.getD m 0)
  s.modLoop k fun l => { l with eng := { l.eng with eligible := el } }

/-- The sums for the means over 1 µs (R110, R428, R716), and the peak u0 (R460; log entry 50). -/
def countMeans (s : State) (k : LoopId) (u0 : Rat) : State :=
  let learn := loopState s k = 3 ∧ s.getN (O.VS_STATE k) = 0 ∧ s.isOn (O.VLS_FIT k) = true ∧ bits (s.getN (O.FBL_FLAGS k)) 0 5 = 0
  let plane := (s.getN (O.VLS_RPLANE k) : Rat) / 1000000
  let valid := s.getB (O.FBL_FLAGS k) 5
  s.modLoop k fun l =>
    let i : Rat := (l.sn.isum : Rat) / 256
    { l with
      th := { l.th with vSum := l.th.vSum + l.sn.vout, iSum := l.th.iSum + i, n := l.th.n + 1, peakU0 := max l.th.peakU0 u0 }
      tel := { l.tel with n := l.tel.n + 1, v := l.tel.v + l.sn.vout, i := l.tel.i + i, d := l.tel.d + l.eng.dutyRatio,
                          b := l.tel.b + s.fb.vbus, lo := if l.tel.n = 0 then l.sn.vout else min l.tel.lo l.sn.vout,
                          hi := if l.tel.n = 0 then l.sn.vout else max l.tel.hi l.sn.vout }
      sn := if learn then { l.sn with learnSum := l.sn.learnSum + (l.sn.remote - l.sn.local_ + plane * i), learnN := l.sn.learnN + 1 }
            else { l.sn with learnSum := 0, learnN := 0, updates := if valid then l.sn.updates else 0 } }

/-! ### Boundaries -/

/-- VLS_OFFSET takes a value, in µV. -/
def putOffset (s : State) (k : LoopId) (v : Rat) : State :=
  (s.modLoop k fun l => { l with sn := { l.sn with offset := v } }).set (O.VLS_OFFSET k)
    (clampI (toStep (v * 1000000)) (-256000) 256000)

/-- The offset that local sense uses: the value written 6 µs to 7 µs before the detection, that is the latest one 6 µs old or
older; where the values kept hold none so old, the oldest of them (R112; log entry 51). -/
def heldOffset (s : State) (k : LoopId) : Rat :=
  let o := s.loops[k].sn.offsets
  match o.find? fun e => decide (e.1 + 12000 ≤ s.loops[k].eng.tick) with
  | some e => e.2
  | none => (o.getLast?.map Prod.snd).getD s.loops[k].sn.offset

/-- The runs of the detectors of one channel start afresh as the loop turns to the other (R135 to R138), with the next sample:
another condition of the present sample still joins (R139). -/
def freshRuns (s : State) (k : LoopId) : State := s.modLoop k fun l => { l with sn := { l.sn with fresh := true } }

/-- The loop takes local sense (R112, R138; log entry 51). -/
def enterLocal (s : State) (k : LoopId) (code : Nat) : State :=
  freshRuns ((putOffset s k (heldOffset s k)).setN (O.VS_STATE k) code) k

/-- A write of VS_SRC_SEL acts at its sample boundary (R138, R148). -/
def sourceTurns (s : State) (k : LoopId) (v : Nat) : State :=
  if v = 1 then
    if isOff s k then s
    else if observing s k then
      (putOffset s k (heldOffset s k)).modLoop k fun l =>
        { l with sn := { l.sn with good := if l.sn.obsLocal then l.sn.good else 0, obsLocal := true } }
    else if s.getN (O.VS_STATE k) = 0 then (enterLocal s k 2).bump (O.FBL_COUNT k)
    else s
  else if s.getN (O.VS_STATE k) = 1 ∨ s.getN (O.VS_STATE k) = 2 then
    recordLoop (freshRuns (s.setN (O.VS_STATE k) 0) k) 0x0437 k
  else s

/-- Settings whose effective sample has come are in force (R50): a waiting LOADI (R429), a waiting source (R148), the changes of
the active set (R314, R327). -/
def sampleSettings (s : State) (k : LoopId) : State :=
  let s := s.modLoop k fun l =>
    { l with eng := { l.eng with sample := l.eng.sample + 1 },
             ph := { l.ph with lag := l.ph.lag.filter fun e => decide (l.eng.sample + 1 < e.2.2) } }
  let now := s.loops[k].eng.sample
  let s := match s.loops[k].ph.liNext with
    | some (i, u, n) =>
      if n ≤ now then s.modLoop k fun l => { l with ph := { l.ph with li := i, liUntil := some u, liNext := none } } else s
    | none => s
  let s := match s.loops[k].sn.srcNext with
    | some (v, n) =>
      if n ≤ now then sourceTurns (s.modLoop k fun l => { l with sn := { l.sn with srcNext := none } }) k v else s
    | none => s
  takePlan (planChanges s k) k

/-- A PSTATE that waits is applied at the first sample of its effective one on in which SK_STATE reads INKED or IDLE (R279,
R426): the phase budget, and where it lies below the cells the master has decided on, their shed (R328). -/
def pstateDue (s : State) (k : LoopId) : State :=
  match s.loops[k].ph.pstate with
  | none => s
  | some (b, p, n) =>
    if skState s k = 1 ∨ skState s k = 3 ∨ s.loops[k].eng.sample < n then s
    else
      let s := (s.setN (O.PS_BUDGET k) b).setN (O.PS_POWER k) p
      let s := s.modLoop k fun l => { l with ph := { l.ph with pstate := none } }
      if loopState s k = 3 ∧ b < (planned s k).length then decideChange s k (.budget b) else s

/-- A forced bank that waits takes effect at its boundary (R182, R183), with event 0x0408, which carries the bank's number in one
byte (log entry 85). -/
def forcedBank (s : State) (k : LoopId) : State :=
  match s.loops[k].eng.force with
  | some (m, n) =>
    if observing s k || grounded s k || decide (s.loops[k].eng.sample < n) then s
    else
      let s := s.modLoop k fun l => { l with eng := { l.eng with force := none } }
      if bankState s k m = 2 ∧ bankActive s k ≠ m then recordLoop (switchBank s k m) 0x0408 k (leBytes 1 m) else s
  | none => s

/-- The soft-stop has reached SS_END: every cell is shed, or the stop ends where none is left (R392). -/
def softstopEnd (s : State) (k : LoopId) : State :=
  if loopState s k = 4 ∧ s.loops[k].sp.now = quarter (s.ef k (O.SS_END k)) ∧ !s.loops[k].ctl.ending then
    let s := s.modLoop k fun l => { l with ctl := { l.ctl with ending := true } }
    let s := if (planned s k).isEmpty then s else decideChange s k (.cells (planned s k))
    if noneLeft s k then softstopDone s k else s
  else s

/-- ENG_FLAGS and STSAT_CNT after row results that saturated (R163). -/
def noteSat (s : State) (k : LoopId) (n : Nat) : State :=
  if n = 0 then s else (s.setBitAt (O.ENG_FLAGS k) 4 true).bumpBy (O.STSAT_CNT k) n

/-! ### The sample (R184, R185, R262, R263) -/

/-- The words of nodes 0x00 to 0x1F (R732). -/
def nodesOf (s : State) (k : LoopId) (x e : List Int) (f : Formed) (sf rNext rip groundU : Rat) (isum : Int) (conf : Bool)
    (skDuty : Int) : List Nat :=
  let l := s.loops[k]
  let q (v : Rat) := twos 32 (toQ v)
  (x.take 12).map (twos 32) ++ (e.take 4).map (twos 32) ++ (l.eng.y.take 4).map (twos 32) ++
    [q f.u0, q f.u1, twos 32 f.duty, twos 32 skDuty, q (bffNow s k), q rip, q (l.sp.now + l.sk.bias - l.eng.r), q l.eng.r,
     twos 16 (toStep (sf * 4096)), q (currentBand s k sf rNext isum).1,
     if grounded s k then q groundU else Config.openNode 0x1E % 2 ^ 32,
     b2n (l.eng.overrun || l.eng.late) + 2 * b2n conf + 4 * b2n (grounded s k) + 8 * b2n (observing s k) + 16 * skState s k]

/-- The transfer of R201 on the first sample of the full law: the estimate of the integrator takes the difference, or a
blend term does. -/
def groundReturn (s : State) (k : LoopId) (img : List Byte) (x : List Int) : State × List Int :=
  if s.loops[k].eng.back then
    let s' := s.modLoop k fun l => { l with eng := { l.eng with back := false } }
    let d := ofQ s.loops[k].eng.ut0 - ofQ (lawRow img 0 x).1
    let i := idxInteg img
    let c := coefAt img (280 + i)
    if i < 12 ∧ c ≠ 0 then
      (s', x.set i (clampI (x.getD i 0 + toQ (-d / ((c : Rat) / 268435456 * (2 ^ expK img 0 : Nat)))) (-2147483648) 2147483647))
    else
      let n := s.getN (O.GL_BLEND k)
      (s'.modLoop k fun l => { l with eng := { l.eng with blends := l.eng.blends ++ [⟨d, n, n⟩] } }, x)
  else (s, x)

/-- Stages 2 to 6 of a sample that has been fetched. `confSum` is the summed current of R268; `ok3` marks y3 valid (log
entry 73). Three points that the rules leave open: the rows of stage 4 count in STSAT and STSAT_CNT on the ground law too, though
its duty does not use them (log entry 86); the transfer of R201 belongs to the first full-law sample, and is dropped where that
sample is abandoned (log entry 87); a result that misses its deadline leaves the estimate's transfer in place. -/
def computeSample (s : State) (k : LoopId) (i : SampleIn) (confSum : Int) (ok3 : Bool) : State :=
  let img := activeImage s k
  let row := s.getN (O.LSAT_ROW k)
  let sf := lsatNow s k
  let isum := s.loops[k].sn.isum
  let (e, n1) := innovation img s.loops[k].eng.x s.loops[k].eng.y
  let used := usedInnovation s k img e ok3
  let (x1, n2) := observe img row sf s.loops[k].eng.x [s.loops[k].eng.ut0, s.loops[k].eng.ut1] used
  let (s, x1) := groundReturn s k img x1
  let l := s.loops[k]
  let (spN, slN) := spStep s k l.sp.now
  let rN := inQ (aimOf s k spN (biasStep s k l.sk.bias).1 (droopOf s k isum slN))
  let rip := rippleNow s k
  let f := inQ (rip + l.sk.term + (l.eng.blends.map fun b : Blend => b.v * (b.left : Rat) / (b.total : Rat)).sum)
  let (ut0, ut1, n3) := lawOf img x1
  let (gu, gi, ge) := groundLaw s k rN rip
  let run := runAvail s k img && (skState s k == 1 || skState s k == 2) && !grounded s k
  let head := l.sk.chain.headD (0, 0, 0)
  let full4 := run && !l.sk.reset && l.sk.chain.length == 4
  let conf := full4 && decide (absR (ofQ (l.eng.y.getD 0 0) - ofQ head.1) ≤ quarter (s.ef k (O.SK_CONF_V k)))
  let ovr := (i.overrun || i.abandoned) && !conf && !grounded s k
  let lateSum := (regionsOf s k).filter (upLate s k)
  let lateConf := conf && i.lateConfirm.any fun r => (followersOf s k).contains r.val
  let late := !lateSum.isEmpty || lateConf
  let form :=
    if grounded s k then formDuty s k sf rN isum gu 0 1 0 rip
    else if conf then fullDuty s k img sf rN f confSum head.2.1 head.2.2
    else fullDuty s k img sf rN f isum ut0 ut1
  let skDuty := if l.sk.chain.isEmpty then 0 else (fullDuty s k img sf rN f isum head.2.1 head.2.2).duty
  let s := s.modLoop k fun l =>
    { l with
      eng := { l.eng with
        xPrev := l.eng.x, x := if i.abandoned then l.eng.x else x1, e := e, rNext := rN, overrun := ovr, late := late,
        confirmed := conf, result := if ovr || conf then none else some form, lateMap := (lateSum.map fun r => 2 ^ r).sum,
        redo := if i.abandoned || grounded s k then none else some ⟨l.eng.x, used, sf, rN, f, isum⟩,
        gi := if grounded s k then gi else l.eng.gi, ePrev := if grounded s k then ge else l.eng.ePrev,
        gFirst := if grounded s k then false else l.eng.gFirst, s := sf,
        blends := (l.eng.blends.map fun b => { b with left := b.left - 1 }).filter fun b => b.left != 0 }
      track := Vector.ofFn fun r : Fin 8 => { l.track[r] with lateUp := runOf (lateSum.contains r.val) l.track[r].lateUp } }
  let s := s.modLoop k fun l =>
    { l with eng := { l.eng with nodes := nodesOf s k l.eng.x used form sf rN rip gu isum conf skDuty } }
  let s := (s.set (O.LSAT_S k) (toStep (sf * 4096))).setF (O.BFF_STAT k) (bffFloor s k)
  let s := (s.setF (O.LI_STAT k) ok3)
  let s := if i.corrected then s.setBitAt (O.ENG_FLAGS k) 5 true else s
  let s := if conf then (latchForm s k form i.lateConfirm (confirmOf s k)).bump64 (O.SK_CONF_CNT k) 1 else s
  let s := s.modLoop k fun l =>
    { l with sk := { l.sk with chain := if conf then l.sk.chain.drop 1 else l.sk.chain,
                               reset := l.sk.reset || (full4 && !conf) || lateConf } }
  let (s, n4) := if run && !i.abandoned then runAhead s k img row sf s.loops[k].eng.x form.ut0 form.ut1
    else (s.modLoop k fun l => { l with sk := { l.sk with reset := true, chain := [], avail := runAvail s k img } }, 0)
  let after := conf && (decide ((s.efN k (O.SK_CONF_I k) : Rat) < absR (ofQ (used.getD 1 0)) * 1000) ||
    decide ((currentBand s k sf rN isum).1 < form.u0))
  let s := if after then s.modLoop k fun l => { l with sk := { l.sk with reset := true, chain := [] } } else s
  countMeans (noteSat s k (n1 + n2 + n3 + n4)) k form.u0

/-- The latches whose inputs the samples of a loop decide (R782). -/
def sampleLatches (k : LoopId) : List LatchId := [.loop k 1, .loop k 2, .loop k 3, .loop k 8, .loop k 9]

/-- One sample of a loop in RAMP, REGULATE or SOFTSTOP. -/
def runSample (s : State) (k : LoopId) (i : SampleIn) : State :=
  let s := advanceAim (forcedBank s k) k
  let (s, confSum, ok3) := fetchSample s k i
  let s := if i.proofEcc && skState s k == 1 then
      sketchErase (s.modLoop k fun l => { l with sk := { l.sk with dead := true } }) k 0
    else s
  let s := pstateDue (sketchBoundary s k) k
  let s := computeSample s k i confSum ok3
  let s := countPgood (countTrips (countSense (noteInputs s (sampleLatches k)) k) k) k
  noteInputs (softstopEnd (countBanks (countPhases s k) k) k) (sampleLatches k)

/-- The tick lies in a sample slot of the loop: where the master's engine serves two loops, the lower-numbered loop takes the
even slots of 40 ns and the other the odd ones (R31, R186). The first tick after the region's power-up, or after a commit, sets
where the even slots lie. -/
def slotOpen (s : State) (k : LoopId) (tick : Nat) : Bool :=
  if s.getN (O.LOOP_RATE k) = 12500000 then
    match s.regions[regionOf (masterOf s k)].slot with
    | some e => tick % 160 == (e + if (heldBy s (masterOf s k)).headD k == k.val then 0 else 80) % 160
    | none => true
  else true

/-- The place of the even slots by a tick of a loop. -/
def noteSlot (s : State) (k : LoopId) (tick : Nat) : State :=
  if s.getN (O.LOOP_RATE k) = 12500000 then
    s.modRegion (regionOf (masterOf s k)) fun g =>
      { g with slot := some ((tick + if (heldBy s (masterOf s k)).headD k == k.val then 0 else 80) % 160) }
  else s

/-- The master of a loop that spans several regions sends the payload of its marker (R83). -/
def sendMarker (s : State) (k : LoopId) : State :=
  s.modLoop k fun l =>
    { l with eng := { l.eng with
      marker := if (followersOf s k).isEmpty then none
        else some (l.eng.sample, counterAt s k (regionOf (masterOf s k)) l.eng.tick) } }

/-- The master sample tick of a loop (R184). Outside RAMP, REGULATE and SOFTSTOP the engine does no work for the loop
(R198); the tick still counts the samples that R50 and R88 name, and sends its marker (R83). -/
def execLoopSampleTick (k : LoopId) (i : SampleIn) (s : State) : Out :=
  let m := masterOf s k
  if m = 255 ∨ !regionReady s m ∨ !pllLocked s m ∨ !slotOpen s k i.tick then .next s
  else
    let s := (noteSlot s k i.tick).modLoop k fun l => { l with eng := { l.eng with tick := i.tick } }
    let s := sendMarker (sampleSettings s k) k
    let s := if running s k then runSample s k i
      else if loopState s k = 1 then
        pstateDue (forcedBank (s.modLoop k fun l => { l with ctl := { l.ctl with armedSamples := l.ctl.armedSamples + 1 } }) k) k
      else pstateDue s k
    .next (trTick s k)

/-! ### The deadline (R76, R189 to R192) -/

/-- A deadline miss is counted (R192, R196; log entry 73). -/
def countMiss (s : State) (k : LoopId) (ovr late : Bool) : State :=
  let s := s.setBitAt (O.ENG_FLAGS k) 0 true
  let s := if ovr then s.setBitAt (O.ENG_FLAGS k) 2 true else s
  let s := if late then s.setBitAt (O.ENG_FLAGS k) 3 true else s
  let s := (s.bump (O.MISS_CNT k)).bump64 (O.MISS_TOTAL k) 1
  let s := s.setN (O.MISS_CONSEC k) (min 64 (s.getN (O.MISS_CONSEC k) + 1))
  let b := s.uptime / 1000
  s.modLoop k fun l =>
    let bins := match l.eng.bins with
      | (i, n) :: rest => if i = b then (i, n + 1) :: rest else (b, 1) :: (i, n) :: rest
      | [] => [(b, 1)]
    { l with eng := { l.eng with bins := bins.take 10, missAt := some l.eng.tick }, tel := { l.tel with miss := l.tel.miss + 1 } }

/-- What the twin link takes of a sample: an ACTIVE sends a duty digest, a shadow keeps its own duty and estimate for 64
samples (R555, R559, R564). -/
def digestStep (s : State) (k : LoopId) : State :=
  let e := s.loops[k].eng
  if role s = 1 then
    let d : Digest := ⟨.loop k, e.sample, Fin.ofNat 256 (e.duty / 256 % 256).toNat, if e.sample % 64 = 0 then [e.duty] else []⟩
    { s with twin := { s.twin with digest := some d } }
  else if standby s then
    s.modLoop k fun l => { l with eng := { l.eng with past := ((e.sample, e.duty, e.x) :: l.eng.past).take 64 } }
  else s

/-- The sample deadline: every region of the loop latches the duty and distributes it; a follower that lacks it keeps the
previous one (R76, R79); the sample counts as a miss where R189 says so. A follower that had no confirmed duty in time counts as
late in this sample (R79, R81, R263). -/
def execSampleDeadlineLatch (k : LoopId) (late : List RegionId) (s : State) : Out :=
  let m := masterOf s k
  if m = 255 ∨ !regionReady s m ∨ !pllLocked s m then .next s
  else
    if running s k then
      let late := late.filter fun r => (followersOf s k).contains r.val
      let sb := s.loops[k].eng.late || !late.isEmpty
      let ovr := s.loops[k].eng.overrun
      let lateConf (r : RegionId) := s.loops[k].eng.confirmed && (followersOf s k).contains r.val &&
        (downDuty s k r 0).isNone
      let s := noteInputs s (sampleLatches k)
      let s := match s.loops[k].eng.result with
        | some f => latchForm s k f late (deadlineOf s k)
        | none => s
      let s := digestStep s k
      let s := s.modLoop k fun l =>
        { l with track := Vector.ofFn fun r : Fin 8 => { l.track[r] with lateDown := runOf (late.contains r || lateConf r) l.track[r].lateDown }
                 eng := { l.eng with late := sb, redo := none, lateMap := (List.range 8).foldl (fun m r =>
                   if late.any (fun q => q.val == r) && !bit m r then m + 2 ^ r else m) l.eng.lateMap } }
      if ovr || sb then .next (noteInputs (countMiss s k ovr sb) (sampleLatches k))
      else .next ((s.setN (O.MISS_CONSEC k) 0).modLoop k fun l => { l with eng := { l.eng with runNoted := false } })
    else .next s

/-- 64 consecutive late samples in one direction of a follower (R35, R81). -/
def execSharebusTimeout (k : LoopId) (r : RegionId) (d : BusDir) (s : State) : Out :=
  let t := s.loops[k].track[r]
  let n := match d with | .up => t.lateUp | .down => t.lateDown
  if running s k && (followersOf s k).contains r.val && decide (64 ≤ n) then
    let s := match d with
      | .down => ((cellsOf s k).filter fun n => n / 12 == r.val).foldl (fun s n => stopCell s (cellOf n)) s
      | .up => s
    .next (controlTrip s k 9 (some 0x0421) (.loop k))
  else .next s

end Sys2Proof.Machine
end

