-- ==== Sys2Proof/Machine/Sensing.lean ====
section
/-! DEFINITION. Conversions, the cells' own errors, and feedback loss (R20, R103 to R154). -/

namespace Sys2Proof.Machine

/-! ### IMON and PWM readback (R20, R114 to R117) -/

/-- A cell is switching (R18, R293): it is active, under no request, and has started. -/
def switching (s : State) (n : CellId) : Bool :=
  cellStop s n == 0 && (match loopOfCell s n with | some k => s.loops[k].ph.active.contains n.val | none => false) &&
    !s.cells[n].stopped

/-- The cell is being burnished: its loop's burnish runs, and it is the cell that it measures (R341, R524, R530). -/
def burnished (s : State) (n : CellId) : Bool :=
  match loopOfCell s n with
  | some k => burning s k && burnishCell s k == some n.val
  | none => false

/-- An IMON conversion of a powered cell (R20, R114, R116, R118): the runs of the three detectors go on. The converter of a cell
whose block no loop holds is idle (R61). -/
def execImonConversion (n : CellId) (code : Fin 1024) (aperture : Nat) (mv : Int) (s : State) : Out :=
  if regionReady s (n / 12) ∧ (loopOfCell s n).isSome then
    let s := noteInputs s [.cell n 3]
    let sw := switching s n
    let prev := (s.cells[n].conv.head?.map Prod.snd)
    let out := decide (mv < s.get (O.IMON_PL_LO (n / 4))) || decide (s.get (O.IMON_PL_HI (n / 4)) < mv)
    let s := s.setN (O.IMON_RAW n) code
    .next (noteInputs (s.modCell n fun c =>
      { c with conv := ((aperture, code.val) :: c.conv).take 8
               same := if !sw then 0 else if c.same == 0 || prev != some code.val then 1 else c.same + 1
               sat := runOf (code.val == 0 || code.val == 1023) c.sat
               oor := runOf out c.oor }) [.cell n 3])
  else .next s

/-- 256 equal conversions of a switching cell (R20). -/
def execImonStuck (n : CellId) (s : State) : Out :=
  if regionReady s (n / 12) ∧ switching s n ∧ 256 ≤ s.cells[n].same ∧ latchSet s (.cell n 3) = false then
    .next (cellTrip s n 3 .imon 0x0231)
  else .next s

/-- 16 conversions at code 0 or 1,023 (R20). -/
def execImonSaturated (n : CellId) (s : State) : Out :=
  if regionReady s (n / 12) ∧ 16 ≤ s.cells[n].sat ∧ latchSet s (.cell n 3) = false then
    .next (cellTrip s n 3 .imon 0x0232)
  else .next s

/-- 16 conversions outside the plausibility window (R20, R116). -/
def execImonOutOfRange (n : CellId) (s : State) : Out :=
  if regionReady s (n / 12) ∧ 16 ≤ s.cells[n].oor ∧ latchSet s (.cell n 3) = false then
    .next (cellTrip s n 3 .imon 0x0233)
  else .next s

/-- The classes 0x01 to 0x03 and 0x05 are detected for a cell: it switches, awaits release, is held low by OV_SAFE, or is
being burnished (R341). -/
def cellWatched (s : State) (n : CellId) : Bool :=
  let o := cellDoes s n
  regionReady s (n / 12) && (o == 1 || o == 3 || o == 4 || burnished s n)

/-- The pad level differs from the commanded level in 2 consecutive switching periods (R20). -/
def execPwmReadbackMismatch (n : CellId) (s : State) : Out :=
  if cellWatched s n ∧ latchSet s (.cell n 4) = false then .next (cellTrip s n 4 .readback 0x0234) else .next s

/-- IMREF of a block as the window comparator reports it (R117): inside the window the status clears; outside it for 1 µs
the block reports all four cells under class IMON with one report (log entry 57), once per excursion where every latch stands
already. -/
def execImrefOutOfWindow (b : BlockId) (mv : Nat) (s : State) : Out :=
  if regionReady s (b / 3) then
    let was := s.getN (O.IMREF_STAT b)
    let s := (s.setN (O.IMREF_MEAS b) (min mv 1800)).setN (O.IMREF_STAT b) (b2n (decide (mv < 400)) + 2 * b2n (decide (1600 < mv)))
    if 400 ≤ mv ∧ mv ≤ 1600 then .next s
    else match loopOfBlock s b with
      | none => .next s
      | some k =>
        if isOff s k && !burning s k then .next s
        else
          let cells := ([4 * b.val, 4 * b.val + 1, 4 * b.val + 2, 4 * b.val + 3].map cellOf).filter fun n => !latchSet s (.cell n 3)
          if cells.isEmpty && was != 0 then .next s
          else
            let s := cells.foldl (fun s n =>
              let s := noteShed ((setLatch s (.cell n 3)).bump (O.CELL_TRIP_CNT n)) k .imon n
              if isOff s k then (stopCell s n).modCell n fun c => { c with acted := true } else s) s
            let s := report s .imon (.loop k) (.block b) 0x0439
            .next (if isOff s k then s else tripWaits s k (policyOf s k .imon))
  else .next s

/-! ### Bus and input voltage (R122 to R124) -/

/-- Volts of a 12-bit code over 1.2 V behind a divider in units of 0.01. -/
def dividerVolts (code div : Nat) : Rat := (code : Rat) * (12 / 10) / 4096 * (div : Rat) / 100

/-- The bus that a burnish needs without a front stage: the larger of 4.5 V and VBUS_MIN_L, mV (R522). -/
def burnishBus (s : State) (k : LoopId) : Rat := (max 4500 (s.getN (O.VBUS_MIN_L k)) : Nat)

/-- Without a front stage, a burnish whose bus has fallen is abandoned (R537). -/
def burnishBusCheck (s : State) : State :=
  if s.getN O.FB_MASK = 0 then
    eachLoop s fun s k => if busMv s < burnishBus s k then burnishAbandon s k else s
  else s

/-- The latches whose inputs a bus conversion decides (R782). -/
def busLatches : List LatchId := (List.finRange 8).flatMap (fun k => [.loop k 4, .loop k 5]) ++ [.fb 0, .fb 1]

/-- A bus conversion, the runs of the bus classes (R122, R340, R341), and the burnishes that need the bus (R537; log entry
64). -/
def execBusConversion (code : Fin 4096) (s : State) : Out :=
  if s.chip.main then
    let s := noteInputs s busLatches
    let v := dividerVolts code (s.getN O.VBUS_DIV)
    let s := { s with fb := { s.fb with vbus := v, vbusCode := code, vbusLast := (v :: s.fb.vbusLast).take 5 } }
    let s := s.setN O.VBUS_MEAS (min 30000 (toStep (v * 1000)).toNat)
    let s := eachLoop s fun s k =>
      let lo := running s k && decide (v * 1000 < s.efN k (O.VBUS_MIN_L k))
      let hi := running s k && decide ((s.efN k (O.VBUS_MAX_L k) : Rat) < v * 1000)
      s.modLoop k fun l => { l with sn := { l.sn with busLo := runOf lo l.sn.busLo, busHi := runOf hi l.sn.busHi } }
    let ov := fbState s != 0 && decide ((s.getN O.FB_OV : Rat) < v * 1000)
    let uv := fbState s == 3 && decide (v * 1000 < s.getN O.FB_UV)
    let s := { s with fb := { s.fb with fbOv := runOf ov s.fb.fbOv, fbUv := runOf uv s.fb.fbUv } }
    .next (burnishBusCheck (noteInputs s busLatches))
  else .next s

/-- An input conversion, and the run of VIN_UV (R124, R340). -/
def execVinConversion (code : Fin 4096) (s : State) : Out :=
  if s.chip.main then
    let s := noteInputs s [.fb 3]
    let v := dividerVolts code (s.getN O.VIN_DIV)
    let s := s.setN O.VIN_MEAS (min 120000 (toStep (v * 1000)).toNat)
    let uv := fbState s != 0 && decide (v * 1000 < s.getN O.VIN_UV)
    .next (noteInputs { s with fb := { s.fb with vin := v, vinCode := code, vinUv := runOf uv s.fb.vinUv } } [.fb 3])
  else .next s

/-! ### Offset learning and calibrations (R110 to R112, R126, R127) -/

/-- The learning step of each microsecond (R110, R111): the first mean is taken whole, later ones through the filter (log
entry 50). -/
def execVlsOffsetLearn (k : LoopId) (s : State) : Out :=
  let n := s.loops[k].sn
  let learn := loopState s k == 3 && s.getN (O.VS_STATE k) == 0 && s.isOn (O.VLS_FIT k) && bits (s.getN (O.FBL_FLAGS k)) 0 5 == 0
  if learn ∧ 0 < n.learnN then
    let mean := n.learnSum / n.learnN
    let v := if n.updates = 0 then mean else n.offset + (mean - n.offset) / 1024
    let s := putOffset s k v
    let s := s.modLoop k fun l =>
      { l with sn := { l.sn with updates := n.updates + 1, offsets := ((l.eng.tick, v) :: l.sn.offsets).take 8, learnSum := 0, learnN := 0 } }
    .next (if 1025 ≤ n.updates + 1 then s.setBitAt (O.FBL_FLAGS k) 5 true else s)
  else .next s

/-- A zero calibration of a loop's entry to ARMED is complete: of the window ADCs, with the means of their remote and local
channels, or of one cell (R126, R127). -/
def execZeroCalDone (k : LoopId) (cell : Option CellId) (zero zeroLocal : Rat) (s : State) : Out :=
  if loopState s k = 1 ∨ (burning s k ∧ cell = none) then
    match cell with
    | none => .next (s.modLoop k fun l =>
        { l with ctl := { l.ctl with winZero := true }, sn := { l.sn with zero := zero, zeroLocal := zeroLocal } })
    | some n =>
      if loopOfCell s n = some k ∧ regionReady s (n / 12) then .next (s.modCell n fun c => { c with zeroDone := true, zero := zero })
      else .next s
  else .next s

/-! ### Feedback loss (R130 to R149) -/

/-- The sense bias at VSPn and VSNn, µA: the device that holds TWTOKEN sources 2 µA into VSPn and sinks 2 µA from VSNn, and it
moves with the token; a device in role STANDBY sources none (R131, R134). -/
def senseBias (s : State) : Int × Int := if s.twin.token && role s != 2 then (2, -2) else (0, 0)

/-- The sample in progress is formed again after a feedback loss that it completes (R141, R147): its voltage innovation is zero,
and its duty keeps the limit of 50 %. A confirmed duty has latched already, and an overrun has none; the estimate is corrected
in both. -/
def redoSample (s : State) (k : LoopId) : State :=
  match s.loops[k].eng.redo with
  | none => s
  | some d =>
    let img := activeImage s k
    let row := s.efN k (O.LSAT_ROW k)
    let u := [s.loops[k].eng.ut0, s.loops[k].eng.ut1]
    let old := (observe img row d.s d.x u d.used).1
    let new := (observe img row d.s d.x u (d.used.set 0 0)).1
    let x := ((new.zip old).zip s.loops[k].eng.x).map fun e => clampI (e.2 + (e.1.1 - e.1.2)) (-2147483648) 2147483647
    let l := lawOf img x
    let form := fullDuty s k img d.s d.r d.f d.isum l.1 l.2.1
    s.modLoop k fun l =>
      { l with eng := { l.eng with x := x, result := l.eng.result.map fun _ => form, redo := some { d with used := d.used.set 0 0 } } }

/-- The loop enters OBSERVER-ONLY (R138, R141, R147, R203). -/
def enterObserver (s : State) (k : LoopId) (fromLocal : Bool) (event : Nat) : State :=
  let s := (s.setN (O.VS_STATE k) 3).bump (O.FBL_COUNT k)
  let s := s.modLoop k fun l =>
    { l with sn := { l.sn with obsLocal := fromLocal, blindAt := l.eng.tick, good := 0, limit := 50, restoring := false } }
  let s := amlAlert (recordLoop (redoSample (ilimRefresh s k) k) event k) k 4
  if grounded s k then controlTrip s k 8 (some 0x0406) (.loop k) else s

/-- An open pin, found in the present sample, waits for another condition of the same sample to join it (R139). -/
def openJust (s : State) (k : LoopId) : Bool :=
  s.loops[k].sn.lossOpen && s.loops[k].sn.lossAt == s.loops[k].eng.sample

/-- A feedback loss of the present sample is to be acted on: the loop is not in OBSERVER-ONLY, or entered it in this sample by
an open pin (R130, R138, R139). -/
def lossDue (s : State) (k : LoopId) : Bool := running s k && (!observing s k || openJust s k)

/-- Frozen, saturation run or divergence in REMOTE or LOCAL, or with an open pin of the same sample (R138, R139): `b` is its
FBL_FLAGS bit. -/
def lossOf (s : State) (k : LoopId) (b event : Nat) : State :=
  let n := s.loops[k].sn
  let both := openJust s k
  let src := if both then n.lossValid && s.isOn (O.VLS_FIT k) else onLocal s k
  let remotePair := !onLocal s k
  let code := if onLocal s k then n.localCode else n.code
  let valid := s.getB (O.FBL_FLAGS k) 5
  let s := s.setBitAt (O.FBL_FLAGS k) b true
  let s := s.modLoop k fun l =>
    { l with sn := { l.sn with frozenCode := if b == 2 then some code else none,
                               lossAt := if both then l.sn.lossAt else l.eng.sample, lossOpen := false,
                               lossValid := if both then l.sn.lossValid else valid } }
  let s := if remotePair then offsetInvalid s k else s
  if observing s k then recordLoop s event k else enterObserver s k src event

/-- The filtered output of the window comparator for one pin: a difference beyond the threshold counts once it has lasted
without interruption for 1 µs, and a shorter one leaves the output as it is (R131). -/
def pinOpen (was beyond : Bool) (held : Nat) : Bool := beyond && (was || decide (1000 ≤ held))

/-- The window comparator of the remote pair: VSPn − VLSPn and VSNn − VLSNn, mV, as they have stood for `held` ns, against
OPEN_TH (R131, R138 to R140). The condition is reported in every loop state (R146); the modes change in RAMP, REGULATE and
SOFTSTOP only (R130). -/
def execOpenSenseDetect (k : LoopId) (dp dn : Int) (held : Nat) (s : State) : Out :=
  let s := noteInputs s [.loop k 14]
  let th := s.ef k (O.OPEN_TH k)
  let vsp := pinOpen (s.getB (O.FBL_FLAGS k) 0) (decide (th < dp)) held
  let vsn := pinOpen (s.getB (O.FBL_FLAGS k) 1) (decide (dn < -th)) held
  let s := noteInputs ((s.setBitAt (O.FBL_FLAGS k) 0 vsp).setBitAt (O.FBL_FLAGS k) 1 vsn) [.loop k 14]
  if (vsp || vsn) && running s k then
    let valid := s.isOn (O.VLS_FIT k) && s.getB (O.FBL_FLAGS k) 5
    let n := s.loops[k].sn
    let now := s.loops[k].eng.sample
    if s.getN (O.VS_STATE k) = 0 then
      let s := s.modLoop k fun l =>
        { l with sn := { l.sn with lossAt := now, lossValid := s.getB (O.FBL_FLAGS k) 5, lossOpen := true } }
      if valid then
        let s := (enterLocal s k 1).bump (O.FBL_COUNT k)
        .next (recordLoop (offsetInvalid s k) 0x0430 k)
      else .next (enterObserver (offsetInvalid s k) k false 0x0431)
    else if observing s k && !n.obsLocal then
      let same := n.lossAt == now && n.lossValid && s.isOn (O.VLS_FIT k)
      let toLocal := valid || same
      let s := if toLocal then
          (putOffset s k (heldOffset s k)).modLoop k fun l => { l with sn := { l.sn with obsLocal := true, good := 0 } }
        else s
      let s := offsetInvalid s k
      .next (if n.lossAt = now ∧ n.lossOpen = false then recordLoop s (if same then 0x0430 else 0x0431) k else s)
    else .next (offsetInvalid s k)
  else .next s

/-- Span of a list of values. -/
def spanR : List Rat → Rat
  | [] => 0
  | x :: xs => xs.foldl max x - xs.foldl min x

/-- The condition of R135 over the latest 64 samples. -/
def frozenNow (s : State) (k : LoopId) : Bool :=
  let h := s.loops[k].sn.frz
  let c := (h.map Prod.fst).headD 0
  h.length == 64 && c != 0 && c != 4095 && h.all (fun e => e.1 == c) &&
    (decide ((s.efN k (O.FRZ_DUTY_TH k) : Rat) / 1000 < spanR (h.map fun e => e.2.1)) ||
      decide (shareOf s k (s.efN k (O.FRZ_CUR_TH k)) < spanR (h.map fun e => e.2.2)))

/-- The window ADC is frozen (R135, R138). -/
def execFrozenAdcDetect (k : LoopId) (s : State) : Out :=
  if lossDue s k ∧ frozenNow s k then .next (lossOf s k 2 0x0432) else .next s

/-- A run of saturated samples (R136, R138). -/
def execSatRunDetect (k : LoopId) (s : State) : Out :=
  if lossDue s k ∧ s.efN k (O.SAT_RUN k) ≤ s.loops[k].sn.satRun then .next (lossOf s k 4 0x0434)
  else .next s

/-- The observer diverges (R137, R138). -/
def execDivergenceDetect (k : LoopId) (s : State) : Out :=
  if lossDue s k ∧ (16 ≤ s.loops[k].sn.divV ∨ 16 ≤ s.loops[k].sn.divI) then
    .next (lossOf s k 3 0x0433)
  else .next s

/-- Return to measured operation after 8 good samples, complete before BLIND_MAX has elapsed (R138, R142, R143). -/
def execFblRecover (k : LoopId) (s : State) : Out :=
  let n := s.loops[k].sn
  if running s k ∧ observing s k ∧ 8 ≤ n.good ∧ s.loops[k].ctl.blindStop = false ∧
      s.loops[k].eng.tick < n.blindAt + s.efN k (O.BLIND_MAX k) * 2000 then
    let f := s.getN (O.FBL_FLAGS k)
    let s := s.setN (O.FBL_FLAGS k) (f - bits f 2 3 * 4)
    let s := s.setN (O.VS_STATE k) (if n.obsLocal then (if s.getN (O.VS_SRC_SEL k) = 1 then 2 else 1) else 0)
    let s := s.modLoop k fun l =>
      { l with sn := { l.sn with good := 0, frozenCode := none, frz := [], satRun := 0, divV := 0, divI := 0, restoring := true,
                                 backAt := l.eng.tick } }
    .next (recordLoop s 0x0435 k)
  else .next s

/-- BLIND_MAX has elapsed in OBSERVER-ONLY (R138, R145); a device in role STANDBY only records (R149). -/
def execBlindMaxExpire (k : LoopId) (s : State) : Out :=
  if running s k ∧ observing s k ∧ s.loops[k].ctl.blindStop = false ∧
      s.loops[k].sn.blindAt + s.efN k (O.BLIND_MAX k) * 2000 ≤ s.loops[k].eng.tick then
    let s := recordLoop s 0x0436 k
    if standby s then .next s
    else if loopState s k = 4 then .next (controlTrip s k 12 none (.loop k))
    else .next (enterSoftstop (s.modLoop k fun l => { l with ctl := { l.ctl with blindStop := true } }) k)
  else .next s

/-- The time of the next step of the current limit: the n-th one 10 µs · n after the return (R143). -/
def restoreAt (s : State) (k : LoopId) : Nat := s.loops[k].sn.backAt + ((s.loops[k].sn.limit - 50) / 5 + 1) * 20000

/-- One of the ten steps by which the current limit returns, one every 10 µs (R143). -/
def execIlimRestoreStep (k : LoopId) (s : State) : Out :=
  if s.loops[k].sn.restoring ∧ s.loops[k].sn.limit < 100 ∧ restoreAt s k ≤ s.loops[k].eng.tick then
    let s := s.modLoop k fun l =>
      { l with sn := { l.sn with limit := l.sn.limit + 5, restoring := decide (l.sn.limit + 5 < 100) } }
    .next (ilimRefresh s k)
  else .next s

/-- A write of VS_SRC_SEL waits for its sample boundary (R49, R50, R148). -/
def sourceWaits (s : State) (k : LoopId) (v : Nat) : State :=
  let (n, s) := s.effSample k
  s.modLoop k fun l => { l with sn := { l.sn with srcNext := some (v, n) } }

/-- The effect of a write to VS_SRC_SEL (R138, R148); the abort code is answered (log entry 51). -/
def vsSrcSelPut (s : State) (k : LoopId) (v : Nat) : State × Nat :=
  let open_ := s.getB (O.FBL_FLAGS k) 0 || s.getB (O.FBL_FLAGS k) 1
  if v = 1 then
    if !s.isOn (O.VLS_FIT k) || (!isOff s k && !s.getB (O.FBL_FLAGS k) 5) then (s, 0xA030)
    else
      let s := s.setN (O.VS_SRC_SEL k) 1
      if isOff s k then (if s.getN (O.VS_STATE k) = 2 then s else (s.setN (O.VS_STATE k) 2).bump (O.FBL_COUNT k), 0)
      else (sourceWaits s k 1, 0)
  else if open_ || observing s k then (s, 0xA030)
  else
    let s := s.setN (O.VS_SRC_SEL k) 0
    if isOff s k then (if s.getN (O.VS_STATE k) = 0 then s else recordLoop (freshRuns (s.setN (O.VS_STATE k) 0) k) 0x0437 k, 0)
    else (sourceWaits s k 0, 0)

end Sys2Proof.Machine
end

