-- ==== Sys2Proof/Machine/Banks.lean ====
section
/-! DEFINITION. Staged copies, bank commands, bank selection, ECC and the ground law (R164 to R203). -/

namespace Sys2Proof.Machine

/-! ### Staging copies and working copies (R41, R602) -/

/-- The requester's staging copy of an object, empty where it has none. -/
def staged (s : State) (q : Requester) (a : Addr) : List Byte := (lookupAt (s.rqOf q).staging a).getD []

/-- The requester's staging copy of an object is discarded. -/
def dropStaged (s : State) (q : Requester) (a : Addr) : State :=
  s.modReq q fun r => { r with staging := eraseAt r.staging a }

/-- The working copy of a DOM or TAB object is replaced; its pages are dirty (R699). -/
def putBlob (s : State) (a : Addr) (bs : List Byte) : State :=
  let p := match rowOf a with
    | some r => if r.plate then
        (List.range ((max r.len bs.length + 255) / 256)).foldl (fun p i => p.touch ((pageFor r a + i) % 768)) s.plate
      else s.plate
    | none => s.plate
  { s with blobs := if bs.isEmpty then eraseAt s.blobs a else insertAt s.blobs a bs, plate := p }

/-! ### BANK_CMD (R168 to R171) -/

/-- The first failing check of a commit of bank m, 0 for none (R168). -/
def commitCheck (s : State) (q : Requester) (k : LoopId) (m : BankId) : Nat :=
  if bankActive s k = m then 1
  else if bankState s k m = 1 then 2
  else bankCheck (staged s q (O.BANK k m))

/-- The master region of the loop is powered. -/
def masterUp (s : State) (k : LoopId) : Bool :=
  decide (masterOf s k < 8) && s.getN (O.RG_STATE (masterOf s k)) != 0

/-- A bank becomes VALID; a loop whose arming waited for a bank is judged again (R387). -/
def bankValid (s : State) (k : LoopId) (m : BankId) : State := rearm (setBankState s k m 2) k

/-- Bank m is no longer VALID by a command: its run of eligible samples ends (R178, R181). -/
def bankLeaves (s : State) (k : LoopId) (m : BankId) : State :=
  s.modLoop k fun l => { l with eng := { l.eng with eligible := l.eng.eligible.set m.val 0 } }

/-- The commit of a staged bank image (R168, R170). -/
def bankCommit (s : State) (q : Requester) (k : LoopId) (m : BankId) : State × Nat :=
  let c := commitCheck s q k m
  if c = 0 then
    let img := staged s q (O.BANK k m)
    let s := dropStaged (putBlob s (O.BANK k m) img) q (O.BANK k m)
    let s := bankLeaves ((setBankState (bankInfo s k m img) k m 1).setN (O.BANK_ERR k) 0) k m
    (if masterUp s k then s else bankValid s k m, 0)
  else (recordLoop (s.setN (O.BANK_ERR k) c) 0x0405 k, bankAbort c)

/-- The command that empties a bank (R171). -/
def bankEmpty (s : State) (k : LoopId) (m : BankId) : State × Nat :=
  if bankActive s k = m then (s, 0xA032)
  else if bankState s k m = 1 then (s, 0xA030)
  else (bankLeaves (setBankState (bankInfo (putBlob s (O.BANK k m) []) k m []) k m 0) k m, 0)

/-- A bank image has arrived in the master region's coefficient memory (R170). -/
def execBankLoadDone (k : LoopId) (m : BankId) (s : State) : Out :=
  if bankState s k m = 1 then .next (bankValid s k m) else .next s

/-! ### Selection (R175 to R183) -/

/-- The effect of a write to BANK_FORCE (R182): in ARMED, and in the states in which the engine runs, the bank waits for the
sample boundary of R49 or R50; in the others arming reads it (R175). The abort code is answered. -/
def bankForcePut (s : State) (k : LoopId) (v : Nat) : State × Nat :=
  if v = 255 then
    ((s.setN (O.BANK_FORCE k) 255).modLoop k fun l => { l with eng := { l.eng with force := none } }, 0)
  else if bankState s k v ≠ 2 then (s, 0xA030)
  else
    let s := s.setN (O.BANK_FORCE k) v
    if running s k ∨ loopState s k = 1 then
      let (n, s) := s.effSample k
      (s.modLoop k fun l => { l with eng := { l.eng with force := some (v, n) } }, 0)
    else (s, 0)

/-- Automatic selection after 16 eligible samples (R181, R183). -/
def execBankAutoSwitch (k : LoopId) (s : State) : Out :=
  if autoRuns s k then
    match (List.range 4).find? fun m => bankState s k m == 2 && decide (16 ≤ s.loops[k].eng.eligible.getD m 0) with
    | some m => .next (switchBank s k m)
    | none => .next s
  else .next s

/-! ### ECC and the ground law (R194 to R203) -/

/-- The loop goes on the ground law from the next sample (R196, R200). -/
def enterGround (s : State) (k : LoopId) : State :=
  if grounded s k then s
  else
    (amlAlert ((s.setBitAt (O.ENG_FLAGS k) 1 true).bump (O.GROUND_CNT k)) k 5).modLoop k fun l =>
      { l with eng := { l.eng with gFirst := true, back := false, blends := [], gi := 0, ePrev := 0 } }

/-- The sample in progress becomes an overrun by an uncorrectable ECC error, with its estimate (R194, R195). -/
def eccError (s : State) (k : LoopId) (x : List Int) : State :=
  let s := (s.setBitAt (O.ENG_FLAGS k) 6 true).modLoop k fun l =>
    { l with eng := { l.eng with result := none, overrun := true, confirmed := false, x := x } }
  let s := if abdicates s 2 then { s with twin := { s.twin with abdDue := true } } else s
  enterGround (recordLoop s 0x0407 k) k

/-- An uncorrectable ECC error in the active bank (R194). -/
def execEccUncorrectableBank (k : LoopId) (s : State) : Out :=
  if running s k ∧ bankActive s k < 4 then
    .next (eccError (setBankState s k (bankActive s k) 3) k s.loops[k].eng.xPrev)
  else .next s

/-- The twelve elements of x0 of an image (R164). -/
def x0Of (img : List Byte) : List Int := (List.range 12).map fun i => coefAt img (306 + i)

/-- An uncorrectable ECC error in the state memory (R195). -/
def execEccUncorrectableState (k : LoopId) (s : State) : Out :=
  if running s k then .next (eccError s k (x0Of (activeImage s k))) else .next s

/-- MISS_CONSEC has reached 4 (R196): event 0x0402, once in a run of misses; on a loop that is on the ground law already, by an
earlier run or by an ECC error, the row's event is recorded too (log entry 88). -/
def execGroundLawEntry (k : LoopId) (s : State) : Out :=
  if running s k ∧ s.loops[k].eng.runNoted = false ∧ 4 ≤ s.getN (O.MISS_CONSEC k) then
    .next (enterGround (recordLoop (s.modLoop k fun l => { l with eng := { l.eng with runNoted := true } }) 0x0402 k) k)
  else .next s

/-- The criterion of R196 by which misses take a loop to FAULT. -/
def missCriterion (s : State) (k : LoopId) : Nat := if 64 ≤ s.getN (O.MISS_CONSEC k) then 1 else 2

/-- MISS_CONSEC has reached 64, or the window of ten intervals 1,000 misses (R196, R199): event 0x0404 with the criterion (log
entry 81). -/
def execMissFault (k : LoopId) (s : State) : Out :=
  if running s k ∧ (64 ≤ s.getN (O.MISS_CONSEC k) ∨ 1000 ≤ missWin s k) then
    if standby s then .next (recordLoop s 0x0404 k (leBytes 1 (missCriterion s k)))
    else .next (controlTrip s k 8 (some 0x0404) (.loop k) (leBytes 1 (missCriterion s k)))
  else .next s

/-- No miss has occurred for 1 ms of the loop's samples. -/
def quietMs (s : State) (k : LoopId) : Bool :=
  match s.loops[k].eng.missAt with
  | some t => decide (t + 2000000 ≤ s.loops[k].eng.tick)
  | none => true

/-- The return to the full law (R196, R197, R201); none after event 0x040B. -/
def execGroundLawExit (k : LoopId) (s : State) : Out :=
  if running s k ∧ grounded s k ∧ quietMs s k ∧ s.loops[k].eng.noBank = false then
    let back (s : State) : State :=
      (s.setBitAt (O.ENG_FLAGS k) 1 false).modLoop k fun l => { l with eng := { l.eng with back := true, gFirst := false } }
    if bankState s k (bankActive s k) = 2 then .next (recordLoop (back s) 0x0403 k)
    else match bankNamed s k s.fb.vbus with
      | some m => .next (recordLoop (back (switchBank s k m)) 0x0403 k (leBytes 1 m))
      | none => .next (recordLoop (s.modLoop k fun l => { l with eng := { l.eng with noBank := true } }) 0x040B k)
  else .next s

end Sys2Proof.Machine
end

