-- ==== Sys2Proof/Machine/Tables.lean ====
section
/-! DEFINITION. The table protocol and the composite of the inductance tables (R207 to R215, R234 to R236, R473). -/

namespace Sys2Proof.Machine

/-- The object that holds a table; its command, status and error position follow it (R207). -/
def tabAddr : TableId → Addr
  | .rip k => O.RIP_TAB k | .tim k => O.TIM_TAB k | .lsat b => O.LSAT_TAB b | .fbTim => O.FB_TIM_TAB | .eff => O.EFF_TAB

/-- Entries of a table, and bytes of an entry. -/
def tabShape : TableId → Nat × Nat
  | .rip _ => (64, 2) | .tim _ => (5, 4) | .lsat _ => (32, 2) | .fbTim => (5, 4) | .eff => (128, 2)

/-- The default entry. -/
def tabDflt : TableId → Nat
  | .rip _ => 0 | .tim _ => 0x00505028 | .lsat _ => 4096 | .fbTim => 0x00502828 | .eff => 10000

/-- The unit of a table in its event. -/
def tabUnit : TableId → UnitId
  | .rip k => .loop k | .tim k => .loop k | .lsat b => .block b | .fbTim => .fb | .eff => .fb

/-- The working copy: the committed image, else the default entries. -/
def tabWorking (s : State) (t : TableId) : List Byte :=
  match lookupAt s.blobs (tabAddr t) with
  | some bs => bs
  | none => (List.replicate (tabShape t).1 (tabDflt t)).flatMap (leBytes (tabShape t).2)

/-- Entry i of an image. -/
def tabEntry (t : TableId) (bs : List Byte) (i : Nat) : Nat :=
  ofLe ((bs.drop (i * (tabShape t).2)).take (tabShape t).2)

/-- Every entry of an image. -/
def tabEntries (t : TableId) (bs : List Byte) : List Nat := (List.range (tabShape t).1).map (tabEntry t bs)

/-- A reserved field of an entry is not zero (check 2). -/
def tabReserved (t : TableId) (e : Nat) : Bool :=
  match t with
  | .tim _ => bits e 25 7 != 0
  | .fbTim => bits e 24 8 != 0
  | _ => false

/-- An entry lies outside its range (check 3). -/
def tabOutside (t : TableId) (e : Nat) : Bool :=
  let out (v lo hi : Nat) := decide (v < lo) || decide (hi < v)
  match t with
  | .tim _ => out (tonMin e) 20 160 || out (toffMin e) 40 240 || out (blankOf e) 10 400
  | .fbTim => out (dtHl e) 8 200 || out (dtLh e) 8 200 || out (fminPulse e) 20 160
  | .lsat _ => out e 512 8192
  | .eff => out e 5000 13500
  | .rip _ => false

/-- An entry conflicts with a loop's switching period (check 4, R236). -/
def timConflict (period e : Nat) : Bool := decide (period < 2 * (tonMin e + toffMin e))

/-- The same for any table. -/
def tabConflict (s : State) (t : TableId) (e : Nat) : Bool :=
  match t with
  | .tim k => timConflict (periodCnt s k) e
  | _ => false

/-- The failing check of R208: abort code and error position; none where all pass. -/
def tabCheck (s : State) (t : TableId) (bs : List Byte) : Option (Nat × Nat) :=
  let es := tabEntries t bs
  if bs.length ≠ (tabShape t).1 * (tabShape t).2 then some (0xA021, 255)
  else match es.findIdx? (tabReserved t) with
    | some i => some (0xA022, i)
    | none => match es.findIdx? (tabOutside t) with
      | some i => some (0xA020, i)
      | none => match es.findIdx? (tabConflict s t) with
        | some i => some (0xA031, i)
        | none => none

/-- A unit's in-use copy takes the working copy. -/
def tabUse (s : State) (t : TableId) : State :=
  let es := tabEntries t (tabWorking s t)
  match t with
  | .rip k => s.modLoop k fun l => { l with eng := { l.eng with rip := es.map (signOf 16) } }
  | .tim k => s.modLoop k fun l => { l with eng := { l.eng with tim := es } }
  | .lsat b => s.modBlock b fun x => { x with lsat := es }
  | .fbTim => { s with fb := { s.fb with tim := es } }
  | .eff => { s with fb := { s.fb with eff := es } }

/-- The in-use copy differs from the working copy. -/
def tabPending (s : State) (t : TableId) : Bool :=
  let es := tabEntries t (tabWorking s t)
  match t with
  | .rip k => s.loops[k].eng.rip != es.map (signOf 16)
  | .tim k => s.loops[k].eng.tim != es
  | .lsat b => s.blocks[b].lsat != es
  | .fbTim => s.fb.tim != es
  | .eff => s.fb.eff != es

/-- Every in-use copy takes its working copy, at recall and reset. -/
def tabUseAll (s : State) : State :=
  let s := eachLoop s fun s k => tabUse (tabUse s (.rip k)) (.tim k)
  tabUse (tabUse (eachBlock s fun s b => tabUse s (.lsat b)) .fbTim) .eff

/-- The using loop, or loop FB, is OFF; a block of no loop has no using unit (R212). -/
def tabIdle (s : State) (t : TableId) : Bool :=
  match t with
  | .rip k => isOff s k
  | .tim k => isOff s k
  | .lsat b => (match loopOfBlock s b with | some k => isOff s k | none => true)
  | _ => fbState s == 0

/-- The exchange: the in-use copy is the working copy, and a pending status returns to 0 (R209, R210). -/
def tabExchange (s : State) (t : TableId) : State :=
  let s := tabUse s t
  if s.getN (tabAddr t + 2) = 1 then s.setN (tabAddr t + 2) 0 else s

/-- A commit of the requester's staged table (R208, R209, R212). -/
def tableCommit (s : State) (q : Requester) (t : TableId) : State × Nat :=
  let bs := staged s q (tabAddr t)
  match tabCheck s t bs with
  | some (code, pos) =>
    (record ((s.setN (tabAddr t + 2) 2).setN (tabAddr t + 3) pos) 0x040C (tabUnit t), code)
  | none =>
    let s := dropStaged (putBlob s (tabAddr t) bs) q (tabAddr t)
    let s := (s.setN (tabAddr t + 2) 1).setN (tabAddr t + 3) 255
    (if tabIdle s t then tabExchange s t else s, 0)

/-- The exchange at a switching-period boundary (R210): RIP_TAB is used by the master, TIM_TAB by every region of the
loop at one boundary, LSAT_TAB by the block's region. -/
def execTableExchange (t : TableId) (unit : RegionId) (s : State) : Out :=
  let mine := match t with
    | .rip k => masterOf s k == unit.val
    | .tim k => (regionsOf s k).contains unit.val
    | .lsat b => b.val / 3 == unit.val
    | _ => true
  if mine && (tabPending s t || s.getN (tabAddr t + 2) == 1) then .next (tabExchange s t) else .next s

/-- The composite of a loop is formed and put in use (R215). -/
def execLsatCompositeUpdate (k : LoopId) (s : State) : Out :=
  .next (s.modLoop k fun l => { l with eng := { l.eng with comp := lsatComposite s k } })

end Sys2Proof.Machine
end

