-- ==== Sys2Proof/Machine/Sketch.lean ====
section
/-! DEFINITION. Sketch-ahead load pre-positioning (06_sketch_ahead.md): the notice, the opening, the replacement, the
close. -/

namespace Sys2Proof.Machine

/-- Reply codes of R425. -/
abbrev rep.ACK : Nat := 0
abbrev rep.DEFERRED : Nat := 1
abbrev rep.IGNORED : Nat := 2
abbrev rep.STATE : Nat := 8
abbrev rep.BUSY : Nat := 9
abbrev rep.RANGE : Nat := 10
abbrev rep.OWNER : Nat := 11
abbrev rep.FORMAT : Nat := 12

/-- A PRENOTIFY for a loop: the reply and the state after it (R244, R245). An accepted notice waits for its sample boundary (R246);
one accepted while another waits takes its place, be it smaller, which the rule leaves open (log entry 89). -/
def sketchNotice (s : State) (k : LoopId) (n : Notice) : State × Nat :=
  if standby s then (s, rep.IGNORED)
  else if loopState s k ≠ 3 ∨ observing s k ∨ grounded s k then (recordLoop s 0x0509 k, rep.STATE)
  else if !s.isOn (O.SK_EN k) || n.di == 0 || decide (n.cls < s.efN k (O.SK_CONF_MIN k)) then (s, rep.IGNORED)
  else if skState s k = 1 ∧ n.di.natAbs ≤ s.loops[k].sk.notice.di.natAbs then (s.bump (O.SK_REFUSE_CNT k), rep.BUSY)
  else
    let (m, s) := s.effSample k
    (s.modLoop k fun l => { l with sk := { l.sk with pending := some n, openAt := m } }, rep.ACK)

/-- A CANCEL for a loop (R273, R279). -/
def sketchCancel (s : State) (k : LoopId) : State × Nat :=
  if skState s k = 1 then (s.modLoop k fun l => { l with sk := { l.sk with cancel := true } }, rep.ACK)
  else (s, rep.IGNORED)

/-! ### Preparation (R247, R252 to R261) -/

/-- The cells of the loop that switch, ascending (R248); while a sketch is erased, the woken cells not yet shed are among them
(R279). -/
def switchingNow (s : State) (k : LoopId) : List Nat :=
  (cellsOf s k).filter fun n =>
    (s.loops[k].ph.active.contains n && !s.cells[cellOf n].stopped) ||
      (skState s k == 3 && s.loops[k].sk.woken.contains n && s.cells[cellOf n].shedding)

/-- The phase target (R252). `iOpen` in A, `now` the cells switching at the opening sample. -/
def phaseTarget (s : State) (k : LoopId) (iOpen : Rat) (di : Int) (now : Nat) : Nat :=
  if di < 0 then now
  else
    let lim : Rat := (s.efN k (O.ILIM_TOT k) : Rat) * ilimNow s k / 4096
    let pred := clampR (iOpen + di) 0 lim
    let need := (pred / (s.efN k (O.SK_IPH k) : Rat)).ceil.toNat
    min (max need now) (min (ceilOf s k) (min (nAvail s k) (budgetOf s k)))

/-- The bias target in V, and whether the guard bound it at 0 (R256). -/
def biasTarget (s : State) (k : LoopId) (n : Notice) : Rat × Bool :=
  let tol : Int := if 0 < n.di then s.ef k (O.SK_TOL_UP k) else s.ef k (O.SK_TOL_DN k)
  let v := min (s.ef k (O.SK_VBIAS k)) (tol - s.ef k (O.SK_VGUARD k))
  let b := quarter (max v 0) * ((n.cls + 1 : Nat) : Rat) / 4
  (if 0 < n.di then b else -b, decide (v < 0))

/-- The bus headroom that a notice asks for, mV (R259). -/
def headroomOf (s : State) (k : LoopId) (n : Notice) : Rat :=
  if 0 < n.di then (s.efN k (O.SK_BUS_HR k) : Rat) * ((n.cls + 1 : Nat) : Rat) / 4 else 0

/-- The cells that a notice wakes: the next ones in add order that take the cells switching at the opening sample, with those that
the sketch has woken already, to the phase target (R250, R253). -/
def cellsToWake (s : State) (k : LoopId) (target now : Nat) : List Nat :=
  let has := (s.loops[k].sk.woken.filter fun n => (planned s k).contains n).length
  nextFrom s k (planned s k) (target - now - has)

/-- The preparation of a notice, in the sample that opens or replaces a sketch: objects, wake, bias, headroom, chain. -/
def prepare (s : State) (k : LoopId) (n : Notice) (now : Nat) : State :=
  let target := phaseTarget s k s.loops[k].sk.iOpen n.di now
  let (bias, bound) := biasTarget s k n
  let s := ((s.set (O.SK_DI k) n.di).setN (O.SK_LEAD k) n.lead).setN (O.SK_CLASS k) n.cls
  let s := s.setN (O.SK_NTARGET k) target
  let s := if bound then recordLoop s 0x0443 k else s
  let ns := if 0 < n.di then cellsToWake s k target now else []
  let hr := headroomOf s k n
  let s := s.modLoop k fun l =>
    { l with sk := { l.sk with notice := n, pending := none, biasTo := bias, headroom := hr, hold := none, chain := [], reset := true,
                               woken := l.sk.woken ++ ns } }
  if ns.isEmpty then s else decideChange s k (.wake ns)

/-- The boundary of the next sample is one at which the waiting notice may open, or replace, a sketch (R246). -/
def noticeDue (s : State) (k : LoopId) : Bool := decide (s.loops[k].sk.openAt ≤ s.loops[k].eng.sample + 1)

/-- A sketch opens at a sample boundary of the master (R246, R248, R251, R261). The opening sample is the one whose tick
follows the latest. A loop that can no longer hold a sketch drops the notice (log entry 63). -/
def execSketchOpen (k : LoopId) (s : State) : Out :=
  match s.loops[k].sk.pending with
  | none => .next s
  | some n =>
    if skState s k = 1 ∨ noticeDue s k = false then .next s
    else if loopState s k ≠ 3 ∨ observing s k ∨ grounded s k ∨ standby s then
      .next (s.modLoop k fun l => { l with sk := { l.sk with pending := none } })
    else
      let img := activeImage s k
      let act := switchingNow s k
      let slots := act.map fun n => s.getN (O.SLOT_POS (cellOf n))
      let s := s.modLoop k fun l =>
        { l with sk := { l.sk with
            pI := if idxInteg img < 12 then l.eng.x.getD (idxInteg img) 0 else 0
            pD := if idxDist img < 12 then l.eng.x.getD (idxDist img) 0 else 0
            iOpen := meanR l.sk.imeas, pActive := act, pSlots := slots, pBank := bankActive s k
            tOpen := l.eng.tick + 2 * sampleNs s k, woken := [], cancel := false, disabled := false, term := 0, dead := false
            avail := runAvail s k img } }
      let s := (s.setN (O.SK_STATE k) 1).bump (O.SK_OPEN_CNT k)
      let s := if runAvail s k img || s.loops[k].ctl.runNoted then s
        else recordLoop (s.modLoop k fun l => { l with ctl := { l.ctl with runNoted := true } }) 0x0441 k
      .next (prepare s k n act.length)

/-- The cells whose wake requests still wait leave the sketch and the active set. -/
def withdrawWakes (s : State) (k : LoopId) : State :=
  let waits := s.loops[k].ph.wake.filter fun c => s.loops[k].sk.woken.contains c
  let s := s.modLoop k fun l =>
    { l with ph := { l.ph with wake := l.ph.wake.filter fun c => !waits.contains c
                               changes := l.ph.changes.filter fun c => rowOfChange c != 4 }
             sk := { l.sk with woken := l.sk.woken.filter fun c => !waits.contains c } }
  if waits.isEmpty then s else decideChange s k (.cells waits)

/-- A larger notice replaces the open sketch (R250), unless a condition of an earlier order of R273 holds, which then acts; its
notice is dropped (log entry 90). A downward notice withdraws the cells whose wake requests still wait (log entry 63). -/
def execSketchReplace (k : LoopId) (s : State) : Out :=
  match s.loops[k].sk.pending with
  | none => .next s
  | some n =>
    if skState s k ≠ 1 ∨ noticeDue s k = false then .next s
    else match closeCause s k (movement s k (s.loops[k].sk.imeas.take 4)) with
      | some c => .next (sketchClose s k c)
      | none => .next ((prepare (if n.di < 0 then withdrawWakes s k else s) k n s.loops[k].sk.pActive.length).bump (O.SK_REPL_CNT k))

/-- t_exp has passed without an ink (R273 order 5, R275), unless a condition of an earlier order holds. -/
def execSketchExpire (k : LoopId) (s : State) : Out :=
  if skState s k = 1 ∧ sketchEndsAt s k < s.loops[k].eng.tick then
    .next (sketchClose s k ((closeCause s k (movement s k (s.loops[k].sk.imeas.take 4))).getD 0x10))
  else .next s

/-- Every woken cell has been shed and released. -/
def wokenGone (s : State) (k : LoopId) : Bool :=
  s.loops[k].sk.woken.all fun n => !s.cells[cellOf n].shedding && !s.loops[k].ph.active.contains n

/-- The return to IDLE (R278): phase add acts afresh (R276). -/
def execSketchReturnIdle (k : LoopId) (s : State) : Out :=
  let l := s.loops[k]
  let held := match l.sk.hold with
    | some t => decide (l.eng.tick < t)
    | none => false
  if l.sk.bias = 0 ∧ l.sk.biasTo = 0 ∧ ((skState s k = 3 ∧ wokenGone s k) ∨ (skState s k = 2 ∧ held = false)) then
    .next ((s.setN (O.SK_STATE k) 0).modLoop k fun l =>
      { l with sk := { l.sk with headroom := 0, hold := none, woken := [], chain := [], reset := true }, ph := { l.ph with addAt := none } })
  else .next s

/-- The effect of a write to SK_EN (R273, R282). -/
def skEnPut (s : State) (k : LoopId) (v : Nat) : State × Nat :=
  let s := s.setN (O.SK_EN k) v
  (if v = 0 ∧ skState s k = 1 then s.modLoop k fun l => { l with sk := { l.sk with disabled := true } } else s, 0)

end Sys2Proof.Machine
end

