-- ==== Sys2Proof/Machine/Topology.lean ====
section
/-! DEFINITION. The topology commit, slot markers and interleave alignment (02_loop_topology.md). -/

namespace Sys2Proof.Machine

/-! ### The commit's checks (R94, R95) -/

/-- A loop is affected by the change from topology `a` to `t` (R94). -/
def loopAffected (a t : Topo) (k : Nat) : Bool :=
  a.blocks k != t.blocks k || a.masterOf k != t.masterOf k || a.rate k != t.rate k ||
    (a.regions k ++ t.regions k).any fun r => a.held r != t.held r

/-- The failing units of check 1 to 12 of R95, as TOPO_UNIT codes them, lowest number first; a check whose row names no
unit answers 0. -/
def topoFails (s : State) (a t : Topo) (c : Nat) : List Nat :=
  let loops := List.range 8
  let regs := List.range 8
  match c with
  | 1 => (loops.filter fun k => loopAffected a t k && s.getN (O.LOOP_STATE k) != 0).map (fun k => 0x300 + k) ++
      (if a.mask ≠ t.mask ∧ fbState s ≠ 0 then [0x308] else [])
  | 2 => if role s = 2 then [0] else []
  | 3 => (regs.filter fun r => decide (2 < (t.held r).length)).map fun r => 0x200 + r
  | 4 => (regs.filter fun r =>
      decide (1 < ((t.held r).filter fun k => decide (1 < (t.regions k).length) && t.masterOf k != r).length)).map
        fun r => 0x200 + r
  | 5 => (regs.filter fun r =>
      (t.held r).any fun k => decide (1 < (t.regions k).length) && t.masterOf k == r && decide (1 < (t.held r).length)).map
        fun r => 0x200 + r
  | 6 => (loops.filter fun k =>
      let rs := t.regions k
      decide (2 ≤ rs.length) && decide (rs.length ≤ 4) && (rs.any (· < 4) && rs.any (4 ≤ ·))).map fun k => 0x300 + k
  | 7 => (loops.filter fun k => t.master.getD k 255 != 255 && !(t.regions k).contains (t.master.getD k 255)).map fun k => 0x300 + k
  | 8 => (loops.filter fun k => !(t.blocks k).isEmpty && decide (4 * (t.blocks k).length < s.getN (O.PH_MIN k))).map fun k => 0x300 + k
  | 9 => (loops.filter fun k => !(t.blocks k).isEmpty && decide (s.getN (O.PH_CEIL k) < s.getN (O.PH_MIN k))).map fun k => 0x300 + k
  | 10 => (regs.filter fun r => !(t.held r).isEmpty && !s.getB O.REGION_AVAIL r).map fun r => 0x200 + r
  | 11 => if s.chip.applying.isSome then [0] else []
  | 12 => (loops.filter fun k => loopAffected a t k && s.getN (O.BUR_STATE k) == 2).map fun k => 0x300 + k
  | _ => []

/-- The failing checks of a list, with their first unit. -/
def topoBad (s : State) (a t : Topo) (cs : List Nat) : List (Nat × Nat) :=
  cs.filterMap fun c => (topoFails s a t c).head?.map fun u => (c, u)

/-- TOPO_STATUS, TOPO_REASON, TOPO_UNIT and TOPO_REASONS of a rejection (R95, R96). -/
def topoReject (s : State) (bad : List (Nat × Nat)) : State :=
  let first := bad.headD (0, 0)
  (((s.setN O.TOPO_STATUS 3).setN O.TOPO_REASON first.1).setN O.TOPO_UNIT first.2).setN O.TOPO_REASONS
    (bad.map fun e => 2 ^ e.1).sum

/-- RG_LOOPS and RG_ROLE of a region follow the active topology (R614). -/
def regionRoles (s : State) (r : RegionId) : State :=
  let t := activeTopo s
  let held := t.held r
  let mast := held.filter fun k => t.masterOf k == r.val
  let foll := held.filter fun k => t.masterOf k != r.val
  let nib (l : List Nat) (i : Nat) := l.getD i 15
  (s.setN (O.RG_LOOPS r) ((held.map fun k => 2 ^ k).sum)).setN (O.RG_ROLE r)
    (nib mast 0 + 16 * nib mast 1 + 256 * nib foll 0)

/-- The same for a region that is powered: one that is off reads reset values (R55). -/
def rolesShown (s : State) (r : RegionId) : State := if s.getN (O.RG_STATE r) = 0 then s else regionRoles s r

/-- LOOP_RATE of every loop follows the active topology (R72). -/
def loopRates (s : State) : State :=
  (List.range 8).foldl (fun s k => s.setN (O.LOOP_RATE k) ((activeTopo s).rate k)) s

/-- The active objects take a topology (R95, R98 step 1). -/
def topoTake (s : State) (t : Topo) : State :=
  let s := (List.range 24).foldl (fun s b => s.setN (O.BLK_LOOP b) (t.blk.getD b 255)) s
  let s := (List.range 8).foldl (fun s k => s.setN (O.LOOP_MASTER k) (t.masterOf k)) s
  eachRegion (loopRates (s.setN O.FB_MASK t.mask)) rolesShown

/-- Regions that hold a loop and are off, ascending (R52, R98 step 3). -/
def regionsToRise (s : State) : List Nat :=
  (List.range 8).filter fun r => !(heldBy s r).isEmpty && s.getN (O.RG_STATE r) == 0

/-- The slot positions of a loop in OFF: its cells in powered regions, equally spaced in add order over all its cells (R87; log entry
96). -/
def spaceLoop (s : State) (k : LoopId) : State :=
  if isOff s k then
    let order := addOrder s k
    order.zipIdx.foldl (fun s e =>
      if s.getN (O.RG_STATE (e.1 / 12)) = 0 then s
      else placeCell s k (cellOf e.1) false (slotAt (periodCnt s k) order.length e.2)) s
  else s

/-- The tracker of a follower. -/
def modTrack (s : State) (k : LoopId) (r : RegionId) (f : Track → Track) : State :=
  s.modLoop k fun l => { l with track := l.track.set r (f l.track[r]) }

/-- A period counter starts, in the present microsecond, at a moment that the spec leaves open (R284, R312; log entry 97). -/
def startCounter (s : State) (k : LoopId) (r : RegionId) : State :=
  let (d, s) := s.draw
  modTrack s k r fun t => { t with zero := s.uptime * 2000 + d % 2000, len := periodCnt s k, adjust := 0, err := 0 }

/-- The counters of the loops that a powered region holds in a topology and did not hold before (R284); what a region kept of a
loop that it holds no longer ends. -/
def newCounters (s : State) (a t : Topo) : State :=
  eachLoop s fun s k => eachRegion s fun s r =>
    if (t.regions k).contains r.val && !(a.regions k).contains r.val && regionReady s r then startCounter s k r
    else if !(t.regions k).contains r.val && (a.regions k).contains r.val then modTrack s k r fun _ => {}
    else s

/-- The commit of the staged topology (R95 to R98). Check 0x02 refuses a host's commit on a STANDBY, not the journal entry
of its ACTIVE (R561). The abort code is answered, 0 for an accepted commit (log entry 42). -/
def topoCommit (s : State) (byTwin : Bool := false) : State × Nat :=
  let a := activeTopo s
  let t := stagedTopo s
  let bad := topoBad s a t (((List.range 12).map (· + 1)).filter fun c => !(byTwin && c == 2))
  match bad with
  | (c, _) :: _ => (topoReject s bad, if c = 1 ∨ c = 2 ∨ c = 11 ∨ c = 12 then 0xA030 else 0xA031)
  | [] =>
    let s := topoTake s t
    let s := ((s.setN O.TOPO_STATUS 1).setN O.TOPO_REASON 0).setN O.TOPO_UNIT 0
    let s := (s.setN O.TOPO_REASONS 0).bump O.TOPO_GEN
    let s := eachLoop s fun s k => s.modLoop k fun l => { l with ctl := { l.ctl with affected := l.ctl.affected || loopAffected a t k } }
    let s := eachLoop s fun s k => if loopAffected a t k then s.setN (O.BUR_VALID k) 0 else s
    let s := eachLoop s fun s k => if loopAffected a t k then spaceLoop s k else s
    let s := newCounters s a t
    let s := { s with chip := { s.chip with rising := regionsToRise s, switchAt := none, failed := false, applying := some .commit }
                      fb := { s.fb with affected := s.fb.affected || a.mask != t.mask } }
    (record s 0x0104 .chip, 0)

/-- Discard of the staging objects (R97). -/
def topoDiscard (s : State) : State :=
  let s := (List.range 24).foldl (fun s b => s.set (O.BLK_LOOP_STG b) (s.get (O.BLK_LOOP b))) s
  let s := (List.range 8).foldl (fun s k => s.set (O.LOOP_MASTER_STG k) (s.get (O.LOOP_MASTER k))) s
  s.set O.FB_MASK_STG (s.get O.FB_MASK)

/-- A staging write is refused outside OFF (R93). -/
def stagingAbort (s : State) (a : Addr) (v : Int) : Nat :=
  let off (k : Nat) := decide (8 ≤ k) || s.getN (O.LOOP_STATE k) == 0
  if a / 256 = 0x2010 then
    (if off (s.getN (O.BLK_LOOP (a % 256 - 1))) && off v.toNat then 0 else 0xA030)
  else if a / 256 = 0x2011 then (if off (a % 256 - 1) then 0 else 0xA030)
  else if a / 256 = 0x2012 then (if fbState s = 0 then 0 else 0xA030)
  else 0

/-! ### Regions switched off and on -/

/-- Every status object of a region's units reads its reset value while the region is off (R55): those of the region, with its trace
(R738), its blocks and its cells. Its trackers have no lock (R88). -/
def regionBlank (s : State) (r : RegionId) : State :=
  let s := (s.setN (O.RG_FLAGS r) 0).setN (O.RG_STATE r) 0
  let s := ((s.setN (O.RG_LOOPS r) 0).setN (O.RG_ROLE r) 0x0FFF).setN (O.TR_STAT r) 0
  let s := eachLoop s fun s k => modTrack s k r fun _ => {}
  let s := ((s.set (O.DIE_T r) 0).setN (O.DIE_BAND r) 1).setN (O.DIE_STAT r) 0
  let s := s.set (O.DIE_ROR r) 0
  let s := [3 * r.val, 3 * r.val + 1, 3 * r.val + 2].foldl (fun s b =>
    let s := (((s.setN (O.IMREF_MEAS b) 0).setN (O.IMREF_STAT b) 0).set (O.TMON_T b) 0).setN (O.BLK_FLT b) 0
    ((((s.setN (O.TMON_MV b) 0).setN (O.TMON_BAND b) 1).setN (O.TMON_STAT b) 0).set (O.TMON_ROR b) 0).modBlock (blockOf b)
      fun c => { c with sens := {}, coolAt := none }) s
  (List.range 12).foldl (fun s i =>
    let n := 12 * r.val + i
    let s := ((s.setN (O.IMON_RAW n) 0).set (O.IMON_CUR n) 0).setN (O.IMON_BAND n) 1
    let s := ((s.set (O.LEDGER n) 0).setN (O.SLOT_POS n) 0).setN (O.TON_LAST n) 0
    let s := ((s.setN (O.LEDGER_DROP n) 0).setN (O.RUNT_CNT n) 0).setN (O.CELL_FLT n) 0
    (s.setN (O.CS_GT n) 4096).modCell (cellOf n) fun c =>
      { c with conv := [], same := 0, sat := 0, oor := 0, zeroDone := false, inPulse := false, shedding := false, stopped := true,
               waking := false, edges := [], low := false, acted := false, shedBy := false, shedWith := false }) s

/-- TOPO_STATUS reads APPLIED: no loop waits for a commit any more (R100; log entry 42). -/
def topoApplied (s : State) : State :=
  let s := eachLoop (s.setN O.TOPO_STATUS 2) fun s k => s.modLoop k fun l => { l with ctl := { l.ctl with affected := false } }
  { s with chip := { s.chip with applying := none }, fb := { s.fb with affected := false } }

/-- TOPO_STATUS reads APPLY-FAILED: the loops, and loop FB, that waited wait on (R100, R101). -/
def topoFailed (s : State) : State := { s.setN O.TOPO_STATUS 4 with chip := { s.chip with applying := none } }

/-- No region of the present start-up or commit waits for its switch-on, or for readiness. -/
def regionsSettled (s : State) : Bool := s.chip.rising.isEmpty && (List.range 8).all fun r => s.getN (O.RG_STATE r) != 1

/-- An accepted commit is applied once every region switched on is ready or has failed (R98 step 4, R101), whatever TOPO_STATUS
reads since: a later commit may have been rejected meanwhile (R96). -/
def topoSettle (s : State) : State :=
  if s.chip.applying = some .commit ∧ regionsSettled s then (if s.chip.failed then topoFailed s else topoApplied s) else s

/-! ### Slot markers (R83 to R90) -/

/-- A region is a powered follower of the loop. -/
def follows (s : State) (k : LoopId) (r : RegionId) : Bool :=
  (followersOf s k).contains r.val && regionReady s r && regionReady s (masterOf s k)

/-- A difference of counter readings in −M/2 < δ ≤ M/2, modulo M. -/
def wrapDiff (m : Nat) (d : Int) : Int :=
  let x := d % (m : Int)
  if 2 * x ≤ m then x else x - m

/-- The alignment error of a marker, 125 ps (R85): the follower's period counter at the moment the strobe was sent, that is its
time-stamp less the measured lane delay, against the master's counter in the payload. -/
def markerError (s : State) (k : LoopId) (r : RegionId) (stamp period : Nat) : Int :=
  wrapDiff (4 * periodCnt s k) ((stamp : Int) - s.regions[r].lanes - 4 * s.loops[k].track[r].zero - 4 * period)

/-- A payload's sample number follows the one before (R89); its low 8 bits are compared (log entry 98). -/
def numFollows (prev : Option Nat) (num : Nat) : Bool :=
  match prev with
  | some p => num % 256 == (p + 1) % 256
  | none => true

/-- A marker strobe, with its time-stamp in 125 ps, and its payload at a follower: runs of good, missing, out-of-sequence and far
markers, and the correction still to apply to the period counter (R83, R85, R86, R88 to R90). R86 corrects in whole counts of 500 ps
and gives no rounding: the error is truncated toward 0 (log entry 98). -/
def execMarkerStrobeRx (k : LoopId) (r : RegionId) (strobe : Bool) (stamp num period : Nat) (s : State) : Out :=
  if follows s k r then
    let error := markerError s k r stamp period
    .next (modTrack s k r fun t =>
      { t with missing := if strobe then 0 else t.missing + 1
               num := some num
               outSeq := if numFollows t.num num then 0 else t.outSeq + 1
               good := if strobe && decide (error.natAbs ≤ 8) then t.good + 1 else 0
               far := if strobe && decide (16 < error.natAbs) then t.far + 1 else if strobe then 0 else t.far
               err := if strobe then error else t.err
               adjust := if strobe then -(Int.tdiv error 4) else t.adjust })
  else .next s

/-- RG_FLAGS bit 3 of a follower: marker lock of the followed loop (R614). -/
def execMarkerLock (k : LoopId) (r : RegionId) (s : State) : Out :=
  if follows s k r ∧ 16 ≤ s.loops[k].track[r].good then
    .next ((modTrack s k r fun t => { t with lock := true }).setBitAt (O.RG_FLAGS r) 3 true)
  else .next s

/-- 64 samples after the loop was armed a follower still lacks lock (R88). -/
def execMarkerLockTimeout (k : LoopId) (s : State) : Out :=
  if loopState s k = 1 ∧ 64 ≤ s.loops[k].ctl.armedSamples ∧ (followersOf s k).any (fun r => !s.loops[k].track[regionOf r].lock) then
    .next (controlTrip s k 10 (some 0x0423) (.loop k))
  else .next s

/-- 16 strobes missing or 16 payloads out of sequence (R89): the follower's cells go to mid-level, the loop to FAULT. -/
def execMarkerLoss (k : LoopId) (r : RegionId) (s : State) : Out :=
  let t := s.loops[k].track[r]
  if follows s k r ∧ (16 ≤ t.missing ∨ 16 ≤ t.outSeq) then
    let s := (modTrack s k r fun t => { t with lock := false, good := 0 }).setBitAt (O.RG_FLAGS r) 3 false
    if isOff s k then .next s
    else
      let s := ((cellsOf s k).filter fun n => n / 12 == r.val).foldl (fun s n => stopCell s (cellOf n)) s
      .next (controlTrip s k 10 (some 0x0423) (.loop k))
  else .next s

/-- 8 consecutive markers more than 2 ns away (R90). The rule does not say whether an excursion that goes on is recorded again: the
count starts afresh, and 8 further far markers record again (log entry 98). -/
def execAlignError (k : LoopId) (r : RegionId) (s : State) : Out :=
  if follows s k r ∧ 8 ≤ s.loops[k].track[r].far then
    .next (record (modTrack s k r fun t => { t with far := 0 }) 0x0424 (.region r))
  else .next s

end Sys2Proof.Machine
end

