-- ==== Sys2Proof/Machine/Pwm.lean ====
section
/-! DEFINITION. Switching periods, pulses and their ledger, phase management, disables (R284 to R339). -/

namespace Sys2Proof.Machine

/-- A setting of a unit as a region has it, changed toward a goal by one. -/
def stepToward (v goal : Nat) : Nat := if v < goal then v + 1 else if goal < v then v - 1 else v

/-- The band of the block and g_T come into force in a cell (R129, R232, R237); event 0x043A once per cell. -/
def cellBand (s : State) (n : CellId) : State :=
  let b := s.getN (O.TMON_BAND (n / 4))
  let s := s.setN (O.IMON_BAND n) b
  let g := s.cells[n].gtNext
  let s := (s.modCell n fun c => { c with gt := g }).setN (O.CS_GT n) (toStep (g * 4096)).toNat
  if s.getB (O.IMTRIM_VALID n) b || s.cells[n].trimNoted then s
  else record (s.modCell n fun c => { c with trimNoted := true }) 0x043A (.cell n)

/-- Count 0 of a period counter (R284): the period that ends has its length, and the next one takes one count of the correction
that is still to apply (R86): a counter that is to be advanced has a shorter period. -/
def turnCounter (p : Nat) (t : Track) : Track :=
  { t with zero := t.zero + t.len
           len := if 0 < t.adjust then p - 1 else if t.adjust < 0 then p + 1 else p
           adjust := if 0 < t.adjust then t.adjust - 1 else if t.adjust < 0 then t.adjust + 1 else 0 }

/-- The stipple residual and position at count 0, with n active cells (R291). -/
def turnStipple (n : Nat) (t : Track) : Track :=
  { t with acc := t.acc + n * (t.duty % 256) - 256 * t.k
           pos := (t.pos + t.k.toNat) % max 1 n }

/-- A cell at count 0 of its loop's counter: one whose wake request has been issued starts with an empty ledger (R318), the band
of one that does not switch comes into force (log entry 91), and a shed counts its periods (R322). -/
def cellTurns (s : State) (n : CellId) : State :=
  let s := if s.cells[n].waking ∧ cellStop s n = 0 then
      (s.set (O.LEDGER n) 0).modCell n fun c => { c with waking := false, stopped := false, inPulse := false, low := false }
    else s
  let s := if switching s n then s else cellBand s n
  s.modCell n fun c => { c with shedPeriods := if c.shedding then c.shedPeriods + 1 else 0 }

/-- The start of a switching period of a loop in one of its regions: the period counter and its correction (R86, R284), the
stipple residual (R291), the cells that start, bands, waiting sheds; in the master also RESPACE (R324), LL_R_NOW (R229) and the
spacing of staggered enabling (R331). -/
def execPeriodBoundary (k : LoopId) (r : RegionId) (s : State) : Out :=
  if (regionsOf s k).contains r.val ∧ regionReady s r ∧ pllLocked s r then
    let n := (slotOrder s k r).length
    let p := periodCnt s k
    let s := s.modLoop k fun l => { l with track := l.track.set r (turnStipple n (turnCounter p l.track[r])) }
    let cells := ((cellsOf s k).filter fun n => n / 12 == r.val).map cellOf
    let s := cells.foldl cellTurns s
    if masterOf s k = r.val then
      let s := s.setN (O.RESPACE k) (s.getN (O.RESPACE k) - 1)
      let s := if isOff s k then s else s.setN (O.LL_R_NOW k) (stepToward (s.getN (O.LL_R_NOW k)) (s.efN k (O.LL_R k)))
      .next (s.modLoop k fun l => { l with ph := { l.ph with gap := l.ph.gap + 1 } })
    else .next s
  else .next s

/-! ### A cell's pulse (R288, R293) -/

/-- The re-spacing step of a period (R324). -/
def respaceStep (delta : Int) (i : Nat) : Int := if i < 8 then (i + 1) * delta / 8 - i * delta / 8 else 0

/-- The period that begins at a slot position: its length, and the position it ends at (R289, R324). -/
def beginPeriod (s : State) (k : LoopId) (n : CellId) : State :=
  let p := periodCnt s k
  let c := s.cells[n]
  let st := respaceStep c.delta c.steps
  let pos := (((s.getN (O.SLOT_POS n) : Nat) : Int) + st) % (p : Int)
  let s := s.modCell n fun c => { c with period := ((p : Int) + st).toNat, steps := min 8 (c.steps + 1) }
  if st = 0 then s else s.setN (O.SLOT_POS n) pos.toNat

/-- The end of the blanking window that a moment lies in, with the edges before it (R234, R348). -/
def blankUntil (edges : List Nat) (blank t : Nat) : Option Nat :=
  ((edges.filter fun e => decide (e ≤ t) && decide (t < e + blank)).map fun e => e + blank).max?

/-- A crossing is blanked that starts within a blanking window and ends within it (R348, R349); `stop` is none where the
comparator is still active at the moment that it trips. -/
def blanked (edges : List Nat) (blank start : Nat) (stop : Option Nat) : Bool :=
  match blankUntil edges blank start, stop with
  | some w, some t => decide (t ≤ w)
  | _, _ => false

/-- A cell's output changes level. -/
def noteEdge (t : Nat) (c : Cell) : Cell := { c with edges := (t :: c.edges).take 4 }

/-- A shadow's readback sampler has timed the edge that the ACTIVE drives: the region's period counter is to move by the difference to
its own slot position, one count a period (R86, R557; log entry 103). -/
def shadowAlign (s : State) (k : LoopId) (n : CellId) (at_ : Nat) (edge : Option Nat) : State :=
  match edge with
  | some e =>
    if standby s then modTrack s k (regionOf (n / 12)) fun t => { t with adjust := -wrapDiff (periodCnt s k) ((e : Int) - at_) } else s
  | none => s

/-- A switching cell reaches its slot position, where its own switching period begins and its band comes into force (R232, R237,
R287 to R289): the pulse starts, or is withheld (R293). The valley comparator, sampled at the count before the rising edge and
outside BLANK, trips OC_VL and withholds the edge (R340). A shadow follows the edge it has seen (R557). -/
def execCellSlotPosition (n : CellId) (edge : Option Nat) (s : State) : Out :=
  match loopOfCell s n with
  | none => .next s
  | some k =>
    if switching s n then
      let at_ := s.loops[k].track[regionOf (n / 12)].zero + s.getN (O.SLOT_POS n)
      let s := beginPeriod (cellBand (shadowAlign s k n at_ edge) n) k n
      let led := s.get (O.LEDGER n)
      let t := s.cells[n].onReq + led
      let e := timEntry s k n
      if t < tonMin e then
        let s := (s.set (O.LEDGER n) t).modCell n fun c => { c with inPulse := false }
        .next (if 0 < t then s.bump (O.RUNT_CNT n) else s)
      else if envInput s (.cell n 1) && (blankUntil s.cells[n].edges (blankOf e) (at_ - 1)).isNone then .next (cellTrip s n 1 .ocVl 0x0202)
      else
        let fall := fallOf s k n t
        .next ((s.set (O.LEDGER n) 0).modCell n fun c =>
          noteEdge at_ { c with inPulse := true, owed := t, carry := led, riseAt := at_, fallAt := fall })
    else .next s

/-- The ledger after a falling edge, held within one period, and what the bound dropped (R293). -/
def ledgerAfter (l : Int) (p : Nat) : Int × Nat :=
  if (p : Int) < l then ((p : Int), (l - p).toNat)
  else if l < -(p : Int) then (-(p : Int), (-(p : Int) - l).toNat)
  else (l, 0)

/-- The falling edge of a pulse, at the count that R288 and R293 have given it (R293, R296). -/
def execCellFallingEdge (n : CellId) (s : State) : Out :=
  if s.cells[n].inPulse then
    let c := s.cells[n]
    let (l, drop) := ledgerAfter (s.get (O.LEDGER n) + c.owed - c.fallAt) c.period
    let s := ((s.set (O.LEDGER n) l).setN (O.TON_LAST n) c.fallAt).modCell n fun c =>
      noteEdge (c.riseAt + c.fallAt) { c with inPulse := false, carry := 0 }
    if drop = 0 then .next s
    else
      let s := s.bumpBy (O.LEDGER_DROP n) drop
      let note := match c.dropAt with | some u => decide (u + 10000 ≤ s.uptime) | none => true
      .next (if note then record (s.modCell n fun c => { c with dropAt := some s.uptime }) 0x0452 (.cell n) else s)
  else .next s

/-- A cell of the active set resumes at its slot position once no request of priority 1 to 5 is left (R18). -/
def execCellResume (n : CellId) (s : State) : Out :=
  match loopOfCell s n with
  | none => .next s
  | some k =>
    if s.cells[n].stopped ∧ cellStop s n = 0 ∧ running s k ∧ s.loops[k].ph.active.contains n.val ∧
        s.loops[k].ph.wake.contains n.val = false ∧ s.cells[n].waking = false then
      .next ((s.set (O.LEDGER n) 0).modCell n fun c => { c with stopped := false, inPulse := false, low := false })
    else .next s

/-! ### Phase add and shed (R316 to R334) -/

/-- Time for which a condition has held, in counts of 500 ps; none where it does not hold. -/
def heldFor (o : Option Nat) (tick : Nat) : Option Nat := o.map fun t => tick - t

/-- The add condition has held for PH_ADD_T: the master decides an add (R314, R316, R327). -/
def execPhaseAdd (k : LoopId) (s : State) : Out :=
  let l := s.loops[k]
  match heldFor l.ph.addAt l.eng.tick with
  | none => .next s
  | some t =>
    if s.efN k (O.PH_ADD_T k) * 200 ≤ t ∧ !phasesHeld s k then
      .next (decideChange (s.modLoop k fun l => { l with ph := { l.ph with addAt := none } }) k .add)
    else .next s

/-- The shed condition has held for PH_SHED_T: the master decides to shed one cell, and the timer restarts (R314, R316, R327). A
sketch that is OPEN or ERASING holds it (R255, R319). -/
def execPhaseShed (k : LoopId) (s : State) : Out :=
  let l := s.loops[k]
  match heldFor l.ph.shedAt l.eng.tick with
  | none => .next s
  | some t =>
    if s.efN k (O.PH_SHED_T k) * 2000 ≤ t ∧ shedHolds s k then
      .next (decideChange (s.modLoop k fun l => { l with ph := { l.ph with shedAt := some l.eng.tick } }) k .shed)
    else .next s

/-- The next wake request, one per 20 ns: the cell starts in the first period of its loop's counter that begins after it (R254,
R318). -/
def execCellWakeRequest (k : LoopId) (s : State) : Out :=
  match s.loops[k].ph.wake with
  | [] => .next s
  | n :: rest =>
    let s := s.modLoop k fun l => { l with ph := { l.ph with wake := rest } }
    if s.loops[k].ph.active.contains n ∧ cellStop s n = 0 then
      .next (s.modCell (cellOf n) fun c => { c with waking := true })
    else .next s

/-- A shedding cell is released at a time; the last release of a soft-stop ends it (R320, R392). -/
def releaseCell (s : State) (n : CellId) (now : Nat) : State :=
  let s := s.modCell n fun c => { c with shedding := false, shedPeriods := 0, stopped := true, inPulse := false }
  match loopOfCell s n with
  | some k =>
    shedsDone (if skState s k = 3 ∧ s.loops[k].sk.woken.contains n.val then
      s.modLoop k fun l => { l with sk := { l.sk with relAt := some now } } else s) k
  | none => s

/-- The cells that a sketch has woken are released in the reverse order of their waking, each 20 ns or more after the one before
(R275). -/
def releaseTurn (s : State) (k : LoopId) (n : CellId) (now : Nat) : Bool :=
  let w := s.loops[k].sk.woken
  if skState s k = 3 ∧ w.contains n.val then
    (w.drop (w.idxOf n.val + 1)).all (fun m => !s.cells[cellOf m].shedding) &&
      (match s.loops[k].sk.relAt with
        | some t => decide (t + 40 ≤ now)
        | none => true)
  else true

/-- A conversion of a cell, its time and code, lies after the cell's last falling edge and is at or below PH_ZC_I (R320): steps 1,
3, 4 and 5 of R120 on it alone. -/
def zeroCrossed (s : State) (k : LoopId) (n : CellId) (c : Nat × Nat) : Bool :=
  decide (s.cells[n].edges.headD 0 ≤ c.1) && decide (toAmp (imonAmps s n (imonTrimmed s n c.2)) ≤ s.ef k (O.PH_ZC_I k))

/-- A shedding cell is released by its latest IMON conversion (R320). -/
def execShedRelease (n : CellId) (s : State) : Out :=
  match loopOfCell s n with
  | none => .next s
  | some k =>
    match s.cells[n].conv with
    | [] => .next s
    | c :: _ =>
      if s.cells[n].shedding && !s.cells[n].inPulse && zeroCrossed s k n c && releaseTurn s k n c.1 then .next (releaseCell s n c.1)
      else .next s

/-- Four whole periods have passed without a zero crossing: the cell is released at the end of the fourth (R322), whatever the
turn of its release under R275 (log entry 92). -/
def execShedTimeout (n : CellId) (s : State) : Out :=
  match loopOfCell s n with
  | none => .next s
  | some k =>
    if s.cells[n].shedding ∧ 5 ≤ s.cells[n].shedPeriods then
      .next (releaseCell (record (s.bump (O.SHED_TMO_CNT k)) 0x0453 (.cell n)) n s.loops[k].track[regionOf (n / 12)].zero)
    else .next s

/-- Staggered enabling ends; positions left unused are closed up at the next sample boundary, as at every change of the set (R314,
R332). -/
def endEnabling (s : State) (k : LoopId) : State :=
  let s := s.modLoop k fun l => { l with ph := { l.ph with enabling := false } }
  if s.loops[k].ph.active.length = s.loops[k].ph.rampN then s else decideChange s k .removal

/-- The place that the next cell takes among those of staggered enabling: that of its turn, and once every place has had its turn,
the first that no active cell holds (R331, R332; log entry 62). -/
def rampPlace (s : State) (k : LoopId) : Nat :=
  let p := s.loops[k].ph
  let place (i : Nat) := slotAt (periodCnt s k) p.rampN i
  if p.turns < p.rampN then place p.turns
  else place (((List.range p.rampN).find? fun i => p.active.all fun n => s.getN (O.SLOT_POS (cellOf n)) != place i).getD 0)

/-- A cell starts switching in its turn of staggered enabling (R331): it joins the set in force and the one decided. -/
def rampStart (s : State) (k : LoopId) (n pos : Nat) : State :=
  let c := cellOf n
  let s := (s.setN (O.SLOT_POS c) pos).set (O.LEDGER c) 0
  let s := s.modCell c fun x =>
    { x with stopped := false, waking := false, inPulse := false, shedding := false, from_ := pos, delta := 0, steps := 8 }
  let s := putActive s k (s.loops[k].ph.active ++ [n])
  s.modLoop k fun l =>
    { l with ph := { l.ph with started := l.ph.started ++ [n], turns := l.ph.turns + 1, gap := 0,
                               plan := l.ph.plan.map fun p => { p with act := p.act ++ [n] } } }

/-- The next turn of staggered enabling (R331 to R333; log entry 62): the first cell starts in the first period after the entry to
RAMP, each further one two periods after the one before, until n_ramp cells are active or none is left to start. -/
def execRampCellEnable (k : LoopId) (s : State) : Out :=
  let p := s.loops[k].ph
  if p.enabling ∧ (loopState s k = 2 ∨ loopState s k = 3) ∧ (if p.turns = 0 then 1 else 2) ≤ p.gap then
    if p.rampN ≤ p.active.length then .next (endEnabling s k)
    else match (addOrder s k).find? fun n => available s n && !p.started.contains n && !p.active.contains n with
      | none => .next (endEnabling s k)
      | some n =>
        let s := rampStart s k n (rampPlace s k)
        .next (if p.rampN ≤ p.active.length + 1 then endEnabling s k else s)
  else .next s

/-! ### Disables (R306 to R310) -/

/-- A loop outside OFF is left with too few available cells by a disable (R252, R309); in FAULT and LATCHED, whose own request
holds every cell, the cells count that nothing else holds (log entry 14). -/
def disableCheck (s : State) (k : LoopId) : State :=
  let n := if faulted s k then nEnabled s k else nAvail s k
  if !isOff s k && decide (n < nMin s k) then controlTrip s k 13 (some 0x0450) (.loop k) else s

/-- Cells are disabled: a pulse in progress is cut, a cell of a loop outside OFF leaves the active set, a shed is complete (R306,
R308, R330). -/
def disableCells (s : State) (ns : List Nat) : State :=
  let s := ns.foldl (fun s n => stopCell s (cellOf n)) s
  eachLoop s fun s k =>
    let mine := ns.filter fun n => loopOfCell s n == some k
    if mine.isEmpty then s else shedsDone (disableCheck (removeCells s k mine) k) k

/-- The effect of a write to CELL_DIS. -/
def cellDisPut (s : State) (n : CellId) (v : Nat) : State × Nat :=
  let s := s.setN (O.CELL_DIS n) v
  (if v = 1 then disableCells s [n.val] else s, 0)

/-- The effect of a write to BLK_DIS. -/
def blkDisPut (s : State) (b : BlockId) (v : Nat) : State × Nat :=
  let s := s.setN (O.BLK_DIS b) v
  (if v = 1 then disableCells s [4 * b.val, 4 * b.val + 1, 4 * b.val + 2, 4 * b.val + 3] else s, 0)

/-- The effect of a write to RG_PWM_DIS. -/
def rgPwmDisPut (s : State) (r : RegionId) (v : Nat) : State × Nat :=
  let s := s.setN (O.RG_PWM_DIS r) v
  (if v = 1 then disableCells s ((List.range 12).map fun i => 12 * r.val + i) else s, 0)

end Sys2Proof.Machine
end

