-- ==== Sys2Proof/Machine/FrontStage.lean ====
section
/-! DEFINITION. Loop FB, its channels, the bus target and the bus budget (11_bus_shaping.md, R297 to R303, R382). -/

namespace Sys2Proof.Machine

/-! ### Channels (R302, R448) -/

/-- The state after a channel is changed. -/
def modChan (s : State) (f : ChannelId) (g : Chan → Chan) : State :=
  { s with fb := { s.fb with chan := s.fb.chan.set f (g s.fb.chan[f]) } }

/-- Apply an operation to every channel in turn. -/
def eachChan (s : State) (f : State → ChannelId → State) : State := (List.finRange 8).foldl f s

/-- A number as a channel. -/
def chanOf (n : Nat) : ChannelId := Fin.ofNat 8 n

/-- The highest-priority request of R302 below priority 1 present for a channel: 2 to 5, or 0 for none. -/
def chanBlocked (s : State) (f : Nat) : Nat :=
  if s.chip.therm then 2
  else if s.getN O.FB_FLT != 0 || s.getB O.FOC_FLT f || fbState s == 5 || fbState s == 6 then 3
  else if bit (s.getN O.FCH_DIS) f || !bit (s.getN O.FB_MASK) f then 4
  else if !s.fb.pll || !s.chip.main || fbState s == 0 then 5
  else 0

/-- The highest-priority request of R302 present for a channel: 1 to 5, or 0 for none. The device holds TWTOKEN in SOLO (R16). -/
def chanReq (s : State) (f : Nat) : Nat := if twinCfg s && role s != 0 && !s.twin.token then 1 else chanBlocked s f

/-- The channels of FB_MASK under no request of priority 1 to 5, ascending (R448). A shadow runs its loop FB as if it held the
token: its outputs alone stay at priority 1 (R548). -/
def chansReady (s : State) : List Nat := (List.range 8).filter fun f => (if standby s then chanBlocked s f else chanReq s f) == 0

/-- Loop FB drives its channels: SOFTSTART, REGULATE or SOFTSTOP. -/
def fbDrives (s : State) : Bool := fbState s == 2 || fbState s == 3 || fbState s == 4

/-- The channels that switch (R448, R453). -/
def chansOn (s : State) : List Nat :=
  if fbDrives s then (chansReady s).filter fun f => s.fb.chan[chanOf f].started else []

/-- FCH_OUT (R339): a channel reads both low in a period whose pulse is withheld (R300). -/
def fchOut (s : State) : Nat :=
  ((List.range 8).map fun f =>
    (if chanReq s f = 1 then 2 else if (chansOn s).contains f && !s.fb.chan[chanOf f].withheld then 1 else 0) * 4 ^ f).sum

/-- The edges of a channel's present period (R298). -/
def chanEdges (c : Chan) : List Nat := if c.withheld then [c.flFall] else [c.flFall, c.fhRise, c.fhFall, c.flRise]

/-- FHGn and FLGn of a channel that switches, at a time (R298, R300). -/
def gatesAt (c : Chan) (t : Nat) : Bool × Bool :=
  if c.withheld then (false, false)
  else (decide (c.fhRise ≤ t) && decide (t < c.fhFall), decide (t < c.flFall) || decide (c.flRise ≤ t))

/-- FHGn and FLGn of a channel at a time: both low where it does not switch, none where they are at high impedance (R302, R303). -/
def gatesOf (s : State) (f : ChannelId) (t : Nat) : Option (Bool × Bool) :=
  if chanReq s f = 1 then none
  else if (chansOn s).contains f.val then some (gatesAt s.fb.chan[f] t) else some (false, false)

/-- A channel stops: a pulse in progress ends at once and leaves nothing in the ledger (R295, R303). -/
def chanRest (c : Chan) : Chan :=
  { c with started := false, joining := false, high := 0, onReq := 0, inPulse := false, withheld := true }

/-- FB_PERIOD_CNT (R447). -/
def fbPeriod (s : State) : Nat := s.getN O.FB_PERIOD_CNT

/-- Every balance trim is reset (R449, R453). -/
def resetTrims (s : State) : State :=
  eachChan s fun s f => (modChan s f fun c => { c with trim := 0, limAt := none }).set (O.FCH_TRIM f) 0

/-- Slot positions of R448: a channel that switches already re-spaces, a new one starts at its place (R449). -/
def placeChans (s : State) (was : List Nat) : State :=
  let now := chansReady s
  now.zipIdx.foldl (fun s e =>
    let pos := slotAt (fbPeriod s) now.length e.2
    modChan s (chanOf e.1) fun c =>
      if was.contains e.1 then { c with delta := slotDelta (fbPeriod s) c.slot pos, steps := 0 }
      else { c with slot := pos, delta := 0, steps := 8, ledger := 0 }) (resetTrims s)

/-! ### Trips of loop FB (R340, R357 to R362, R382) -/

/-- Loop FB leaves REGULATE: the burnishes that need it are abandoned (R537). -/
def fbLeaves (s : State) : State :=
  if fbState s = 3 ∧ s.getN O.FB_MASK ≠ 0 then eachLoop s burnishAbandon else s

/-- Loop FB stops in FAULT or LATCHED: 0 HICCUP, 1 LATCH (R359, R360, R362, R382). A device in role STANDBY never enters them
(R368). -/
def fbStop (s : State) (pol : Nat) : State :=
  let s := { s with fb := { s.fb with trip := none } }
  if standby s ∨ fbState s = 0 ∨ fbState s = 6 then s
  else
    let s := eachChan (fbLeaves s) fun s f => modChan s f chanRest
    if pol = 1 then s.setN O.FB_STATE 6
    else if s.fb.retryLeft = 0 then record (s.setN O.FB_STATE 6) 0x0242 .fb
    else if fbState s = 5 then s
    else { s.setN O.FB_STATE 5 with fb := { s.fb with retryAt := s.uptime } }

/-- A class of loop FB trips: its latch, the report, the policy to come (R340, R357, R358); the channels it holds end their pulses
(R303). -/
def fbTrip (s : State) (l : LatchId) (cls : FaultClass) (u : UnitId) (event : Nat) : State :=
  let s := report (setLatch s l) cls .fb u event
  let p := fbPolicyOf s cls
  let s := eachChan s fun s f => if chanBlocked s f = 0 then s else modChan s f fun c => { c with inPulse := false }
  { s with fb := { s.fb with trip := some (match s.fb.trip with | some q => sterner q p | none => p) } }

/-- A rule of class FB_CTRL acts: loop FB goes to FAULT, or LATCHED by its policy (R309, R313). -/
def fbControl (s : State) (event : Nat) : State :=
  if fbState s = 0 then s
  else
    let s := fbTrip s (.fb 4) .fbCtrl .fb event
    if abdicates s 1 then { s with twin := { s.twin with abdDue := true } } else fbStop s (fbPolicyOf s .fbCtrl)

/-- Loop FB enters OFF. -/
def fbOff (s : State) : State :=
  let s := eachChan s fun s f => modChan s f chanRest
  ({ s with fb := { s.fb with trip := none, susp := none, demand := [], h := 0, thSd := false } }).setN O.FB_STATE 0

/-- The effect of a write to FCH_DIS (R306, R309, R449): in REGULATE a channel that leaves stops at once, one that rejoins starts
with the next period. -/
def fchDisPut (s : State) (v : Nat) : State × Nat :=
  let was := chansOn s
  let s := s.setN O.FCH_DIS v
  let now := chansReady s
  let s := if fbState s = 3 ∧ was ≠ now then
      let s := placeChans s was
      (now.filter fun f => !was.contains f).foldl (fun s f => modChan s (chanOf f) fun c => { c with joining := true }) s
    else s
  let s := eachChan s fun s f => if bit v f then modChan s f chanRest else s
  (if (fbEnabled s).isEmpty then fbControl s 0x0450 else s, 0)

/-! ### Loop FB states (R451 to R456) -/

/-- Loop FB leaves OFF for ARMED; its retries are loaded (R361, R451). -/
def fbArm (s : State) : State := { s.setN O.FB_STATE 1 with fb := { s.fb with retryLeft := s.getN O.FB_RETRY_N } }

/-- FB_CMD ON (R455); a commit that affects loop FB holds it in OFF until it is applied (R94, R100; log entry 94). -/
def fbOn (s : State) : State × Nat :=
  if fbState s ≠ 0 then (s, 0) else if s.getN O.FB_MASK = 0 ∨ s.fb.affected then (s, 0xA030) else (fbArm s, 0)

/-- FB_CMD OFF (R451, R455). -/
def fbOffCmd (s : State) : State × Nat :=
  if s.getN O.FB_MASK ≠ 0 ∧ (List.finRange 8).any (fun k => decide (1 ≤ loopState s k) && decide (loopState s k ≤ 4)) then
    (s, 0xA030)
  else match fbState s with
    | 2 => (s.setN O.FB_STATE 4, 0)
    | 3 => ((fbLeaves s).setN O.FB_STATE 4, 0)
    | 0 => (s, 0)
    | 4 => (s, 0)
    | _ => (fbOff s, 0)

/-- The conditions of R452. -/
def fbCanStart (s : State) : Bool :=
  s.getN O.FB_FLT == 0 && s.getN O.FOC_FLT == 0 && decide ((s.getN O.VIN_UV : Rat) < s.fb.vin * 1000) &&
    decide (s.fb.vin * 1000 < s.getN O.VIN_OV_ABS) && s.fb.pll && !(chansReady s).isEmpty

/-- Step 6 of start-up: with FB_AUTO = 1 loop FB is armed (R451, R515). -/
def fbAuto (s : State) : State :=
  if s.getN O.START_STEP = 5 then
    stepDone (if s.isOn O.FB_AUTO && fbState s == 0 && s.getN O.FB_MASK != 0 && !passive s && !s.fb.affected then fbArm s else s) 6
  else s

/-- Entry to SOFTSTART (R453). -/
def fbPreset (s : State) : State :=
  let s := s.setN O.FB_STATE 2
  let s := { s with fb := { s.fb with vcmd := s.fb.vbus, integ := 0, ePrev := 0, h := 0, hClamped := false, ssAt := s.uptime,
                                      gap := 2, acc := 0, pos := 0, k := 0, frac := 0, dist := [] } }
  placeChans s []

/-- ARMED to SOFTSTART (R452, R453); at start-up, step 6. -/
def execFbSoftstartBegin (s : State) : Out :=
  let s := fbAuto s
  if fbState s = 1 ∧ fbCanStart s then
    .next (fbPreset s)
  else .next s

/-- The next channel starts, two periods after the one before (R453). -/
def execFbChannelStart (s : State) : Out :=
  if (fbState s = 2 ∨ fbState s = 3) ∧ 2 ≤ s.fb.gap then
    match (chansReady s).find? fun f => !s.fb.chan[chanOf f].started with
    | none => .next s
    | some f =>
      let s := modChan s (chanOf f) fun c => { c with started := true, joining := false, ledger := 0 }
      .next { s with fb := { s.fb with gap := 0 } }
  else .next s

/-- Loop FB enters REGULATE, with the event of R454; at start-up, step 7. -/
def fbRegulate (s : State) (event : Nat) : State :=
  let s := if s.getN O.START_STEP = 6 then stepDone s 7 else s
  record { s.setN O.FB_STATE 3 with fb := { s.fb with regAt := s.uptime, susp := none, demand := [] } } event .fb

/-- v_cmd equals FB_VSTART and the bus lies within 200 mV of it (R454). -/
def execFbRegulateEntry (s : State) : Out :=
  let v : Rat := (s.getN O.FB_VSTART : Rat) / 1000
  if fbState s = 2 ∧ s.fb.vcmd = v ∧ absR (s.fb.vbus - v) ≤ 1 / 5 then .next (fbRegulate s 0x0120) else .next s

/-- FB_SS_TMO has passed in SOFTSTART (R454). -/
def execFbSoftstartTimeout (s : State) : Out :=
  if fbState s = 2 ∧ s.fb.ssAt + s.getN O.FB_SS_TMO * 1000 ≤ s.uptime then .next (fbRegulate s 0x0121) else .next s

/-! ### Quantities of R428 -/

/-- VOUT in 125 µV and IOUT in 0.25 A, over the preceding 1 µs. -/
def qVout (s : State) (k : LoopId) : Int := toStep (s.loops[k].th.vMean * 8000)
def qIout (s : State) (k : LoopId) : Int := toStep (s.loops[k].th.iMean * 4)
/-- POUT, truncated to a whole watt; 0 when IOUT is negative. -/
def qPout (s : State) (k : LoopId) : Nat :=
  if s.loops[k].th.iMean < 0 then 0 else (s.loops[k].th.vMean * s.loops[k].th.iMean).floor.toNat

/-! ### The bus target (R460 to R468) -/

/-- The loops in ARMED, RAMP, REGULATE or SOFTSTOP. -/
def actLoops (s : State) : List Nat :=
  (List.range 8).filter fun k => decide (1 ≤ s.getN (O.LOOP_STATE k)) && decide (s.getN (O.LOOP_STATE k) ≤ 4)

/-- The floor, mV. -/
def bsFloor (s : State) : Int :=
  if (actLoops s).isEmpty then 5000
  else (((actLoops s).map fun k => s.getN (O.VBUS_MIN_L k)).foldl max 0 : Nat) + (s.getN O.BS_MARGIN : Int)

/-- The ceiling, mV. -/
def bsCeil (s : State) : Int :=
  let m : Int := s.getN O.BS_MARGIN
  (actLoops s).foldl (fun c k => min c ((s.getN (O.VBUS_MAX_L k) : Int) - m)) (min (s.getN O.BS_VMAX : Int) ((s.getN O.FB_OV : Int) - m))

/-- The greatest of the loops' peaks over the last BS_WIN, over BS_DHEAD, mV (R460, R461). -/
def bsNeed (s : State) : Int :=
  (actLoops s).foldl (fun m k =>
    (s.shape.peaks[loopOf k].filter fun e => decide (s.uptime ≤ e.1 + s.getN O.BS_WIN)).foldl
      (fun m e => max m (trunc (e.2 * 1000 * 32768 / (s.getN O.BS_DHEAD : Rat)))) m) 0

/-- The input band with 0.5 V of hysteresis (R462): it rises at an edge and falls 0.5 V below it (log entry 65). -/
def vinBand (c : Nat) (vin : Rat) : Nat :=
  let b := (clampI ((vin - 36) / 3).floor 0 7).toNat
  if b < c then (clampI ((vin + 1 / 2 - 36) / 3).floor 0 7).toNat else b

/-- The efficiency map at a load in W and an input band, mV (R462; log entry 65). -/
def effLookup (tab : List Nat) (p step c : Nat) : Int :=
  let n := p / step
  if 15 ≤ n then (tab.getD (120 + c) 0 : Nat)
  else
    let a : Int := (tab.getD (8 * n + c) 0 : Nat)
    let b : Int := (tab.getD (8 * (n + 1) + c) 0 : Nat)
    let frac : Rat := ((((p : Rat) / step - n) * 256).floor : Rat) / 256
    trunc (a + frac * (b - a))

/-- The largest sketch request in force, mV (R463). -/
def bsHeadroom (s : State) : Int := (List.finRange 8).foldl (fun m k => max m (trunc s.loops[k].sk.headroom)) 0

/-- The demands that can still be the greatest, with a new one (R461). -/
def pushDemand (n down : Nat) (v : Int) (l : List (Nat × Int)) : List (Nat × Int) :=
  ((n, v) :: l.dropWhile fun e => e.2 ≤ v).filter fun e => decide (n ≤ e.1 + down)

/-- The target of an FB sample in REGULATE, and v_cmd after it (R461, R464, R465). -/
def bsTarget (s : State) : State :=
  let floor := bsFloor s
  let ceil := bsCeil s
  let fixed := s.getN O.BS_MODE = 1
  let suspNow := (List.finRange 8).any fun k => loopState s k == 2
  let susp := if suspNow then some (s.fb.susp.getD s.fb.vcmd) else none
  let need := bsNeed s
  let eff := if s.isOn O.BS_EFF_EN then effLookup s.fb.eff (s.getN O.P_TOT) (s.getN O.EFF_PSTEP) s.fb.col else 0
  let hr := if suspNow then 0 else bsHeadroom s
  let demand := if fixed ∨ susp.isSome then s.fb.demand
    else pushDemand s.fb.n (s.getN O.BS_DOWN_T * 10) (max need (max eff floor) + hr) s.fb.demand
  let held := if fixed then (s.getN O.BS_VFIX : Int)
    else match susp with
      | some v => trunc (v * 1000)
      | none => (demand.map Prod.snd).foldl max 0
  let target := clampI (max (min held ceil) floor) 5000 13500
  let cmd := trunc (s.fb.vcmd * 1000)
  let step : Int := s.getN O.BS_SLEW
  let cmd := cmd + clampI (target - cmd) (-step) step
  let s := { s with fb := { s.fb with susp := susp, demand := demand, vcmd := (cmd : Rat) / 1000 } }
  let s := ((s.set O.BS_TARGET target).set O.BS_VNEED (min need 65535)).set O.BS_VEFF eff
  let s := ((s.set O.BS_FLOOR floor).set O.BS_CEIL ceil).set O.BS_HR hr
  let s := s.setN O.BS_STAT (b2n suspNow + 2 * b2n (decide fixed) + 4 * b2n (decide (ceil < floor)) + 8 * b2n (decide (ceil < held)))
  if ceil < floor then
    let note := match s.fb.floorAt with | some u => decide (u + 10000 ≤ s.uptime) | none => true
    if note then record { s with fb := { s.fb with floorAt := some s.uptime } } 0x0460 .fb else s
  else s

/-- One value moves toward a goal by at most a step. -/
def approach (v goal step : Rat) : Rat := v + clampR (goal - v) (-step) step

/-- v_cmd of an FB sample by the state (R453, R456, R461); SOFTSTOP ends at 1,000 mV. -/
def fbCommand (s : State) : State :=
  let ss : Rat := (s.getN O.FB_SS_SLEW : Rat) / 100000
  if fbState s = 3 then bsTarget s
  else if fbState s = 2 then
    { s with fb := { s.fb with vcmd := approach s.fb.vcmd ((s.getN O.FB_VSTART : Rat) / 1000) ss } }
  else
    let s := { s with fb := { s.fb with vcmd := approach s.fb.vcmd 1 ss } }
    if s.fb.vcmd = 1 then fbOff s else s

/-- Sign of a value: −1, 0 or 1. -/
def signR (x : Rat) : Int := if x < 0 then -1 else if 0 < x then 1 else 0

/-- The FB law (R457). With an input voltage of 0 the quotient has no stated value: a free one, held in its range. -/
def fbLaw (s : State) : State :=
  let vb := meanR s.fb.vbusLast
  let on := chansOn s
  let iMax := on.foldl (fun m f => max m s.fb.chan[chanOf f].current) 0
  let rl : Rat := (s.getN O.FB_RLIM : Rat) / 1000
  let e := s.fb.vcmd - vb - rl * max 0 (iMax - s.getN O.FB_ICH_MAX)
  let lim := ofQ (s.get O.FB_ILIM_V)
  let integ := if !s.fb.hClamped || signR e != signR s.fb.integ then clampR (s.fb.integ + ofQ (s.get O.FB_KI) * e) (-lim) lim
    else s.fb.integ
  let sw := s.fb.vcmd + ofQ (s.get O.FB_KP) * e + integ + ofQ (s.get O.FB_KD) * (e - s.fb.ePrev)
  let dmax : Rat := (s.getN O.FB_DMAX : Rat) / 32768
  let (raw, s) : Rat × State := if s.fb.vin = 0 then
      let (x, t) := s.draw
      ((x : Rat) / 32768, t)
    else (sw / s.fb.vin, s)
  { s with fb := { s.fb with integ := integ, ePrev := e, hClamped := decide (raw < 0) || decide (dmax < raw), h := clampR raw 0 dmax } }

/-- The channel currents of an FB sample (R450). -/
def fbCurrents (s : State) (codes : List (Fin 1024)) : State :=
  eachChan s fun s f =>
    match codes[f.val]? with
    | none => s
    | some c =>
      let i : Rat := ((c.val : Rat) - 256) * 125 / (s.getN O.FB_GCS : Rat)
      (modChan s f fun x => { x with current := i, iSum := x.iSum + i }).set (O.FCH_I f) (clampI (toStep (i * 256)) (-8192) 24544)

/-- The high interval of a channel's present period, after the ledger and the limits, counts (R300). -/
def chanHigh (c : Chan) : Int := if c.withheld then 0 else (c.fhFall : Int) - c.flFall

/-- What the twin link takes of an FB sample (R563). -/
def fbDigestStep (s : State) : State :=
  let on := chansOn s
  let sum := (on.map fun f => chanHigh s.fb.chan[chanOf f]).sum
  let full := on.map fun f => s.fb.chan[chanOf f].high
  if fbState s = 0 then s
  else if role s = 1 then
    let d : Digest := ⟨.fb, s.fb.n, Fin.ofNat 256 (sum % 256).toNat, if s.fb.n % 64 = 0 then full else []⟩
    { s with twin := { s.twin with digest := some d } }
  else if standby s then { s with fb := { s.fb with past := ((s.fb.n, sum, full) :: s.fb.past).take 64 } }
  else s

/-- The least and the greatest high interval of a channel (R300). -/
def chanLo (e : Nat) : Int := dtLh e + fminPulse e
def chanHi (e p : Nat) : Int := (p : Int) - dtHl e - fminPulse e

/-- The falling edge of a channel that lies at or before a time: its ledger takes what the pulse left (R293, R300). -/
def settleChan (s : State) (f : ChannelId) (now : Nat) : State :=
  let c := s.fb.chan[f]
  if c.inPulse && decide (c.fhFall ≤ now) then
    let (l, drop) := ledgerAfter (c.ledger + c.owed - ((c.fhFall : Int) - c.flFall)) c.period
    (modChan s f fun c => { c with ledger := l, inPulse := false, carry := 0 }).bumpBy O.FB_LEDGER_DROP drop
  else s

/-- Every channel's falling edge at or before a time. -/
def settleChans (s : State) (now : Nat) : State := eachChan s fun s f => settleChan s f now

/-- A channel takes its high interval at time `now`: a pulse in progress ends where the new one puts it, or at the next count, and
FLGn rises DT_HL later (R288, R301). -/
def takeHigh (c : Chan) (now : Nat) (h high : Int) : Chan :=
  let c := { c with onReq := h, high := high }
  if c.inPulse && decide (now < c.fhFall) then
    let owed := h + c.carry
    let fall := max (c.flFall + (clampI owed (chanLo c.entry) (chanHi c.entry c.period)).toNat) (now + 1)
    { c with owed := owed, fhFall := fall, flRise := fall + dtHl c.entry }
  else c

/-- The FB sample, every 100 ns (R450, R457, R461, R468). -/
def execFbSample (codes : List (Fin 1024)) (s : State) : Out :=
  if s.chip.main ∧ s.fb.pll then
    let s := fbCurrents s codes
    let s := settleChans s (200 * (s.fb.n + 1))
    let s := { s with fb := { s.fb with n := s.fb.n + 1, iN := s.fb.iN + 1, col := vinBand s.fb.col s.fb.vin } }
    let s := s.setBitAt O.BS_STAT 4 (s.getN O.FB_MASK == 0)
    let s := if s.getN O.FB_MASK = 0 then s.setN O.BS_STAT 16
      else if fbDrives s then
        let s := fbCommand s
        if fbDrives s then
          let s := fbLaw s
          let p := s.fb.vbus * ((chansOn s).map fun f => s.fb.chan[chanOf f].current).sum
          { s with fb := { s.fb with pSum := s.fb.pSum + p, pN := s.fb.pN + 1 } }
        else s
      else s
    .next (fbDigestStep (s.set O.BS_VCMD (if s.getN O.FB_MASK = 0 ∨ fbDrives s = false then 0 else trunc (s.fb.vcmd * 1000))))
  else .next s

/-! ### The FB period (R297, R449, R458, R459) -/

/-- The trims of the switching channels at a period boundary (R458, R459). -/
def fbTrims (s : State) (on : List Nat) : State :=
  if s.fb.iN = 0 then s
  else
    let n : Rat := s.fb.iN
    let mean := meanR (on.map fun f => s.fb.chan[chanOf f].iSum / n)
    let lim : Rat := s.getN O.FB_BAL_LIM
    let kb : Rat := (s.getN O.FB_BAL_K : Rat) / 32768
    let s := on.foldl (fun s f =>
      let c := s.fb.chan[chanOf f]
      let t : Rat := (toStep (clampR (c.trim + kb * (mean - c.iSum / n)) (-lim) lim * 256) : Rat) / 256
      let at_ := if absR t = lim then some (c.limAt.getD s.fb.n) else none
      (modChan s (chanOf f) fun c => { c with trim := t, limAt := at_ }).set (O.FCH_TRIM (chanOf f)) (toStep (t * 256))) s
    eachChan { s with fb := { s.fb with iN := 0 } } fun s f => modChan s f fun c => { c with iSum := 0 }

/-- Count 0 of the FB period counter: channels that rejoin start with this period (R449), and pulses that have ended are
settled. -/
def fbTurns (s : State) : State :=
  let s := { s with fb := { s.fb with gap := s.fb.gap + 1, zero := s.fb.zero + fbPeriod s } }
  let s := settleChans s s.fb.zero
  eachChan s fun s f => modChan s f fun c =>
    if c.joining && (chansReady s).contains f.val then { c with joining := false, started := true, ledger := 0 } else c

/-- The boundary of the FB period: trims, high intervals and their distribution (R297, R458). Where the switching channels have
changed since the boundary before, acc and p start from 0, as R292 has it for cells (log entry 93). -/
def execFbPeriodBoundary (s : State) : Out :=
  if s.chip.main ∧ s.fb.pll then
    let s := fbTurns s
    let on := chansOn s
    if on.isEmpty then .next s
    else
      let s := fbTrims s on
      let n := on.length
      let same := s.fb.dist == on
      let acc := if same then s.fb.acc + n * s.fb.frac - 256 * s.fb.k else 0
      let pos := if same then (s.fb.pos + s.fb.k.toNat) % n else 0
      let cmd := toStep (s.fb.h * fbPeriod s * 256)
      let frac := cmd % 256
      let x := extraCells n frac acc
      let order := (List.mergeSort (on.map fun f => (s.fb.chan[chanOf f].slot, f)) fun a b => a.1 < b.1 || (a.1 == b.1 && a.2 ≤ b.2)).map Prod.snd
      let seq := stippleSeq n
      let extra := (List.range x.toNat).map fun i => seq.getD ((pos + i) % n) 0
      let s := { s with fb := { s.fb with acc := acc, pos := pos, k := x, frac := frac, dist := on } }
      .next (order.zipIdx.foldl (fun s e =>
        modChan s (chanOf e.1) fun c =>
          takeHigh c s.fb.zero (cmd / 256 + (if extra.contains e.2 then 1 else 0) + c.trim.floor) (cmd + toStep (c.trim * 256))) s)
  else .next s

/-- A channel's period from its slot position (R298 to R300): the edges of its pulse, or a withheld pulse. The table has no row for
the falling edge: its ledger is settled by the next FB sample, FB period or slot position (log entry 64). -/
def execFbChannelSlot (f : ChannelId) (s : State) : Out :=
  if (chansOn s).contains f.val then
    let at_ := s.fb.zero + s.fb.chan[f].slot
    let s := settleChan s f at_
    let c := s.fb.chan[f]
    let e := s.fb.tim.getD (s.getN O.DTC_BAND) 0x502828
    let st := respaceStep c.delta c.steps
    let p := ((fbPeriod s : Int) + st).toNat
    let slot := ((c.slot : Int) + st) % (fbPeriod s : Int)
    let s := modChan s f fun c => { c with slot := slot.toNat, steps := min 8 (c.steps + 1), entry := e, period := p, flFall := at_,
                                             past := chanEdges c }
    let t := c.onReq + c.ledger
    if t < chanLo e then
      .next ((modChan s f fun c => { c with ledger := t, inPulse := false, withheld := true, carry := 0 }).bump O.FB_RUNT_CNT)
    else
      let fall := at_ + (clampI t (chanLo e) (chanHi e p)).toNat
      .next (modChan s f fun x =>
        { x with ledger := 0, inPulse := true, withheld := false, owed := t, carry := c.ledger
                 fhRise := at_ + dtLh e, fhFall := fall, flRise := fall + dtHl e })
  else .next s

/-- A trim has stood at its limit for 1 ms (R459). -/
def execFbTrimLimit (f : ChannelId) (s : State) : Out :=
  let c := s.fb.chan[f]
  match c.limAt with
  | none => .next s
  | some n =>
    let note := match c.trimAt with | some u => decide (u + 10000 ≤ s.uptime) | none => true
    if n + 10000 ≤ s.fb.n ∧ note = true then .next (record (modChan s f fun c => { c with trimAt := some s.uptime }) 0x0462 (.channel f))
    else .next s

/-! ### Reports of the master regions, and the bus budget (R434, R460, R469) -/

/-- The report of each microsecond (R460): the peaks of u0 and P_tot. -/
def execPeakU0Report (s : State) : Out :=
  let s := eachLoop s fun s k =>
    let seen := if running s k then [(s.uptime, s.loops[k].th.peakU0)] else []
    let keep := (seen ++ s.shape.peaks[k]).filter fun e => decide (s.uptime ≤ e.1 + 100)
    ({ s with shape := { s.shape with peaks := s.shape.peaks.set k keep } }).modLoop k fun l => { l with th := { l.th with peakU0 := 0 } }
  let p := ((List.finRange 8).map fun k => if isOff s k then 0 else qPout s k).sum
  .next (s.setN O.P_TOT (min 65535 p))

/-- The components of a loop's grant that are in force, with the bit that marks each (R434). -/
def grantParts (s : State) (k : LoopId) : List (Nat × Rat) :=
  [(0, (s.efN k (O.ILIM_TOT k) : Rat) * ilimNow s k / 4096)] ++
    (if s.efN k (O.TH_BUDGET k) = 0 then [] else [(1, (s.efN k (O.TH_BUDGET k) : Rat))]) ++
    (match s.shape.budget[k] with | some b => [(2, b)] | none => [])

/-- The grant, A, and the mark of every component equal to it. -/
def grantOf (s : State) (k : LoopId) : Nat × Nat :=
  let parts := (grantParts s k).map fun e => (e.1, e.2.floor.toNat)
  let g := (parts.map Prod.snd).foldl min 6000
  (g, ((parts.filter fun e => e.2 == g).map fun e => 2 ^ e.1).sum)

/-- GRANT is formed afresh, and alert bit 9 where the grant falls below the present IOUT (R431, R434). -/
def grantRefresh (s : State) (k : LoopId) : State :=
  let g := (grantOf s k).1
  let low := decide ((g : Rat) < s.loops[k].th.iMean)
  let was := s.shape.short[k]
  let s := ({ s with shape := { s.shape with short := s.shape.short.set k low } }).setN (O.GRANT k) g
  if low && !was then amlAlert s k 9 else s

/-- The bus budget of every loop, each microsecond (R469). -/
def execBusBudgetUpdate (s : State) : Out :=
  let vb := meanR s.fb.vbusLast
  let av : Rat := ((chansOn s).length : Rat) * s.getN O.FB_ICH_MAX * vb
  .next (eachLoop s fun s k =>
    let b : Option Rat :=
      if s.getN O.FB_MASK = 0 then none
      else if fbState s = 3 then
        some (s.loops[k].th.iMean + max 0 (av - s.getN O.P_TOT) / max s.loops[k].th.vMean (1 / 4))
      else if fbState s = 0 then none
      else some 0
    grantRefresh { s with shape := { s.shape with budget := s.shape.budget.set k b } } k)

/-- The effect of a write to BS_MODE (R467). -/
def bsModePut (s : State) (v : Nat) : State × Nat :=
  let old := s.getN O.BS_MODE
  (record (s.setN O.BS_MODE v) 0x0461 .fb (leBytes 1 old ++ leBytes 1 v), 0)

end Sys2Proof.Machine
end

