-- ==== Sys2Proof/Machine/Protection.lean ====
section
/-! DEFINITION. Trips, policies, latches, retries, abdication and the hatching tree (08_protection.md, R548, R552, R566). -/

namespace Sys2Proof.Machine

/-! ### Trips (R340, R341) -/

/-- A crossing of a cell's comparator, from its start to its end, is blanked (R348), by the edges of its pulses or those of its
burnish (R525). -/
def cellBlanked (s : State) (n : CellId) (start : Nat) (stop : Option Nat) : Bool :=
  match loopOfCell s n with
  | some k => blanked (s.cells[n].edges ++ burnEdges s n) (blankOf (timEntry s k n)) start stop
  | none => false

/-- The peak comparator of a cell crosses its threshold, and trips unless the crossing is blanked (R340, R348). -/
def execOcPkTrip (n : CellId) (start : Nat) (stop : Option Nat) (s : State) : Out :=
  if cellWatched s n && !latchSet s (.cell n 0) && !cellBlanked s n start stop then .next (cellTrip s n 0 .ocPk 0x0201) else .next s

/-- The negative comparator of a cell crosses its threshold (R340, R348). A cell held low by OV_SAFE goes to mid-level at any
crossing: no blanking applies, and it does so whether or not its latch is set already (R346). -/
def execOcNegTrip (n : CellId) (start : Nat) (stop : Option Nat) (s : State) : Out :=
  if cellWatched s n && (s.cells[n].low || (!latchSet s (.cell n 2) && !cellBlanked s n start stop)) then
    .next (cellTrip s n 2 .ocNeg 0x0203)
  else .next s

/-- The blanking window of a block: BLANK of its band's entry, counts (R234; log entry 95). -/
def blockBlank (s : State) (k : LoopId) (b : BlockId) : Nat := blankOf (s.loops[k].eng.tim.getD (s.getN (O.TMON_BAND b)) 0x505028)

/-- The end of the blanking that a low of a block's BFLT_N lies in, which every further edge of its cells extends (R23; log entry
95). -/
def blankedTo (blank start : Nat) (edges : List Nat) : Option Nat :=
  (List.mergeSort edges).foldl (fun w e =>
    match w with
    | none => if e ≤ start ∧ start < e + blank then some (e + blank) else none
    | some t => if e ≤ t then some (e + blank) else some t) none

/-- A low of BFLT_N is ignored: it lies inside the blanking that the edges of the block's four cells give (R23), and has not lasted
longer than the block's blanking window (R24). -/
def bfltIgnored (s : State) (k : LoopId) (b : BlockId) (start : Nat) (stop : Option Nat) : Bool :=
  let blank := blockBlank s k b
  let edges := [4 * b.val, 4 * b.val + 1, 4 * b.val + 2, 4 * b.val + 3].flatMap fun n =>
    s.cells[cellOf n].edges ++ burnEdges s (cellOf n)
  match blankedTo blank start edges, stop with
  | some w, some t => decide (t ≤ w) && decide (t ≤ start + blank)
  | _, _ => false

/-- A low of BFLT_N, from its start to its end, trips a block, with its four cells, unless it is ignored (R22 to R24, R340; log entry
57). -/
def execBfltTrip (b : BlockId) (start : Nat) (stop : Option Nat) (s : State) : Out :=
  match loopOfBlock s b with
  | none => .next s
  | some k =>
    if latchSet s (.block b) || (isOff s k && !burning s k) || bfltIgnored s k b start stop then .next s
    else
      let s := setLatch s (.block b)
      let shed := policyOf s k .bflt == 2 && !faulted s k && !isOff s k
      let s := [4 * b.val, 4 * b.val + 1, 4 * b.val + 2, 4 * b.val + 3].foldl (fun s n =>
        ((stopCell s (cellOf n)).bump (O.CELL_TRIP_CNT (cellOf n))).modCell (cellOf n) fun c =>
          { c with low := false, shedWith := shed }) s
      let s := report s .bflt (.loop k) (.block b) 0x0210
      .next (if isOff s k then s else tripWaits s k (policyOf s k .bflt))

/-- A loop class is detected: its loop runs and the latch is not set. -/
def loopWatched (s : State) (k : LoopId) (c : FaultClass) : Bool := running s k && !latchSet s (.loop k (loopBit c))

/-- OVP_ABS (R340, R344). -/
def execOvpAbsTrip (k : LoopId) (s : State) : Out :=
  if loopWatched s k .ovpAbs then .next (loopTrip s k .ovpAbs 0x0220) else .next s

/-- OVP_SET: OVP_SET_N consecutive samples, not in OBSERVER-ONLY (R340, R341). -/
def execOvpSetTrip (k : LoopId) (s : State) : Out :=
  if loopWatched s k .ovpSet ∧ observing s k = false ∧ s.efN k (O.OVP_SET_N k) ≤ s.loops[k].sn.ovSet then
    .next (loopTrip s k .ovpSet 0x0221)
  else .next s

/-- A condition that has lasted a number of microseconds at the loop's latest tick. -/
def lasted (s : State) (k : LoopId) (o : Option Nat) (us : Nat) : Bool :=
  match o with
  | some t => decide (t + us * 2000 ≤ s.loops[k].eng.tick)
  | none => false

/-- UVP: in REGULATE, for UVP_T (R340, R341). -/
def execUvpTrip (k : LoopId) (s : State) : Out :=
  if loopState s k = 3 ∧ loopWatched s k .uvp ∧ observing s k = false ∧
      lasted s k s.loops[k].sn.uvSince (s.efN k (O.UVP_T k)) then .next (loopTrip s k .uvp 0x0222)
  else .next s

/-- ITRIP: for ITRIP_T (R340). -/
def execItripTrip (k : LoopId) (s : State) : Out :=
  if loopWatched s k .itrip ∧ lasted s k s.loops[k].sn.itSince (s.efN k (O.ITRIP_T k)) then .next (loopTrip s k .itrip 0x0223)
  else .next s

/-- A bus class of a loop: every region of the loop reports it (R366). -/
def busTrip (s : State) (k : LoopId) (c : FaultClass) (event : Nat) : State :=
  let flight := s.tree.flight
  let s := loopTrip s k c event
  let msgs := (regionsOf s k).map fun r =>
    ({ to_ := .region (regionOf r), from_ := none, cause := ⟨c, .loop k⟩, summary := false, unit := .loop k, event := event } : Msg)
  { s with tree := { s.tree with flight := flight ++ msgs } }

/-- 500 ns of bus conversions, one every 20 ns (R122, R340). -/
def execVbusLoTrip (k : LoopId) (s : State) : Out :=
  if loopWatched s k .vbusLo ∧ 26 ≤ s.loops[k].sn.busLo then .next (busTrip s k .vbusLo 0x0224) else .next s

/-- The same above VBUS_MAX_L. -/
def execVbusHiTrip (k : LoopId) (s : State) : Out :=
  if loopWatched s k .vbusHi ∧ 26 ≤ s.loops[k].sn.busHi then .next (busTrip s k .vbusHi 0x0225) else .next s

/-- A class of loop FB is detected: loop FB is outside OFF and the latch is not set (R341). -/
def fbWatched (s : State) (l : LatchId) : Bool := fbState s != 0 && !latchSet s l

/-- FB_OV: 200 ns of bus conversions (R340). -/
def execFbOvTrip (s : State) : Out :=
  if fbWatched s (.fb 0) ∧ 11 ≤ s.fb.fbOv then .next (fbTrip s (.fb 0) .fbOv .fb 0x0228) else .next s

/-- FB_UV, once the bus soft-start is complete (R340, R454). -/
def execFbUvTrip (s : State) : Out :=
  if fbWatched s (.fb 1) ∧ fbState s = 3 ∧ 11 ≤ s.fb.fbUv then
    .next (fbTrip s (.fb 1) .fbUv .fb 0x0229)
  else .next s

/-- VIN_OV (R340). -/
def execVinOvTrip (s : State) : Out :=
  if fbWatched s (.fb 2) then .next (fbTrip s (.fb 2) .vinOv .fb 0x022A) else .next s

/-- VIN_UV: 4 consecutive input conversions (R340). -/
def execVinUvTrip (s : State) : Out :=
  if fbWatched s (.fb 3) ∧ 4 ≤ s.fb.vinUv then .next (fbTrip s (.fb 3) .vinUv .fb 0x022B) else .next s

/-- A crossing of a channel's FOC comparator is blanked: it starts and ends within FOC_BLANK of an edge of FHGn or FLGn (R349). -/
def focBlanked (s : State) (f : ChannelId) (start : Nat) (stop : Option Nat) : Bool :=
  blanked (chanEdges s.fb.chan[f] ++ s.fb.chan[f].past) (s.getN O.FOC_BLANK) start stop

/-- FOC of a channel (R340, R349 to R351): honoured in a dead time as at any other moment, unless it is blanked; both outputs are low
at once, and the rise that would have ended the dead time does not come (R350). -/
def execFocTrip (f : ChannelId) (start : Nat) (stop : Option Nat) (s : State) : Out :=
  if fbWatched s (.foc f) && !focBlanked s f start stop then .next (fbTrip s (.foc f) .foc (.channel f) 0x022C) else .next s

/-! ### Leaving the outputs (R548, R552, R566) -/

/-- READY (R566): alignment records of the last 1 ms, the journal complete, THERMTRIP_N high, no watchdog expired, no
divergence hold. -/
def twReady (s : State) : Bool :=
  let t := s.twin
  let fresh (i : Nat) := match t.recAt.toList.getD i none with | some u => decide (s.uptime ≤ u + 1000) | none => false
  role s == 2 && (List.finRange 8).all (fun k => isOff s k || fresh k) &&
    (match t.peer with | some h => t.applied % 65536 == h.jseq.val | none => false) && !s.chip.therm && t.wdOk && !t.divHold

/-- The heartbeat of the moment (R556). -/
def heartbeatNow (s : State) : Heartbeat :=
  { seq := Fin.ofNat 256 s.twin.seq, role := Fin.ofNat 8 (role s), hold := s.twin.token, abd := s.twin.abd, ready := twReady s,
    alignReq := !s.twin.alignFor.isEmpty, startStep := Fin.ofNat 16 (s.getN O.START_STEP),
    loopStates := (List.finRange 8).map fun k => Fin.ofNat 8 (loopState s k), fbState := Fin.ofNat 8 (fbState s),
    topoGen := Fin.ofNat 256 (s.getN O.TOPO_GEN),
    jseq := Fin.ofNat 65536 (if standby s then s.twin.applied else s.twin.jseq) }

/-- A heartbeat is sent: the own watchdog starts again (R551, R555). -/
def sendHeartbeat (s : State) : State :=
  { s with twin := { s.twin with sent := some (heartbeatNow s), seq := (s.twin.seq + 1) % 256, wdOk := true, sentAt := s.uptime } }

/-- Every pulse ends where it stands, and leaves nothing in its ledger (R294, R295, R303). -/
def cutPulses (s : State) : State :=
  let s := (List.finRange 96).foldl stopCell s
  eachChan s fun s f => modChan s f fun c => { c with inPulse := false }

/-- The device gives the token back: its outputs are at high impedance, then TWTOKEN rises (R552). -/
def releaseToken (s : State) : State :=
  cutPulses { s with twin := { s.twin with token := false, level := true } }

/-- The device takes role DETACHED (4) or JOINING (3): every loop and loop FB go to OFF, their latches kept (R548); a join starts with
1 ms for its first step (R569). -/
def leaveTwin (s : State) (role_ : Nat) : State :=
  let s := eachLoop ((s.setN O.TW_ROLE role_).setN O.TW_JOIN_STEP 0) burnishAbandon
  let s := eachLoop s fun s k => if isOff s k then s else enterOff s k
  let s := if fbState s = 0 then s else fbOff s
  let s := eachLoop s fun s k => s.setN (O.PG_STAT k) 0
  { s with twin := { s.twin with abd := false, abdSeen := false, abdDue := false, journal := [], divHold := false, alignFor := [],
                                 div := Vector.replicate 9 0, skip := Vector.replicate 9 0, recAt := Vector.replicate 9 none,
                                 waitAt := if role_ = 4 then some s.uptime else none, due := s.uptime + 1000 } }

/-- An ACTIVE gives up with ABD set in an immediate heartbeat, which carries the loop states in force before; it releases
the token and enters DETACHED (R566, R570). -/
def abdicateTo (s : State) : State :=
  leaveTwin (releaseToken (sendHeartbeat { s with twin := { s.twin with abd := true } })) 4

/-- An ACTIVE abdicates (R566), event 0x0603. -/
def abdicate (s : State) : State := record ((abdicateTo s).bump O.ABD_CNT) 0x0603 .chip

/-! ### Policies (R357 to R368) -/

/-- The cells of a loop that a latch of their own or of their block holds. -/
def heldCells (s : State) (k : LoopId) : List Nat :=
  (cellsOf s k).filter fun n => s.getN (O.CELL_FLT n) != 0 || s.getN (O.BLK_FLT (n / 4)) != 0

/-- Those that a latch holds whose policy, at its trip, was SHED; a tripped block counts as four cells (R364, R365). -/
def shedCount (s : State) (k : LoopId) : Nat :=
  ((cellsOf s k).filter fun n => s.cells[cellOf n].shedBy || s.cells[cellOf n].shedWith).length

/-- The safe state of every held cell is reached: IMON and READBACK act now (R343). -/
def actCells (s : State) (k : LoopId) : State :=
  (heldCells s k).foldl (fun s n => (stopCell s (cellOf n)).modCell (cellOf n) fun c => { c with acted := true }) s

/-- Shed and continue (R363), with its escalation (R364); the shed of a removed cell is complete (R330). -/
def applyShed (s : State) (k : LoopId) : State :=
  let s := actCells s k
  if faulted s k ∨ isOff s k then s
  else
    let s := removeCells s k (heldCells s k)
    if s.getN (O.SHED_MAX k) < shedCount s k ∨ nAvail s k < nMin s k then
      stopBy (recordLoop s 0x0243 k) k (bits (s.getN (O.POLICY k)) 22 2)
    else shedsDone s k

/-- The master applies the policy of the trips it has learned of, after the erase of an open sketch (R271, R357); loop FB
applies its own. An abdicating trip releases the outputs instead (R566). -/
def execPolicyApply (u : LoopOrFb) (s : State) : Out :=
  if s.twin.abdDue && role s == 1 && peerReady s then .next (abdicate s)
  else
    let s := { s with twin := { s.twin with abdDue := false } }
    match u with
    | .fb => (match s.fb.trip with
        | some p => .next (fbStop s p)
        | none => .next s)
    | .loop k => (match s.loops[k].ctl.trip with
        | none => .next s
        | some p =>
          let s := s.modLoop k fun l => { l with ctl := { l.ctl with trip := none } }
          let s := sketchErase s k 0x12
          if p = 2 then .next (applyShed s k) else .next (stopBy (actCells s k) k p))

/-! ### Clearing latches (R352 to R356, R362) -/

/-- The latch fields of an object by bit. -/
def latchField : LatchObj → Nat → LatchId
  | .loop k, b => .loop k (Fin.ofNat 16 b)
  | .cell n, b => .cell n (Fin.ofNat 5 b)
  | .block b, _ => .block b
  | .fb, b => .fb (Fin.ofNat 5 b)
  | .foc, b => .foc (chanOf b)

/-- The bits of an object that are latch fields. -/
def latchBits : LatchObj → List Nat
  | .loop _ => [0, 1, 2, 3, 4, 5, 8, 9, 10, 11, 12, 13, 14, 15]
  | .cell _ => [0, 1, 2, 3, 4] | .block _ => [0] | .fb => [0, 1, 2, 3, 4] | .foc => [0, 1, 2, 3, 4, 5, 6, 7]

/-- The object's address, its bytes and its unit. -/
def latchObjAddr : LatchObj → Addr
  | .loop k => O.LOOP_FLT k | .cell n => O.CELL_FLT n | .block b => O.BLK_FLT b | .fb => O.FB_FLT | .foc => O.FOC_FLT
def latchObjBytes : LatchObj → Nat
  | .loop _ => 2 | .fb => 2 | _ => 1
def latchObjUnit : LatchObj → UnitId
  | .loop k => .loop k | .cell n => .cell n | .block b => .block b | .fb => .fb | .foc => .fb

/-- A LATCHED loop without latches goes to OFF (R362). -/
def unlatch (s : State) (k : LoopId) : State := if loopState s k = 6 ∧ anyLatch s k = false then enterOff s k else s

/-- The same for loop FB. -/
def fbUnlatch (s : State) : State := if fbState s = 6 ∧ s.getN O.FB_FLT = 0 ∧ s.getN O.FOC_FLT = 0 then fbOff s else s

/-- The states that follow a clear of an object's latches. -/
def afterClear (s : State) (o : LatchObj) : State :=
  match o with
  | .loop k => unlatch s k
  | .cell n => (match loopOfCell s n with | some k => unlatch s k | none => s)
  | .block b => (match loopOfBlock s b with | some k => unlatch s k | none => s)
  | _ => fbUnlatch s

/-- What event 0x0240 says of a refused field: 0xFFFFFFFF for an active input, else the µs it has been inactive (R354). -/
def refusedField (s : State) (l : LatchId) : List Byte :=
  leBytes 4 (if inputNow s l then 0xFFFFFFFF else min 0xFFFFFFFE (inactiveFor s l))

/-- A write of 1s to the latch fields of an object (R353, R354): all of it, or none. -/
def latchClearPut (s : State) (o : LatchObj) (mask : Nat) : State × Nat :=
  let fields := ((latchBits o).filter (bit mask)).map (latchField o)
  let bad := fields.filter fun l => !inactiveLong s l
  if bad.isEmpty then (afterClear (fields.foldl clearLatch s) o, 0)
  else
    let a := latchObjAddr o
    let vals := leBytes 4 a ++ leBytes (latchObjBytes o) mask ++ bad.flatMap (refusedField s)
    (record s 0x0240 (latchObjUnit o) vals, 0xA030)

/-! ### Retries (R359 to R361, R482) -/

/-- The set latches that hold a loop, or loop FB (log entry 56). -/
def setLatches (s : State) (ls : List LatchId) : List LatchId := ls.filter (latchSet s)

/-- A retry that clears the latches takes the loop to ARMED; where no bank can be active it ends in OFF (R175, R359; log
entries 55 and 56). -/
def retryLoop (s : State) (k : LoopId) : State :=
  let ls := setLatches s (latchesOf s k)
  if ls.all (inactiveLong s) then
    let s := recordLoop (ls.foldl clearLatch s) 0x0241 k
    match bankFor s k s.fb.vbus with
    | some m => enterArmed s k m
    | none => enterOff (recordLoop s 0x0401 k) k
  else s

/-- The uptime of the next retry tick: RETRY_INT, of 0.1 ms, after the entry to FAULT or the tick before (R359, R379, R382). -/
def retryDue (s : State) : LoopOrFb → Nat
  | .loop k => s.loops[k].ctl.retryAt + 100 * s.getN (O.RETRY_INT k)
  | .fb => s.fb.retryAt + 100 * s.getN O.FB_RETRY_INT

/-- A retry tick has come. -/
def noteRetry (s : State) (u : LoopOrFb) : State :=
  let t := retryDue s u
  match u with
  | .loop k => s.modLoop k fun l => { l with ctl := { l.ctl with retryAt := t } }
  | .fb => { s with fb := { s.fb with retryAt := t } }

/-- The retry tick of a loop or of loop FB in FAULT, each RETRY_INT from the entry (R359, R360, R382); it fails while THERMTRIP_N is
low (R482). -/
def execRetryTick (u : LoopOrFb) (s : State) : Out :=
  if s.uptime < retryDue s u then .next s
  else if s.chip.therm then .next (noteRetry s u)
  else match u with
    | .loop k =>
      let s := noteRetry s u
      if loopState s k ≠ 5 then .next s
      else if s.getN (O.RETRY_LEFT k) = 0 then .next (recordLoop (toLatched s k 0x12) 0x0242 k)
      else
        let s := if s.getN (O.RETRY_N k) = 255 then s else s.setN (O.RETRY_LEFT k) (s.getN (O.RETRY_LEFT k) - 1)
        .next (retryLoop s k)
    | .fb =>
      let s := noteRetry s u
      if fbState s ≠ 5 then .next s
      else if s.fb.retryLeft = 0 then .next (record (s.setN O.FB_STATE 6) 0x0242 .fb)
      else
        let s := if s.getN O.FB_RETRY_N = 255 then s else { s with fb := { s.fb with retryLeft := s.fb.retryLeft - 1 } }
        let ls := setLatches s fbLatches
        if ls.all (inactiveLong s) then .next (record ((ls.foldl clearLatch s).setN O.FB_STATE 1) 0x0241 .fb) else .next s

/-- RETRY_LEFT is loaded after RETRY_CLR_T in REGULATE (R361, R382). -/
def execRetryLeftReload (u : LoopOrFb) (s : State) : Out :=
  match u with
  | .loop k =>
    if loopState s k = 3 ∧ s.loops[k].ctl.regAt + s.getN (O.RETRY_CLR_T k) * 1000 ≤ s.uptime then
      .next (s.setN (O.RETRY_LEFT k) (s.getN (O.RETRY_N k)))
    else .next s
  | .fb =>
    if fbState s = 3 ∧ s.fb.regAt + 1000000 ≤ s.uptime then
      .next { s with fb := { s.fb with retryLeft := s.getN O.FB_RETRY_N } }
    else .next s

/-! ### The hatching tree (R36, R371 to R377) -/

/-- A set of numbers with others. -/
def unionNat (a b : List Nat) : List Nat := b.foldl insertNat a

/-- The region of a collector that sends to the chip, by a region collector. -/
def senderRegion : Option CollectorId → Option RegionId
  | some (.region r) => some r
  | _ => none

/-- A region's collector counts a message that did not fit, by cause and by kind: `count` has its first reports, `sums` its closing
summaries (R36; log entry 36). -/
def countLost (l : List Msg) (m : Msg) : List Msg :=
  match l with
  | [] => [{ m with summary := true, overflow := true, count := if m.summary then 0 else 1, sums := if m.summary then 1 else 0 }]
  | x :: xs =>
    if x.cause = m.cause then
      { x with count := if m.summary then x.count else x.count + 1, sums := if m.summary then x.sums + 1 else x.sums,
               cells := unionNat x.cells m.cells, blocks := unionNat x.blocks m.blocks, regions := unionNat x.regions m.regions } :: xs
    else x :: countLost xs m

/-- A message leaves its collector: it enters the crossing, or waits in a region that has lost CK0 (R36). -/
def sendMsg (s : State) (m : Msg) : State :=
  match m.to_, senderRegion m.from_ with
  | .chip, some r =>
    if s.regions[r].cut then
      if s.regions[r].held.length < 16 then s.modRegion r fun g => { g with held := g.held ++ [m] }
      else s.modRegion r fun g => { g with lost := countLost g.lost m }
    else { s with tree := { s.tree with flight := s.tree.flight ++ [m] } }
  | _, _ => { s with tree := { s.tree with flight := s.tree.flight ++ [m] } }

/-- The collector above. -/
def parentOf : CollectorId → CollectorId
  | .block b => .region ⟨b.val / 3, by omega⟩
  | _ => .chip

/-- The maps of a message as a collector marks them: its sender is a reporter (R371). -/
def markSender (m : Msg) : Msg :=
  match m.from_ with
  | some (.block b) => { m with blocks := insertNat m.blocks b.val }
  | some (.region r) => { m with regions := insertNat m.regions r.val }
  | _ => m

/-- A change of the first window that meets a condition. -/
def updFirst {α : Type} (p : α → Bool) (f : α → α) : List α → List α
  | [] => []
  | x :: xs => if p x then f x :: xs else x :: updFirst p f xs

/-- A first report at a block's or region's collector (R371). -/
def firstAt (s : State) (m : Msg) : State :=
  let m := markSender m
  let isOpen (w : Window) := w.at_ == m.to_ && w.cause == m.cause && !w.closed
  let owes := m.from_.toList
  if s.tree.windows.any isOpen then
    { s with tree := { s.tree with windows := updFirst isOpen (fun w =>
      { w with count := w.count + 1, cells := unionNat w.cells m.cells, blocks := unionNat w.blocks m.blocks,
               regions := unionNat w.regions m.regions, owed := w.owed ++ owes }) s.tree.windows } }
  else
    let w : Window := { at_ := m.to_, cause := m.cause, openedAt := s.uptime, owed := owes }
    sendMsg { s with tree := { s.tree with windows := s.tree.windows ++ [w] } } { m with to_ := parentOf m.to_, from_ := some m.to_ }

/-- A closed window that is owed nothing sends its closing summary and ends (R372). -/
def finishWindows (s : State) : State :=
  let isDone (w : Window) := w.closed && w.owed.isEmpty
  let s' := { s with tree := { s.tree with windows := s.tree.windows.filter fun w => !isDone w } }
  (s.tree.windows.filter isDone).foldl (fun s w => sendMsg s
    { to_ := parentOf w.at_, from_ := some w.at_, cause := w.cause, summary := true, unit := .chip, event := 0, count := w.count,
      cells := w.cells, blocks := w.blocks, regions := w.regions }) s'

/-- A closing summary at a block's or region's collector (R372). -/
def summaryAt (s : State) (m : Msg) : State :=
  let m := markSender m
  match m.from_ with
  | none => s
  | some c =>
    let owes (w : Window) := w.at_ == m.to_ && w.cause == m.cause && w.owed.contains c
    finishWindows { s with tree := { s.tree with windows := updFirst owes (fun w =>
      { w with count := w.count + m.count, cells := unionNat w.cells m.cells, blocks := unionNat w.blocks m.blocks,
               regions := unionNat w.regions m.regions, owed := w.owed.erase c }) s.tree.windows } }

/-- The bit of DEP_MASK for a dependent class (R377). -/
def depBit : FaultClass → Option Nat
  | .vbusLo => some 0 | .vbusHi => some 1 | .uvp => some 2 | .bflt => some 3 | .imon => some 4 | .readback => some 5
  | .ocPk => some 6 | .ocNeg => some 7 | .ovpSet => some 8 | .control => some 9 | .fbUv => some 10 | .fbOv => some 11
  | _ => none

/-- A unit lies in a loop, its blocks or its cells. -/
def unitInLoop (s : State) (k : LoopId) : UnitId → Bool
  | .loop j => j == k
  | .block b => loopOfBlock s b == some k
  | .cell n => loopOfCell s n == some k
  | _ => false

/-- A unit lies in a region: its cells and blocks, and the loops with cells in it (R373). -/
def unitInRegion (s : State) (r : RegionId) : UnitId → Bool
  | .cell n => n.val / 12 == r.val
  | .block b => b.val / 3 == r.val
  | .loop k => (regionsOf s k).contains r.val
  | .region q => q == r
  | _ => false

/-- The dependent classes of a root, and whether a unit lies in its scope (R373). -/
def claims (s : State) (root : Root) (m : Msg) : Bool :=
  let c := m.cause.cls
  match root.cause.cls with
  | .fbUv => [FaultClass.vbusLo, .uvp, .bflt, .imon, .readback, .fbUv].contains c
  | .vinUv => [FaultClass.vbusLo, .uvp, .bflt, .imon, .readback, .fbUv].contains c
  | .fbOv => [FaultClass.vbusHi, .bflt, .fbOv].contains c
  | .vinOv => [FaultClass.vbusHi, .bflt, .fbOv].contains c
  | .ovpAbs => [FaultClass.ovpSet, .ocNeg, .bflt].contains c &&
      (match root.cause.loop with | .loop k => unitInLoop s k m.unit | .fb => false)
  | .ovpSet => [FaultClass.ovpSet, .ocNeg, .bflt].contains c &&
      (match root.cause.loop with | .loop k => unitInLoop s k m.unit | .fb => false)
  | .bflt => [FaultClass.imon, .readback, .ocPk, .ocNeg].contains c &&
      (match root.unit, m.unit with | .block b, .cell n => n.val / 4 == b.val | _, _ => false)
  | .control => root.event == 0x0420 && [FaultClass.imon, .readback, .control].contains c &&
      (match root.unit with | .region r => unitInRegion s r m.unit | _ => false)
  | _ => false

/-- A root with one more report. -/
def joinRoot (m : Msg) (g : Root) : Root :=
  let dep := if g.cause = m.cause then g.deps else match depBit m.cause.cls with | some b => setBit g.deps b | none => g.deps
  { g with deps := dep, reports := g.reports + m.count, cells := unionNat g.cells m.cells, blocks := unionNat g.blocks m.blocks,
           regions := unionNat g.regions m.regions,
           owed := g.owed ++ (match m.from_ with | some c => [(m.cause, c)] | none => []) }

/-- A first report at the chip collector: it joins an open root of its cause, one that claims it, or opens a root (R373). -/
def firstChip (s : State) (m : Msg) : State :=
  let m := markSender m
  let same (g : Root) := !g.closed && g.cause == m.cause
  let dep (g : Root) := !g.closed && claims s g m
  let put (p : Root → Bool) := { s with tree := { s.tree with roots := updFirst p (joinRoot m) s.tree.roots } }
  if s.tree.roots.any same then put same
  else if s.tree.roots.any dep then put dep
  else
    let g : Root :=
      { cause := m.cause, event := m.event, unit := m.unit, openedAt := s.uptime, cells := m.cells, blocks := m.blocks,
        regions := m.regions, vals := m.vals, owed := match m.from_ with | some c => [(m.cause, c)] | none => [] }
    { s with tree := { s.tree with roots := s.tree.roots ++ [g] } }

/-- A closing or overflow summary at the chip collector (R36, R372, R374): it is counted in the first root that is owed it, and
settles that root's debt; an overflow summary settles every window of its cause that the region owed. -/
def summaryChip (s : State) (m : Msg) : State :=
  let m := markSender m
  match m.from_ with
  | none => s
  | some c =>
    let owes (g : Root) := g.owed.contains (m.cause, c)
    let roots := updFirst owes (fun g =>
      { g with reports := g.reports + m.count, cells := unionNat g.cells m.cells, blocks := unionNat g.blocks m.blocks,
               regions := unionNat g.regions m.regions }) s.tree.roots
    let paid := if m.overflow then roots.map fun g => { g with owed := g.owed.filter fun e => e != (m.cause, c) }
      else updFirst owes (fun g => { g with owed := g.owed.erase (m.cause, c) }) roots
    { s with tree := { s.tree with roots := paid } }

/-- The oldest message of the tree arrives at its collector (R371 to R373). -/
def execFaultReportArrive (s : State) : Out :=
  match s.tree.flight with
  | [] => .next s
  | m :: rest =>
    let s := { s with tree := { s.tree with flight := rest } }
    match m.to_ with
    | .chip => .next (if m.summary then summaryChip s m else firstChip s m)
    | _ => .next (if m.summary then summaryAt s m else firstAt s m)

/-- A collector's window of a cause closes, 1 µs after it opened (R371, R372). -/
def execCoalesceWindowClose (c : CollectorId) (cause : Cause) (s : State) : Out :=
  match c with
  | .chip =>
    .next { s with tree := { s.tree with
      roots := updFirst (fun g => !g.closed && g.cause == cause && decide (g.openedAt + 1 ≤ s.uptime))
        (fun g => { g with closed := true }) s.tree.roots } }
  | _ =>
    .next (finishWindows { s with tree := { s.tree with
      windows := updFirst (fun w => !w.closed && w.at_ == c && w.cause == cause && decide (w.openedAt + 1 ≤ s.uptime))
        (fun w => { w with closed := true }) s.tree.windows } })

/-- The bytes of a bitmap of n bytes. -/
def mapBytes (n : Nat) (l : List Nat) : List Byte := leBytes n (l.map fun i => 2 ^ i).sum

/-- The payload of a root record (R377), and after it the values that the rule of its event names (R196; log entry 81). -/
def rootPayload (g : Root) (suppressed : Nat) : List Byte :=
  let u := unitCode g.unit
  let flags := b2n (!g.regions.isEmpty) + 2 * b2n (!g.blocks.isEmpty) + 4 * b2n (!g.cells.isEmpty)
  leBytes 1 (classCode g.cause.cls) ++ leBytes 1 u.1 ++ leBytes 2 u.2 ++ leBytes 2 g.deps ++ leBytes 1 flags ++ [0] ++
    leBytes 4 g.reports ++ leBytes 4 suppressed ++ (if g.regions.isEmpty then [] else mapBytes 4 g.regions) ++
    (if g.blocks.isEmpty then [] else mapBytes 4 g.blocks) ++ (if g.cells.isEmpty then [] else mapBytes 12 g.cells) ++ g.vals

/-- A closed root whose summaries have all arrived forms its record, or is suppressed within 10 ms of the record before
(R374, R375). -/
def execRootRecordForm (s : State) : Out :=
  match s.tree.roots.find? fun g => g.closed && g.owed.isEmpty with
  | none => .next s
  | some g =>
    let s := { s with tree := { s.tree with roots := s.tree.roots.erase g } }
    let entry := s.tree.quiet.find? fun e => e.1 == g.cause
    let rest := s.tree.quiet.filter fun e => e.1 != g.cause
    let emit (n : Nat) :=
      recordRaw { s with tree := { s.tree with quiet := (g.cause, s.uptime, 0) :: rest } } g.event (sevOf g.event) false (rootPayload g n)
    match entry with
    | some (_, u, n) =>
      if s.uptime < u + 10000 then .next { s with tree := { s.tree with quiet := (g.cause, u, n + 1) :: rest } }
      else .next (emit n)
    | none => .next (emit 0)

end Sys2Proof.Machine
end

