-- ==== Sys2Proof/Machine/LoopStates.lean ====
section
/-! DEFINITION. Loop states, set-point sources and PGOOD (09_setpoint.md, R146). -/

namespace Sys2Proof.Machine

/-! ### The on-request (R384 to R387, R391 to R394) -/

/-- The on-request of a loop ceases, or has ceased (R387, R391): a refusal may be recorded at its next appearance. A
STANDBY's loop keeps the state of its ACTIVE (R559; log entry 59). -/
def requestGone (s : State) (k : LoopId) (now : Bool) : State :=
  let s := s.modLoop k fun l => { l with ctl := { l.ctl with refused := false } }
  if standby s then s else offBy s k now

/-- LOOP_CMD ON (R386, R387, R393, R408); the abort code is answered. A refused write leaves LOOP_REQ as it was (R580). -/
def loopOnPut (s : State) (k : LoopId) : State × Nat :=
  if s.getN (O.ON_SRC k) = 1 then (s, 0xA031)
  else
    let t := s.setN (O.LOOP_REQ k) 1
    if isOff s k && onRequest t k then
      let t := if s.isOn (O.LOOP_REQ k) then t else t.modLoop k fun l => { l with ctl := { l.ctl with refused := false } }
      let (t, r) := tryArm t k
      if r = 0 then (t, 0) else (t.set (O.LOOP_REQ k) (s.get (O.LOOP_REQ k)), 0xA030)
    else (t, 0)

/-- LOOP_CMD OFF and OFF_NOW (R386, R391, R394, R408). -/
def loopOffPut (s : State) (k : LoopId) (now : Bool) : State × Nat :=
  let s := s.setN (O.LOOP_REQ k) 0
  let s := if s.getN (O.ON_SRC k) = 1 then s.modLoop k fun l => { l with ctl := { l.ctl with inhibit := true } } else s
  (requestGone s k now, 0)

/-- ENn rises through its 1 µs filter (R384 to R387). While MAIN is down only the level is kept (log entry 47). -/
def execEnRise (k : LoopId) (s : State) : Out :=
  let s := s.modLoop k fun l => { l with ctl := { l.ctl with en := true, inhibit := false } }
  .next (if s.chip.main then rearm s k else s)

/-- ENn falls through its 1 µs filter (R384, R385, R391, R394; log entry 47). -/
def execEnFall (k : LoopId) (s : State) : Out :=
  let s := s.modLoop k fun l => { l with ctl := { l.ctl with en := false } }
  .next (if s.chip.main && s.getN (O.ON_SRC k) != 0 then requestGone s k (s.isOn (O.EN_OFF k)) else s)

/-! ### ARMED and RAMP (R146, R388 to R390) -/

/-- The window ADC's search in ARMED is complete (R389). -/
def execPrebiasDone (k : LoopId) (found : Option (Fin 8 × Fin 4096)) (s : State) : Out :=
  if loopState s k = 1 then
    let v : Rat := match found with
      | some (i, code) => codeVolts s.loops[k].sn.zero (256 / 1000 + (i.val : Rat) * 512 / 1000) code
      | none => 0
    .next (s.modLoop k fun l => { l with ctl := { l.ctl with preDone := true, vPre := if s.isOn (O.PREBIAS k) then v else 0 } })
  else .next s

/-- The conditions of R388 that are unmet, as bits 0 to 6 in the order of its list. -/
def rampUnmet (s : State) (k : LoopId) : Nat :=
  let c := s.loops[k].ctl
  let bits : List Bool :=
    [c.winZero && (cellsOf s k).all (fun n => s.cells[cellOf n].zeroDone),
     (followersOf s k).all (fun r => s.loops[k].track[regionOf r].lock),
     (regionsOf s k).all (fun r => regionReady s r && pllLocked s r),
     c.preDone || !s.isOn (O.PREBIAS k),
     !anyLatch s k,
     decide ((s.getN (O.VBUS_MIN_L k) : Rat) ≤ busMv s),
     decide (c.armedAt + s.getN (O.RAMP_DLY k) ≤ s.uptime)]
  (bits.zipIdx.map fun e => if e.1 then 0 else 2 ^ e.2).sum

/-- n_ramp (R331; log entry 62). -/
def rampCells (s : State) (k : LoopId) : Nat :=
  min (if s.getN (O.PH_RAMP_N k) = 0 then nMin s k else s.getN (O.PH_RAMP_N k)) (min (ceilOf s k) (nAvail s k))

/-- The loop enters RAMP: the estimate starts from x0 with no input, the set-point at the lower of V_pre and the final
target, staggered enabling begins, and the whole current limit is in force (R143, R157, R331, R390). -/
def enterRamp (s : State) (k : LoopId) : State :=
  let s := refreshTarget s k
  let start := min s.loops[k].ctl.vPre s.loops[k].sp.final
  let n := rampCells s k
  let x0 := x0Of (activeImage s k)
  let s := (s.setN (O.LOOP_STATE k) 2).set (O.SP_NOW k) (toStep (start * 4000))
  ilimRefresh (s.modLoop k fun l =>
    { l with
      sp := { l.sp with now := start, slew := 0 }
      eng := { l.eng with x := x0, xPrev := x0, ut0 := 0, ut1 := 0, u0 := 0, u1 := 0, duty := 0, dutyRatio := 0, result := none }
      sn := { l.sn with isum := 0, isumPrev := 0, limit := 100, restoring := false }
      ph := { l.ph with enabling := true, rampN := n, turns := 0, gap := 0, started := [], wake := [], active := []
                        changes := [], plan := none }
      track := l.track.map fun t => { t with sum := 0, duty := 0, acc := 0, pos := 0, k := 0 } }) k

/-- The sample tick at which the conditions of R388 hold: RAMP, or FAULT with RAMP_OPEN where the remote pair is open
(R146). -/
def execArmToRamp (k : LoopId) (s : State) : Out :=
  if loopState s k = 1 ∧ rampUnmet s k = 0 ∧ standby s = false then
    if s.getB (O.FBL_FLAGS k) 0 || s.getB (O.FBL_FLAGS k) 1 then .next (controlTrip s k 14 (some 0x0438) (.loop k))
    else .next (enterRamp s k)
  else .next s

/-- 10 ms in ARMED: event 0x0110 once, with the conditions still unmet (R388). -/
def execArmedWaitTimeout (k : LoopId) (s : State) : Out :=
  if loopState s k = 1 ∧ s.loops[k].ctl.armedNoted = false ∧ s.loops[k].ctl.armedAt + 10000 ≤ s.uptime then
    .next (recordLoop (s.modLoop k fun l => { l with ctl := { l.ctl with armedNoted := true } }) 0x0110 k
      (leBytes 1 (rampUnmet s k)))
  else .next s

/-! ### The source paths (R397 to R402) -/

/-- The code of a source in SP_SRC, and its bit in SRC_STAT. -/
def srcCode : SpSource → Nat
  | .amdin => 0 | .vrefin => 1 | .spin => 2

/-- The Amdin source of a loop is lost (R443). -/
def linkLost (s : State) (k : LoopId) : Bool :=
  match ownerOf s k with
  | none => false
  | some p =>
    let st := s.getN (O.LINK_STATE p)
    !s.isOn (O.AML_EN p) || (s.aml[p].everUp && decide (st ≤ 2)) || s.aml[p].upLate

/-- The condition of R401 holds for a source of a loop. -/
def lostNow (s : State) (k : LoopId) : SpSource → Bool
  | .amdin => linkLost s k
  | .vrefin => decide (64 ≤ s.loops[k].sp.vrefZero)
  | .spin =>
    let p := s.loops[k].sp
    if s.isOn (O.SPIN_MODE k) then decide (p.edgeAt + 10 ≤ s.uptime)
    else decide (p.edgeAt + 200 ≤ s.uptime) || decide (16 ≤ p.badRun)

/-- One more microsecond for which the condition of each source has been absent. -/
def countQuiet (s : State) (k : LoopId) : State :=
  let n (x : SpSource) (q : Nat) := if lostNow s k x then 0 else q + 1
  s.modLoop k fun l =>
    { l with sp := { l.sp with quiet := #v[n .amdin l.sp.quiet[0], n .vrefin l.sp.quiet[1], n .spin l.sp.quiet[2]] } }

/-- One step of a path: the last 8 raw values and the filter, preset to the mean where the path starts (R397). -/
def pathStep (hist : List Rat) (y : Rat) (raw : Rat) (filt : Nat) : List Rat × Rat :=
  let h := (raw :: hist).take 8
  let m := meanR h
  (h, if hist.isEmpty then m else y + (m - y) / (2 ^ filt : Nat))

/-- The microsecond of the source path (R395, R397, R398): both paths run, the mapping is that of SP_SRC, the final target is formed
afresh, and the conditions of R401 are judged. -/
def execSetpointSourceSample (k : LoopId) (vref : Fin 1024) (s : State) : Out :=
  if s.chip.main then
    let p := s.loops[k].sp
    let f := s.getN (O.SRC_FILT k)
    let (hv, yv) := pathStep p.vref p.vrefY (((vref.val : Rat) + 1 / 2) / 1024) f
    let (hs, ys) := pathStep p.spin p.spinY p.spinX f
    let lo := quarter (s.get (O.SPIN_VLO k))
    let v := if s.getN (O.SP_SRC k) = 1 then
        ((s.get (O.VREF_GAIN k) : Rat) / 268435456) * (18 / 10) * yv + quarter (s.get (O.VREF_OFS k))
      else lo + ys * (quarter (s.get (O.SPIN_VHI k)) - lo)
    let v := toQuarter v
    let src := if quarter (s.get (O.SRC_DB k)) ≤ absR (v - p.src) then v else p.src
    let s := s.modLoop k fun l =>
      { l with sp := { l.sp with vref := hv, vrefY := yv, spin := hs, spinY := ys, src := src,
                                 vrefZero := runOf (vref.val == 0) l.sp.vrefZero } }
    .next (countQuiet (refreshTarget (s.set (O.SRC_VALUE k) (clampI (toStep (src * 4000)) 0 14400)) k) k)
  else .next s

/-- Sliding sums of r values. -/
def boxSum (r : Nat) (xs : List Nat) : List Nat := (List.range (xs.length + 1 - r)).map fun i => ((xs.drop i).take r).sum

/-- The output of the third-order sinc filter of ratio r over the last 3r − 2 bits (R400). -/
def sinc3 (r : Nat) (bits : List Bool) : Nat := (boxSum r (boxSum r (boxSum r (bits.map b2n)))).headD 0

/-- An edge or a sample of SPINn (R399, R400). Times are in units of 1.25 ns; a period outside 0.5 µs to 100 µs is
invalid and adds to neither sum. -/
def execSpinEdge (k : LoopId) (e : SpinEvent) (s : State) : Out :=
  if s.chip.main then
    let p := s.loops[k].sp
    let pdm := s.isOn (O.SPIN_MODE k)
    match e with
    | .rise t =>
      if pdm then .next s
      else match p.rise with
        | none => .next (s.modLoop k fun l => { l with sp := { l.sp with rise := some t, fall := none, edgeAt := s.uptime } })
        | some r =>
          let len := t - r
          let ok := decide (400 ≤ len) && decide (len ≤ 80000)
          let n := s.getN (O.SPIN_AVG k)
          let ps := ((if ok then ((p.fall.getD t) - r, len) else (0, 0)) :: p.periods).take n
          let len := (ps.map Prod.snd).sum
          let x : Rat := if ps.length = n ∧ 0 < len then ((ps.map Prod.fst).sum : Rat) / (len : Rat) else p.spinX
          .next (s.modLoop k fun l =>
            { l with sp := { l.sp with rise := some t, fall := none, periods := ps, badRun := runOf (!ok) l.sp.badRun, spinX := x,
                                       edgeAt := s.uptime } })
    | .fall t => if pdm then .next s else .next (s.modLoop k fun l => { l with sp := { l.sp with fall := some t } })
    | .bit b =>
      if pdm then
        let r := s.getN (O.PDM_R k)
        let bs := (b :: p.pdm).take (3 * r - 2)
        let out := decide (r ≤ p.pdmN + 1) && bs.length == 3 * r - 2
        let x : Rat := if out then (sinc3 r bs : Rat) / ((r * r * r : Nat) : Rat) else p.spinX
        .next (s.modLoop k fun l =>
          { l with sp := { l.sp with pdm := bs, pdmN := if r ≤ p.pdmN + 1 then 0 else p.pdmN + 1, spinX := x, edgeAt := s.uptime } })
      else .next s
  else .next s

/-- The loop is in ARMED, RAMP or REGULATE. -/
def onOrArmed (s : State) (k : LoopId) : Bool :=
  let x := loopState s k
  x == 1 || x == 2 || x == 3

/-- A source becomes lost: the set-point of a loop in ARMED, RAMP or REGULATE that uses it holds, with event 0x0113
(R401, R402). -/
def loseSource (s : State) (k : LoopId) (c : Nat) : State :=
  if srcLost s k c then s
  else
    let s := s.setBitAt (O.SRC_STAT k) c true
    if s.getN (O.SP_SRC k) = c ∧ onOrArmed s k then holdLost s k else s

/-- A source becomes valid again: its filter is preset, the set-point resumes toward it, with event 0x0115 (R397, R402; log
entry 60). -/
def findSource (s : State) (k : LoopId) (c : Nat) : State :=
  if !srcLost s k c then s
  else
    let s := s.setBitAt (O.SRC_STAT k) c false
    let s := s.modLoop k fun l =>
      { l with sp := { l.sp with vrefY := if c = 1 then meanR l.sp.vref else l.sp.vrefY
                                 spinY := if c = 2 then meanR l.sp.spin else l.sp.spinY } }
    if s.getN (O.SP_SRC k) = c then
      let was := s.loops[k].sp.lostAt.isSome || s.loops[k].sp.safe
      let s := (s.setBitAt (O.SRC_STAT k) 3 false).modLoop k fun l => { l with sp := { l.sp with lostAt := none, safe := false } }
      rearm (if was then recordLoop s 0x0115 k else s) k
    else s

/-- A source of a loop is lost, its condition holding (R401). -/
def execSourceLost (k : LoopId) (src : SpSource) (s : State) : Out :=
  if s.chip.main && lostNow s k src then .next (loseSource s k (srcCode src)) else .next s

/-- The µs for which the condition of a source has been absent. -/
def quietOf (s : State) (k : LoopId) : SpSource → Nat
  | .amdin => s.loops[k].sp.quiet[0] | .vrefin => s.loops[k].sp.quiet[1] | .spin => s.loops[k].sp.quiet[2]

/-- A source of a loop is valid again, its condition having been absent for 64 µs (R401; log entry 60). -/
def execSourceValid (k : LoopId) (src : SpSource) (s : State) : Out :=
  if s.chip.main && !lostNow s k src && decide (64 ≤ quietOf s k src) then .next (findSource s k (srcCode src)) else .next s

/-- The Amdin source of a loop is judged after a change of its link or its owner (R443). -/
def linkCheck (s : State) (k : LoopId) : State := if linkLost s k then loseSource s k 0 else s

/-- SRC_LOSS_T has elapsed with the source still lost (R402); the phase budget and the power state return to their reset
values (R427), and the load is told of a soft-stop (R431 bit 3). -/
def execSourceLossTimeout (k : LoopId) (s : State) : Out :=
  match s.loops[k].sp.lostAt with
  | none => .next s
  | some u =>
    if onOrArmed s k ∧ u + s.efN k (O.SRC_LOSS_T k) ≤ s.uptime then
      let s := recordLoop s 0x0114 k
      let s := ((s.setN (O.PS_BUDGET k) 96).setN (O.PS_POWER k) 0).setBitAt (O.SRC_STAT k) 3 true
      let s := s.modLoop k fun l => { l with sp := { l.sp with lostAt := none }, ph := { l.ph with pstate := none } }
      if s.efN k (O.SRC_LOSS_ACT k) = 0 then .next (s.modLoop k fun l => { l with sp := { l.sp with safe := true } })
      else if standby s then .next s
      else if loopState s k = 1 then .next (enterOff s k)
      else .next (amlAlert (enterSoftstop s k) k 3)
    else .next s

/-- The effect of a write to SP_SRC (R403, R404); the abort code is answered. -/
def spSrcPut (s : State) (k : LoopId) (v : Nat) : State × Nat :=
  let st := loopState s k
  if st ≠ 0 ∧ st ≠ 3 then (s, 0xA030)
  else if st = 3 ∧ srcLost s k v then (s, 0xA030)
  else if v = 0 ∧ (ownerOf s k).isNone then (s, 0xA031)
  else if st = 0 then
    (rearm (s.setN (O.SP_SRC k) v) k, 0)
  else if s.getN (O.SP_SRC k) = v then (s, 0)
  else
    let s := (s.setN (O.SP_SRC k) v).setBitAt (O.SRC_STAT k) 3 false
    let s := s.modLoop k fun l =>
      { l with sp := { l.sp with lostAt := none, safe := false, stay := if v = 0 then some l.sp.now else none } }
    (recordLoop s 0x0116 k, 0)

/-! ### PGOOD (R405 to R407) -/

/-- The output has been inside the window in REGULATE for PG_DLY (R405). -/
def execPgoodRelease (k : LoopId) (s : State) : Out :=
  match s.loops[k].ctl.pgSince with
  | none => .next s
  | some t =>
    if loopState s k = 3 ∧ observing s k = false ∧ s.isOn (O.PG_STAT k) = false ∧
        t + s.efN k (O.PG_DLY k) * 2000 ≤ s.loops[k].eng.tick then .next (s.setN (O.PG_STAT k) 1)
    else .next s

/-- The loop has left REGULATE, or 16 consecutive samples lay outside the window (R406). -/
def execPgoodPullLow (k : LoopId) (s : State) : Out :=
  if loopState s k ≠ 3 ∨ (observing s k = false ∧ 16 ≤ s.loops[k].ctl.pgOut) then .next (pgoodLow s k) else .next s

end Sys2Proof.Machine
end

