-- ==== Sys2Proof/Machine/Amdin.lean ====
section
/-! DEFINITION. The Amdin link (10_amdin_link.md): frames, their checks, commands and answers, the downstream windows, training
and loss. -/

namespace Sys2Proof.Machine

/-! ### Frames (R418 to R423) -/

/-- The CRC-8 of a frame's bits [39:8] (R419). -/
def amlCrc (word : Nat) : Nat :=
  Nat.xor (crcBytes 8 0x07 0 [BitVec.ofNat 8 (word / 2 ^ 24), BitVec.ofNat 8 (word / 2 ^ 16), BitVec.ofNat 8 (word / 2 ^ 8),
    BitVec.ofNat 8 word]) 0x55

/-- The 40 bits of a frame (R418). -/
def amlFrame (d : Down) : Nat :=
  let w := d.kind * 2 ^ 28 + d.loop * 2 ^ 24 + d.payload % 2 ^ 24
  w * 256 + amlCrc w

/-- Upstream types of R420. -/
abbrev up.IDLE : Nat := 0
abbrev up.SETV : Nat := 1
abbrev up.SLEW : Nat := 2
abbrev up.PSTATE : Nat := 3
abbrev up.PRENOTIFY : Nat := 4
abbrev up.CANCEL : Nat := 5
abbrev up.READ : Nat := 6
abbrev up.LOADI : Nat := 7
abbrev up.ALACK : Nat := 8
abbrev up.TRAIN : Nat := 14

/-- The payload bits of a type that are not reserved (R420). -/
def payloadMask (ty : Nat) : Nat :=
  match ty with
  | 0 => 0xFF | 1 => 0x3FFF | 2 => 0x3FF | 3 => 0x37F | 4 => 0x7FFFFF | 5 => 0 | 6 => 0xF | 7 => 0xFFFF | 8 => 0xFF
  | 14 => 0xFFFFFF | _ => 0

/-- A payload field lies outside its range (R420). -/
def payloadBad (ty v : Nat) : Bool :=
  match ty with
  | 1 => decide (v < 1000) || decide (14400 < v)
  | 2 => decide (v < 1) || decide (1000 < v)
  | 3 => decide (bits v 0 7 < 1) || decide (96 < bits v 0 7) || decide (1 < bits v 8 2)
  | 4 => decide (4000 < (signOf 13 (bits v 0 13)).natAbs) || decide (bits v 13 8 < 5) || decide (200 < bits v 13 8)
  | 6 => decide (v < 1) || decide (8 < v)
  | 7 => decide (24000 < (signOf 16 v).natAbs)
  | _ => false

/-- A type that is answered. -/
def answered (ty : Nat) : Bool := decide (1 ≤ ty) && decide (ty ≤ 6)

/-- The check of R423, orders 2 to 4, that a frame fails: its reply code, 0 for none. -/
def frameCheck (s : State) (p : PortId) (ty loop payload : Nat) : Nat :=
  let port := ty == up.IDLE || ty == up.TRAIN
  if (decide (8 ≤ loop) && loop != 15) || (port && loop != 15) || (!port && ty != up.ALACK && loop == 15) ||
      Nat.land payload (payloadMask ty) != payload then rep.FORMAT
  else if loop < 8 ∧ s.getB (O.OWN_MAP p) loop = false then rep.OWNER
  else if payloadBad ty payload then rep.RANGE
  else 0

/-- The port takes frames of every type: UP, or a STANDBY that follows its ACTIVE's port. -/
def linkTakes (s : State) (p : PortId) : Bool :=
  if standby s then s.isOn (O.AML_EN p) else s.getN (O.LINK_STATE p) == 3 && !passive s

/-- What a dispatched frame is answered with: a reply code, or the payload of a DATA frame. -/
inductive Answer where
  | none
  | reply (code : Nat)
  | data (payload : Nat)
  deriving DecidableEq, Repr

/-- An answer is owed in the downstream window two cycles on (R421, R425); a STANDBY answers nothing. -/
def owe (s : State) (p : PortId) (ty loop : Nat) (a : Answer) : State :=
  if passive s then s
  else
    let st := if loop < 8 then loopState s (loopOf loop) else 0
    let due := s.getN (O.CYCLE_CNT p) + 2
    match a with
    | .none => s
    | .reply c => s.modAml p fun m => { m with replies := m.replies ++ [(due, ⟨8, loop, c + 16 * ty + 256 * st⟩)] }
    | .data v => s.modAml p fun m => { m with replies := m.replies ++ [(due, ⟨9, loop, v⟩)] }

/-- A rejection of orders 2 to 4 (R423): counted, recorded at most once in 10 ms, and answered where its type is. -/
def rejectFrame (s : State) (p : PortId) (ty loop code : Nat) : State :=
  let s := s.bump (O.NAK_CNT p)
  let n := s.aml[p].rejN + 1
  let s := if quietFor s.aml[p].rejAt s.uptime 10000 then
      record (s.modAml p fun m => { m with rejAt := some s.uptime, rejN := 0 }) 0x0506 .chip (leBytes 1 p ++ leBytes 4 n)
    else s.modAml p fun m => { m with rejN := n }
  if answered ty || (ty != up.IDLE && ty != up.LOADI && ty != up.ALACK && ty != up.TRAIN) then owe s p ty loop (.reply code) else s

/-- A loop's master region has lost its CK0 handshake: a frame's outcome cannot be determined in time (R425). -/
def cutOff (s : State) (k : LoopId) : Bool :=
  let m := masterOf s k
  decide (m < 8) && s.regions[regionOf m].cut

/-- A frame of a loop type: checked by R423, then dispatched (R424, R425). -/
def loopFrame (s : State) (p : PortId) (ty : Nat) (loop : BitVec 4) (payload : BitVec 24)
    (act : State → LoopId → Nat → State × Answer) : State :=
  if linkTakes s p then
    let s := s.modAml p fun m => { m with winBad := 0 }
    let c := frameCheck s p ty loop.toNat payload.toNat
    if c ≠ 0 then rejectFrame s p ty loop.toNat c
    else
      let k := loopOf loop.toNat
      if cutOff s k then (if answered ty then owe s p ty loop.toNat (.reply 13) else s)
      else
        let (s, a) := act s k payload.toNat
        owe s p ty loop.toNat a
  else s

/-! ### Commands (R408, R426 to R429) -/

/-- NAK-STATE, with event 0x0509 (R408, R425; log entry 71). -/
def nakState (s : State) (k : LoopId) : State × Answer := (recordLoop s 0x0509 k, .reply rep.STATE)

/-- SETV (R395, R396, R404, R408). -/
def setvAct (s : State) (k : LoopId) (v : Nat) : State × Answer :=
  if s.getN (O.SP_SRC k) ≠ 0 then (s, .reply rep.IGNORED)
  else
    let st := loopState s k
    if 4 ≤ st then nakState s k
    else
      let s := s.modLoop k fun l => { l with sp := { l.sp with setv := some (quarter v), stay := none } }
      (refreshTarget s k, .reply (if st = 2 then rep.DEFERRED else rep.ACK))

/-- SLEW writes SP_SLEW (R396, R408, R424). -/
def slewAct (s : State) (k : LoopId) (v : Nat) : State × Answer :=
  ((s.keepOld k (O.SP_SLEW k)).setN (O.SP_SLEW k) v, .reply rep.ACK)

/-- PSTATE (R279, R334, R408, R426). -/
def pstateAct (s : State) (k : LoopId) (v : Nat) : State × Answer :=
  let b := bits v 0 7
  let w := bits v 8 2
  let st := loopState s k
  if st = 2 ∨ st = 4 ∨ (st = 3 ∧ s.loops[k].ph.enabling) then (s, .reply rep.IGNORED)
  else if st = 3 then
    let (n, s) := s.effSample k
    let s := s.modLoop k fun l => { l with ph := { l.ph with pstate := some (b, w, n) } }
    (s, .reply (if skState s k = 1 ∨ skState s k = 3 then rep.DEFERRED else rep.ACK))
  else ((s.setN (O.PS_BUDGET k) b).setN (O.PS_POWER k) w, .reply rep.ACK)

/-- PRENOTIFY, whose last bit arrives `at_` counts of 500 ps after the whole microsecond of uptime (R244, R245, R420, R422). -/
def prenotifyAct (at_ : Fin 2000) (s : State) (k : LoopId) (v : Nat) : State × Answer :=
  let (s, c) := sketchNotice s k ⟨signOf 13 (bits v 0 13), bits v 13 8, bits v 21 2, s.uptime * 2000 + at_.val⟩
  (s, .reply c)

/-- CANCEL (R273, R279, R408). -/
def cancelAct (s : State) (k : LoopId) (_v : Nat) : State × Answer :=
  let (s, c) := sketchCancel s k
  (s, .reply c)

/-- The highest TMON reading in use of a loop's blocks that have one, 0.125 °C (R428, R476, R501). -/
def loopTemp (s : State) (k : LoopId) : Int :=
  match ((blocksOf s k).filter fun b => sensRead s (.tmon (blockOf b))).map fun b => s.get (O.TMON_T b) with
  | [] => 0
  | t :: ts => ts.foldl max t

/-- A quantity of R428, as its 20-bit value. -/
def quantity (s : State) (k : LoopId) (q : Nat) : Nat :=
  let th := s.loops[k].th
  match q with
  | 1 => (toStep (th.vMean * 8000)).toNat % 2 ^ 20
  | 2 => twos 20 (toStep (th.iMean * 4))
  | 3 => if th.iMean < 0 then 0 else (th.vMean * th.iMean).floor.toNat % 2 ^ 20
  | 4 => twos 20 (loopTemp s k)
  | 5 => loopState s k + 8 * b2n (observing s k) + 16 * b2n (grounded s k) + 32 * b2n (s.isOn (O.PG_STAT k))
  | 6 => s.getN (O.SP_TARGET k)
  | 7 => s.getN (O.GRANT k)
  | 8 => skState s k + 256 * s.getN (O.SK_LAST_CLOSE k)
  | _ => 0

/-- READ (R428). -/
def readAct (s : State) (k : LoopId) (q : Nat) : State × Answer := (s, .data (q * 2 ^ 20 + quantity s k q))

/-- LOADI, whose last bit arrives `at_` counts of 500 ps after the whole microsecond of uptime (R422, R429). -/
def loadiAct (at_ : Fin 2000) (s : State) (k : LoopId) (v : Nat) : State × Answer :=
  let i := signOf 16 v
  let s := s.set (O.LI_NOW k) i
  let (n, s) := s.effSample k
  (s.modLoop k fun l =>
    { l with ph := { l.ph with liNext := some ((i : Rat) / 4, (s.uptime + s.getN (O.LI_VALID k)) * 2000 + at_.val, n) } }, .none)

/-- SETV frame. -/
def execAmdinSetv (p : PortId) (loop : BitVec 4) (payload : BitVec 24) (s : State) : Out :=
  .next (loopFrame s p up.SETV loop payload setvAct)
/-- SLEW frame. -/
def execAmdinSlew (p : PortId) (loop : BitVec 4) (payload : BitVec 24) (s : State) : Out :=
  .next (loopFrame s p up.SLEW loop payload slewAct)
/-- PSTATE frame. -/
def execAmdinPstate (p : PortId) (loop : BitVec 4) (payload : BitVec 24) (s : State) : Out :=
  .next (loopFrame s p up.PSTATE loop payload pstateAct)
/-- PRENOTIFY frame. -/
def execAmdinPrenotify (p : PortId) (loop : BitVec 4) (payload : BitVec 24) (at_ : Fin 2000) (s : State) : Out :=
  .next (loopFrame s p up.PRENOTIFY loop payload (prenotifyAct at_))
/-- CANCEL frame. -/
def execAmdinCancel (p : PortId) (loop : BitVec 4) (payload : BitVec 24) (s : State) : Out :=
  .next (loopFrame s p up.CANCEL loop payload cancelAct)
/-- READ frame. -/
def execAmdinRead (p : PortId) (loop : BitVec 4) (payload : BitVec 24) (s : State) : Out :=
  .next (loopFrame s p up.READ loop payload readAct)
/-- LOADI frame. -/
def execAmdinLoadi (p : PortId) (loop : BitVec 4) (payload : BitVec 24) (at_ : Fin 2000) (s : State) : Out :=
  .next (loopFrame s p up.LOADI loop payload (loadiAct at_))

/-- Frame errors of the present block (R441); BLK_ERR counts to 2. -/
def blockErrs (s : State) (p : PortId) (n : Nat) : State := s.setN (O.BLK_ERR p) (min 2 (s.getN (O.BLK_ERR p) + n))

/-- IDLE frame: DN_ERR (R420, R441). -/
def execAmdinIdle (p : PortId) (loop : BitVec 4) (payload : BitVec 24) (s : State) : Out :=
  if linkTakes s p then
    let s := s.modAml p fun m => { m with winBad := 0 }
    let c := frameCheck s p up.IDLE loop.toNat payload.toNat
    if c ≠ 0 then .next (rejectFrame s p up.IDLE loop.toNat c)
    else .next (blockErrs (s.bumpBy (O.CRC_ERR_DN p) payload.toNat) p payload.toNat)
  else .next s

/-- ALACK frame (R432). -/
def execAmdinAlack (p : PortId) (loop : BitVec 4) (payload : BitVec 24) (s : State) : Out :=
  if linkTakes s p then
    let s := s.modAml p fun m => { m with winBad := 0 }
    let c := frameCheck s p up.ALACK loop.toNat payload.toNat
    if c ≠ 0 then .next (rejectFrame s p up.ALACK loop.toNat c)
    else
      let i : Fin 9 := Fin.ofNat 9 (min loop.toNat 8)
      match s.aml[p].out[i] with
      | some (_, q) =>
        if q = payload.toNat then .next (s.modAml p fun m => { m with out := m.out.set i none, age := m.age.set i 0, tries := m.tries.set i 0 })
        else .next (s.bump (O.ALACK_BAD p))
      | none => .next (s.bump (O.ALACK_BAD p))
  else .next s

/-! ### Training, rate and loss (R437 to R443) -/

/-- The rates the controller offers in CAP, with PRENOTIFY, LOADI and version 1 (R438). -/
def ownCap (m : Aml) : Nat := 2 ^ (min m.rateMax 2 + 1) - 1 + 8 + 16 + 0x100

/-- 20 bits of PRBS-23, x²³ + x¹⁸ + 1, first bit highest (R438), and the register after them. -/
def prbsWord : Nat → Nat → Nat → Nat × Nat
  | 0, w, r => (w, r)
  | n + 1, w, r => prbsWord n (w * 2 + b2n (bit r 22)) ((r * 2 + b2n (bit r 22 != bit r 17)) % 2 ^ 23)

/-- A training phase begins. -/
def trainPhase (s : State) (p : PortId) (ph : TrainPhase) : State :=
  s.modAml p fun m => { m with phase := some ph, good := 0, cycles := 0, cap := none, prbs := 2 ^ 23 - 1 }

/-- A link reset and the training after it (R416, R437). -/
def linkReset (s : State) (p : PortId) : State :=
  let s := (((s.setN (O.LINK_STATE p) 1).setN (O.RATE_NOW p) 0).setN (O.CYCLE_CNT p) 0).bump (O.TRAIN_CNT p)
  let s := trainPhase s p .pattern
  let s := s.modAml p fun m =>
    { m with cycleOn := false, replies := [], rateTo := 0, rateMax := s.getN (O.RATE_MAX p), ended := false, passed := 0, winBad := 0,
             telDue := [], firstAt := some (m.firstAt.getD s.uptime) }
  eachLoop s linkCheck

/-- The port may train: it is enabled, its start step is reached, and the device drives the link (R417, R437, R548; log
entry 74). -/
def mayTrain (s : State) (p : PortId) : Bool := s.isOn (O.AML_EN p) && s.getN O.START_STEP == 9 && !passive s

/-- Causes of R442, as event 0x0502 carries them. -/
def downCode : LinkDownCause → Nat
  | .badWindows => 0 | .reframe => 1 | .trainFail => 2 | .disabled => 3

/-- The port enters DOWN (R417, R442, R443): answers owed are not sent, alerts are kept (log entry 71). -/
def goDown (s : State) (p : PortId) (c : LinkDownCause) : State :=
  if s.getN (O.LINK_STATE p) = 0 then s
  else
    let s := s.setN (O.LINK_STATE p) 0
    let s := s.modAml p fun m =>
      { m with replies := [], phase := none, cycleOn := false, downAt := s.uptime, telDue := [], winBad := 0, line := none }
    eachLoop (record s 0x0502 .chip (leBytes 1 p ++ leBytes 1 (downCode c))) linkCheck

/-- The port enters UP (R431, R435, R438, R441). -/
def goUp (s : State) (p : PortId) : State :=
  let again := s.getN (O.LINK_STATE p) == 4
  let s := (s.setN (O.LINK_STATE p) 3).setN (O.BLK_ERR p) 0
  let s := s.modAml p fun m =>
    { m with phase := none, everUp := true, upLate := false, winBad := 0, blkBits := 0,
             grantSent := Vector.replicate 8 none, age := Vector.replicate 9 255 }
  if again then s
  else record s 0x0501 .chip (leBytes 1 p ++ leBytes 1 (s.getN (O.RATE_NOW p)) ++ leBytes 2 (s.getN (O.ADLY p)))

/-- The next rate of the rise: the least above one that both sides support within RATE_MAX (R439). -/
def nextRate (m : Aml) (cap rate : Nat) : Option Nat :=
  ([1, 2].filter fun r => decide (rate < r) && decide (r ≤ m.rateMax) && bit cap r).head?

/-- The rise goes on from a rate, or ends with DONE (R439). -/
def riseFrom (s : State) (p : PortId) (cap rate : Nat) : State :=
  match nextRate s.aml[p] cap rate with
  | some r => (trainPhase s p .rate).modAml p fun m => { m with rateTo := r }
  | none => trainPhase s p .done

/-- A training phase has met its completion count (R438, R439, R441). A STANDBY only sets its own ADLY. -/
def execTrainPhaseComplete (p : PortId) (eye : Fin 1000) (s : State) : Out :=
  if standby s then
    (if s.isOn (O.AML_EN p) then .next ((s.setN (O.ADLY p) eye).modAml p fun m => { m with followed := true }) else .next s)
  else
    let m := s.aml[p]
    let st := s.getN (O.LINK_STATE p)
    if st ≠ 1 ∧ st ≠ 2 ∧ st ≠ 4 then .next s
    else match m.phase with
      | some .pattern =>
        if m.good < 16 then .next s
        else
          let s := s.setN (O.ADLY p) eye
          if st = 4 ∨ m.ended then .next (trainPhase s p .done)
          else if m.rateTo = 0 then .next (trainPhase s p .cap)
          else .next ((trainPhase s p .test).setN (O.LINK_STATE p) 2)
      | some .cap =>
        (match m.cap with
          | some c =>
            if m.good < 2 ∨ bits c 8 4 = 0 ∨ bit c 0 = false then .next s
            else .next (riseFrom (s.setN (O.LOAD_CAP p) (c % 65536)) p c 0)
          | none => .next s)
      | some .rate => if m.cycles < 4 then .next s else .next ((trainPhase s p .pattern).setN (O.RATE_NOW p) m.rateTo)
      | some .test =>
        if m.good < 5000 then .next s
        else .next (riseFrom ((s.setN (O.LINK_STATE p) 1).modAml p fun m => { m with passed := m.rateTo }) p (s.getN (O.LOAD_CAP p)) m.rateTo)
      | some .done => if m.cycles = 0 then .next s else .next (goUp s p)
      | none => .next s

/-- A TEST fails: the highest rate that has passed is announced, and the rise ends (R439). -/
def testFails (s : State) (p : PortId) : State :=
  (trainPhase (s.setN (O.LINK_STATE p) 1) p .rate).modAml p fun m => { m with rateTo := m.passed, ended := true }

/-- An upstream window of a training that brings no correct answer. -/
def trainMiss (s : State) (p : PortId) : State :=
  match s.aml[p].phase with
  | some .test => testFails s p
  | some _ => s.modAml p fun m => { m with good := 0 }
  | none => s

/-- TRAIN frame, an answer of the load (R438, R439); in UP it is dispatched without effect (R420, R423). -/
def execAmdinTrain (p : PortId) (loop : BitVec 4) (payload : BitVec 24) (s : State) : Out :=
  let st := s.getN (O.LINK_STATE p)
  if passive s ∨ st = 0 then .next s
  else
    let s := if st = 3 then s.modAml p fun m => { m with winBad := 0 } else s
    let c := frameCheck s p up.TRAIN loop.toNat payload.toNat
    if c ≠ 0 then .next (rejectFrame s p up.TRAIN loop.toNat c)
    else if st = 3 then .next s
    else
      let m := s.aml[p]
      let v := bits payload.toNat 0 20
      let ok := bits payload.toNat 20 4 == 2 && v == m.content
      match m.phase with
      | some .cap =>
        if bits payload.toNat 20 4 = 3 then
          .next (s.modAml p fun m => { m with good := if m.cap == some v then m.good + 1 else 1, cap := some v })
        else .next (trainMiss s p)
      | _ => .next (if ok then s.modAml p fun m => { m with good := m.good + 1 } else trainMiss s p)

/-- A training phase misses its limit (R440, R442). -/
def execTrainFail (p : PortId) (s : State) : Out :=
  let m := s.aml[p]
  let st := s.getN (O.LINK_STATE p)
  let bad := match m.phase with
    | some .pattern => decide (m.good < 16) && decide ((if m.rateTo = 0 ∧ m.ended = false then 1024 else 64) ≤ m.cycles)
    | some .cap => (decide (m.good < 2) && decide (8 ≤ m.cycles)) || (match m.cap with | some c => bits c 8 4 == 0 || !bit c 0 | none => false)
    | _ => false
  if (st = 1 ∨ st = 2) ∧ bad = true then
    let code := match m.phase with | some .cap => 3 | _ => 1
    .next (goDown (record s 0x0503 .chip (leBytes 1 p ++ leBytes 1 code)) p .trainFail)
  else .next s

/-- Two frame errors in a block (R441): once the answers owed are sent the port enters REFRAME; at 12.5 MHz it stays UP. -/
def execRateFallback (p : PortId) (s : State) : Out :=
  if s.getN (O.LINK_STATE p) = 3 ∧ 2 ≤ s.getN (O.BLK_ERR p) then
    let r := s.getN (O.RATE_NOW p)
    if r = 0 then
      let s := (s.setN (O.BLK_ERR p) 0).modAml p fun m => { m with blkBits := 0 }
      .next (record s 0x0504 .chip (leBytes 1 p ++ leBytes 1 0 ++ leBytes 1 1))
    else if s.aml[p].replies.isEmpty then
      let s := ((s.setN (O.LINK_STATE p) 4).bump (O.FALLBACK_CNT p)).setN (O.BLK_ERR p) 0
      let s := (trainPhase s p .rate).modAml p fun m => { m with rateTo := r - 1, ended := true }
      .next (amlPend (record s 0x0504 .chip (leBytes 1 p ++ leBytes 1 (r - 1) ++ leBytes 1 0)) p 8 11)
    else .next s
  else .next s

/-- The port is lost (R442). -/
def execLinkDown (p : PortId) (cause : LinkDownCause) (s : State) : Out :=
  let m := s.aml[p]
  let st := s.getN (O.LINK_STATE p)
  match cause with
  | .badWindows => if st = 3 ∧ 16 ≤ m.winBad then .next (goDown s p .badWindows) else .next s
  | .reframe => if st = 4 ∧ m.phase = some .pattern ∧ m.good < 16 ∧ 64 ≤ m.cycles then .next (goDown s p .reframe) else .next s
  | .trainFail => execTrainFail p s
  | .disabled => if s.isOn (O.AML_EN p) then .next s else .next (goDown s p .disabled)

/-- LINK_UP_T has passed since the first training without UP (R443). -/
def execLinkUpTimeout (p : PortId) (s : State) : Out :=
  match s.aml[p].firstAt with
  | none => .next s
  | some u =>
    if s.aml[p].everUp = false ∧ u + s.getN (O.LINK_UP_T p) * 1000 ≤ s.uptime then
      .next (eachLoop (s.modAml p fun m => { m with upLate := true }) linkCheck)
    else .next s

/-- LINK_RETRY has elapsed in DOWN (R437). -/
def execLinkRetryExpire (p : PortId) (s : State) : Out :=
  if mayTrain s p ∧ s.getN (O.LINK_STATE p) = 0 ∧ s.aml[p].downAt + s.getN (O.LINK_RETRY p) * 1000 ≤ s.uptime then
    .next (linkReset s p)
  else .next s

/-- The effect of a write to AML_EN (R417, R437, R442, R443). -/
def amlEnPut (s : State) (p : PortId) (v : Nat) : State × Nat :=
  let s := s.setN (O.AML_EN p) v
  if v = 1 then (if mayTrain s p then linkReset s p else eachLoop s linkCheck, 0)
  else (eachLoop (goDown s p .disabled) linkCheck, 0)

/-- The effect of LINK_CMD 0x01 (R417, R437). -/
def linkCmdPut (s : State) (p : PortId) : State × Nat := (if mayTrain s p then linkReset s p else s, 0)

/-- The effect of a write to OWN_MAP (R443, R444). -/
def ownMapPut (s : State) (p : PortId) (v : Nat) : State × Nat :=
  let q : PortId := 1 - p
  let changed := (List.range 8).filter fun k => bit v k != s.getB (O.OWN_MAP p) k
  if changed.any fun k => !isOff s (loopOf k) then (s, 0xA030)
  else if Nat.land v (s.getN (O.OWN_MAP q)) ≠ 0 ∨
      (changed.any fun k => !bit v k && s.getN (O.SP_SRC k) == 0 && !s.getB (O.OWN_MAP q) k) then (s, 0xA031)
  else (eachLoop (s.setN (O.OWN_MAP p) v) linkCheck, 0)

/-- An error record of the port for ring 15: the port and its counters (R681; log entry 33). -/
def amlDiag (s : State) (p : PortId) : State :=
  diag s [p.val, s.getN (O.CRC_ERR_UP p), s.getN (O.CRC_ERR_DN p), s.getN (O.NAK_CNT p), s.getN (O.ALACK_BAD p)]

/-- An upstream frame that fails its CRC or carries a reserved TYPE (R423, R441, R442). -/
def execAmdinUpstreamReject (p : PortId) (frame : BitVec 40) (s : State) : Out :=
  let f := frame.toNat
  let st := s.getN (O.LINK_STATE p)
  if st = 0 ∧ standby s = false then .next s
  else if amlCrc (f / 256) ≠ f % 256 then
    let s := amlDiag (s.bump (O.CRC_ERR_UP p)) p
    if st = 3 then .next (blockErrs (s.modAml p fun m => { m with winBad := m.winBad + 1 }) p 1)
    else .next (trainMiss s p)
  else
    let ty := bits f 36 4
    if 9 ≤ ty ∧ ty ≠ 14 ∧ linkTakes s p then
      .next (rejectFrame (s.modAml p fun m => { m with winBad := 0 }) p ty (bits f 32 4) rep.FORMAT)
    else .next s

/-! ### The downstream window (R414, R430 to R436) -/

/-- Items in turn, starting after the one last served (R430). Before any service the start is open (log entry 5). -/
def inTurn (last : Option Nat) (order : Nat) (xs : List Nat) : Option Nat :=
  let l := match last with | some k => k + 1 | none => Config.firstTurn order
  ((List.range 8).map fun i => (l + i) % 8).find? fun k => xs.contains k

/-- The loops of the port that are outside OFF (R435, R436, R444). -/
def portLoops (s : State) (p : PortId) : List Nat :=
  (List.range 8).filter fun k => s.getB (O.OWN_MAP p) k && !isOff s (loopOf k)

/-- A BUDGET is due because the grant is lower than the grant last sent (R430 order 2). -/
def budgetLower (s : State) (p : PortId) (k : Nat) : Bool :=
  match s.aml[p].grantSent[(loopOf k)] with
  | some (g, _) => decide ((grantOf s (loopOf k)).1 < g)
  | none => false

/-- A BUDGET is otherwise due (R435). -/
def budgetDue (s : State) (p : PortId) (k : Nat) : Bool :=
  let m := s.aml[p]
  let (g, b) := grantOf s (loopOf k)
  match m.grantSent[(loopOf k)] with
  | none => true
  | some (h, c) =>
    decide (s.getN (O.ILIM_TOT k) ≤ 100 * ((g : Int) - h).natAbs) || b != c ||
      decide (m.grantAt[(loopOf k)] + s.getN (O.BUD_REP p) ≤ s.uptime)

/-- An ALERT of a slot is due: new or to be repeated (R431). -/
def alertDue (s : State) (p : PortId) (i : Fin 9) : Bool :=
  let m := s.aml[p]
  match m.out[i] with
  | some _ => decide (s.getN (O.ALERT_REP p) ≤ m.age[i])
  | none => m.alerts[i] != 0

/-- The port puts a frame on its line. -/
def sendDown (s : State) (p : PortId) (d : Down) : State := s.modAml p fun m => { m with line := some (amlFrame d) }

/-- A loop is noted as served in an order of R430. -/
def served (s : State) (p : PortId) (order : Fin 4) (k : Nat) : State :=
  s.modAml p fun m => { m with last := m.last.set order (some k) }

/-- BUDGET of a loop (R421, R434, R435). -/
def sendBudget (s : State) (p : PortId) (order : Fin 4) (k : Nat) : State :=
  let l := loopOf k
  let (g, b) := grantOf s l
  let s := (served s p order k).modAml p fun m =>
    { m with grantSent := m.grantSent.set l (some (g, b)), grantAt := m.grantAt.set l s.uptime }
  sendDown s p ⟨11, k, g + b * 65536⟩

/-- ALERT of a slot (R431, R432). -/
def sendAlert (s : State) (p : PortId) (i : Fin 9) : State :=
  let m := s.aml[p]
  let loop := if i.val = 8 then 15 else i.val
  let s := if i.val = 8 then s else served s p 1 i.val
  match m.out[i] with
  | some (b, q) =>
    let n := m.tries[i] + 1
    let s := s.modAml p fun m => { m with age := m.age.set i 0, tries := m.tries.set i n }
    let s := sendDown s p ⟨10, loop, b + q * 65536⟩
    if n = 1024 then record s 0x0508 .chip (leBytes 1 p ++ leBytes 1 loop) else s
  | none =>
    let q := m.alertSeq
    let s := s.modAml p fun m =>
      { m with out := m.out.set i (some (m.alerts[i], q)), alerts := m.alerts.set i 0, age := m.age.set i 0, tries := m.tries.set i 0,
               alertSeq := (q + 1) % 256 }
    sendDown s p ⟨10, loop, m.alerts[i] + q * 65536⟩

/-- The next quantity of a loop's TELEMs: the bits of TEL_SEL in turn, ascending (R436). -/
def telNext (sel last : Nat) : Nat :=
  let qs := (List.range 8).filter fun i => bit sel i
  match qs.find? fun i => last < i + 1 with
  | some i => i + 1
  | none => (qs.headD 0) + 1

/-- TELEM of a loop (R428, R436). -/
def sendTelem (s : State) (p : PortId) (k : Nat) : State :=
  let l := loopOf k
  let q := telNext (s.getN (O.TEL_SEL k)) s.aml[p].telLast[l]
  let s := (served s p 3 k).modAml p fun m => { m with telLast := m.telLast.set l q, telDue := m.telDue.filter fun j => j != k }
  sendDown s p ⟨12, k, q * 2 ^ 20 + quantity s l q⟩

/-- The window of a port in UP: the first item that is due (R430). -/
def upWindow (s : State) (p : PortId) : State :=
  let m := s.aml[p]
  let cyc := s.getN (O.CYCLE_CNT p)
  let loops := portLoops s p
  match m.replies.find? fun r => decide (r.1 ≤ cyc) with
  | some (n, d) => sendDown (s.modAml p fun m => { m with replies := m.replies.erase (n, d) }) p d
  | none =>
    match inTurn m.last[0] 2 (loops.filter (budgetLower s p)) with
    | some k => sendBudget s p 0 k
    | none =>
      if alertDue s p 8 then sendAlert s p 8
      else
        match inTurn m.last[1] 3 ((List.range 8).filter fun k => s.getB (O.OWN_MAP p) k && alertDue s p (Fin.ofNat 9 k)) with
        | some k => sendAlert s p (Fin.ofNat 9 k)
        | none =>
          match inTurn m.last[2] 4 (loops.filter (budgetDue s p)) with
          | some k => sendBudget s p 2 k
          | none =>
            match inTurn m.last[3] 5 (m.telDue.filter fun k => loops.contains k) with
            | some k => sendTelem s p k
            | none => sendDown s p ⟨0, 15, cyc % 65536⟩

/-- CONTENT of a TRAIN frame in a phase (R438). -/
def trainContent (s : State) (p : PortId) (ph : TrainPhase) : Nat :=
  let m := s.aml[p]
  match ph with
  | .pattern => if s.getN (O.CYCLE_CNT p) % 2 = 0 then 0xAAAAA else 0x55555
  | .cap => ownCap m
  | .rate => m.rateTo
  | .test => (prbsWord 20 0 m.prbs).1
  | .done => s.getN (O.RATE_NOW p)

/-- PHASE codes of R438. -/
def phaseCode : TrainPhase → Nat
  | .pattern => 1 | .cap => 3 | .rate => 4 | .test => 5 | .done => 6

/-- A TRAIN frame is sent. -/
def trainWindow (s : State) (p : PortId) (ph : TrainPhase) : State :=
  let c := trainContent s p ph
  let s := s.modAml p fun m =>
    { m with content := c, cycles := m.cycles + 1, prbs := if ph = .test then (prbsWord 20 0 m.prbs).2 else m.prbs }
  sendDown s p ⟨14, 15, phaseCode ph * 2 ^ 20 + c⟩

/-- The cycle after a block of 2³⁰ bits starts a new block (R441). -/
def blockStep (s : State) (p : PortId) : State :=
  let n := s.aml[p].blkBits + 80
  if 2 ^ 30 ≤ n then (s.setN (O.BLK_ERR p) 0).modAml p fun m => { m with blkBits := n - 2 ^ 30 }
  else s.modAml p fun m => { m with blkBits := n }

/-- A TELEM becomes due for every loop of the port (R436). -/
def telStep (s : State) (p : PortId) : State :=
  let d := s.getN (O.TEL_DIV p)
  if d ≠ 0 ∧ s.getN (O.CYCLE_CNT p) % d = 0 then
    let ks := (portLoops s p).filter fun k => s.getN (O.TEL_SEL k) != 0
    s.modAml p fun m => { m with telDue := ks.foldl insertNat m.telDue }
  else s

/-- A cycle begins with its downstream window (R414, R430). -/
def execAmdinDownstreamWindow (p : PortId) (s : State) : Out :=
  let st := s.getN (O.LINK_STATE p)
  if st = 0 ∨ passive s then .next s
  else
    let s := if s.aml[p].cycleOn then s.bump64 (O.CYCLE_CNT p) 1 else s.modAml p fun m => { m with cycleOn := true }
    match s.aml[p].phase with
    | some ph => .next (trainWindow s p ph)
    | none =>
      let s := s.modAml p fun m => { m with age := m.age.map fun n => n + 1 }
      .next (upWindow (telStep (blockStep s p) p) p)

/-- AALERTp_N is pulled low (R433, R548). -/
def aalertLow (s : State) (p : PortId) : Bool :=
  let m := s.aml[p]
  s.isOn (O.AML_EN p) && !passive s &&
    ((List.finRange 9).any (fun i => m.alerts[i] != 0 || m.out[i].isSome) || (m.everUp && s.getN (O.LINK_STATE p) == 0))

/-- ALERT_OUT: the outstanding vectors (R445). -/
def alertOut (s : State) (p : PortId) : Nat :=
  ((List.finRange 9).map fun i => if s.aml[p].out[i].isSome then 2 ^ i.val else 0).sum

end Sys2Proof.Machine
end

