-- ==== Sys2Proof/Machine/Thermal.lean ====
section
/-! DEFINITION. Thermal supervision: readings, bands, failures, throttling, shutdown and restart (12_thermal.md, R25, R231, R232). -/

namespace Sys2Proof.Machine

/-! ### Sensors (R474 to R476, R500 to R502) -/

/-- The record of a sensor is changed. -/
def modSens (s : State) (x : Sensor) (f : Sens → Sens) : State :=
  match x with
  | .tmon b => s.modBlock b fun c => { c with sens := f c.sens }
  | .die r => s.modRegion r fun c => { c with sens := f c.sens }
  | .central => { s with chip := { s.chip with sens := f s.chip.sens } }

/-- TSD_SENSOR's code of a sensor (R506). -/
def sensCode : Sensor → Nat
  | .tmon b => b.val | .die r => 0x20 + r.val | .central => 0x28

/-- A sensor's objects: reading, band, rate. -/
def sensT : Sensor → Addr
  | .tmon b => O.TMON_T b | .die r => O.DIE_T r | .central => O.DTC_T
def sensBand : Sensor → Addr
  | .tmon b => O.TMON_BAND b | .die r => O.DIE_BAND r | .central => O.DTC_BAND
def sensRor : Sensor → Addr
  | .tmon b => O.TMON_ROR b | .die r => O.DIE_ROR r | .central => O.DTC_ROR

/-- The region whose power a sensor's objects follow (R55). -/
def sensOn (s : State) : Sensor → Bool
  | .tmon b => regionReady s (b / 3) | .die r => regionReady s r | .central => true

/-- The objects of a sensor show its record; bits 2 and 3 of TMON_STAT are read from the cells and the region (R508). -/
def showSens (s : State) (x : Sensor) : State :=
  if sensOn s x then
    let v := sensOf s x
    let s := (s.set (sensT x) v.use).setN (sensBand x) v.band
    s.setN (sensStat x) (3 * b2n v.failed)
  else s

/-- The neighbours of a sensor (R502). -/
def neighbours (s : State) : Sensor → List Sensor
  | .tmon b =>
    let r := b.val / 3
    let own := ([3 * r, 3 * r + 1, 3 * r + 2].filter fun j => j != b.val).map fun j => Sensor.tmon (blockOf j)
    let near := (([b.val - 1, b.val + 1].filter fun j => j != b.val && decide (j < 24) && j / 3 != r &&
      loopOfBlock s j == loopOfBlock s b && (loopOfBlock s b).isSome)).map fun j => Sensor.tmon (blockOf j)
    own ++ near ++ [.die (regionOf r)]
  | .die r =>
    ((if r.val = 0 then [] else [r.val - 1]) ++ (if r.val = 7 then [] else [r.val + 1])).map (fun j => Sensor.die (regionOf j)) ++
      [.central]
  | .central => (List.finRange 8).map .die

/-- The substitute of a failed sensor: the highest reading among its valid neighbours plus 15 °C (R501). -/
def substitute (s : State) (x : Sensor) : Option Int :=
  match ((neighbours s x).filter fun y => sensRead s y && !(sensOf s y).failed).map fun y => (sensOf s y).use with
  | [] => none
  | v :: vs => some (vs.foldl max v + 120)

/-- The band of a first reading (R493), in 0.125 °C. -/
def bandOf (v : Int) : Nat := if v < 0 then 0 else if v < 320 then 1 else if v < 680 then 2 else if v < 920 then 3 else 4

/-- What a reading asks of a band: up, down or nothing (R492). -/
def bandWant (band : Nat) (v : Int) : Int :=
  let up : Int := [0, 320, 680, 920].getD band 100000
  let down : Int := [-100000, -24, 296, 656, 896].getD band (-100000)
  if up ≤ v then 1 else if v < down then -1 else 0

/-- A reading in use reaches a sensor's record: band inputs (R492, R493). -/
def useReading (v : Sens) (x : Int) : Sens :=
  if v.seen then
    let w := bandWant v.band x
    { v with use := x, want := w, wantN := if w = 0 then 0 else if w = v.want then v.wantN + 1 else 1 }
  else { v with use := x, seen := true, band := bandOf x, want := 0, wantN := 0 }

/-- A conversion of a sensor: its own reading is kept, the reading in use follows it or the substitute (R501, R503; log entry 82); a
condition of R500 ends or starts the 100 ms of its absence. The restart conditions are judged (R486). -/
def takeReading (s : State) (x : Sensor) (own : Int) (bad : Bool) (f : Sens → Sens) : State :=
  let sub := substitute s x
  let s := modSens s x fun v =>
    let v := f v
    let v := { v with own := (own :: v.own).take 208, okAt := if bad then none else some (v.okAt.getD s.uptime)
                      good := if bad then v.good else own }
    useReading v (if v.failed then sub.getD v.good else own)
  noteCool (showSens s x)

/-- g_T of a cell from a reading in 0.125 °C (R231). -/
def gtOf (s : State) (n : CellId) (t : Int) : Rat :=
  let d : Rat := 1 + (s.get (O.CS_TC n) : Rat) / 1000000 * ((t : Rat) / 8 - s.get (O.CS_TREF n))
  if d ≤ 0 then 3 / 2 else clampR (1 / d) (1 / 2) (3 / 2)

/-- Summed current of a block's cells, 1/256 A. -/
def blockCurrent (s : State) (b : BlockId) : Int :=
  ([4 * b.val, 4 * b.val + 1, 4 * b.val + 2, 4 * b.val + 3].map fun n => s.get (O.IMON_CUR (cellOf n))).sum

/-- A TMON is stuck: 10,000 equal codes while the block's current has spanned more than 20% of 4 × IMON_IFS (R500). -/
def tmonStuck (s : State) (b : BlockId) (v : Sens) : Bool :=
  decide (10000 ≤ v.same) && decide (((v.iMax - v.iMin : Int) : Rat) / 256 > (4 * s.getN (O.IMON_IFS b) * 20 : Nat) / (100 : Rat))

/-- The thermal hold of a block's cells: since when the reading has been cool (R499). -/
def coolStep (s : State) (b : BlockId) : State :=
  match loopOfBlock s b with
  | none => s
  | some k =>
    let cool := decide ((sensOf s (.tmon b)).use < (s.get (O.TH_ON_TM k) - s.get (O.TH_HYST k)) * 8)
    s.modBlock b fun c => { c with coolAt := since cool s.uptime c.coolAt }

/-- A TMON conversion (R25, R26, R475, R500, R501; g_T by R232). -/
def execTmonConversion (b : BlockId) (code : Fin 1024) (s : State) : Out :=
  if regionReady s (b / 3) then
    let mv : Rat := (code.val : Rat) * 1800 / 1024
    let t := clampI (roundUpTies ((mv - s.get O.TM_V0) * 8000 / (max 1 (s.getN O.TM_SLOPE) : Nat))) (-600) 1200
    let s := s.setN (O.TMON_MV b) (toStep mv).toNat
    let i := blockCurrent s b
    let lo := decide (mv < s.getN O.TM_FAIL_LO)
    let hi := decide (1780 < mv)
    let f (v : Sens) : Sens :=
      let same := v.code == code.val && v.same != 0
      { v with low := runOf lo v.low, high := runOf hi v.high, code := code, same := if same then v.same + 1 else 1,
               iMin := if same then min v.iMin i else i, iMax := if same then max v.iMax i else i }
    let bad := lo || hi || tmonStuck s b (f (sensOf s (.tmon b)))
    let s := takeReading s (.tmon b) t bad f
    let use := (sensOf s (.tmon b)).use
    let s := [4 * b.val, 4 * b.val + 1, 4 * b.val + 2, 4 * b.val + 3].foldl (fun s n =>
      s.modCell (cellOf n) fun c => { c with gtNext := gtOf s (cellOf n) use }) s
    .next (coolStep s b)
  else .next s

/-- Twice the median of the region die sensors' own latest readings, once each of them has one (log entry 72). -/
def dieMedian2 (s : State) : Option Int :=
  let l := ((List.finRange 8).filterMap fun r => (sensOf s (.die r)).own.head?).mergeSort (· ≤ ·)
  if l.length = 8 then some (l.getD 3 0 + l.getD 4 0) else none

/-- A die sensor of the table of R474 by number: DT0 to DT7, then DTC. -/
def dieOf (i : Fin 9) : Sensor := if h : i.val < 8 then .die ⟨i.val, h⟩ else .central

/-- A die sensor conversion (R474, R500). -/
def execDieSensorConversion (i : Fin 9) (reading : Int) (selfCheck : Bool) (s : State) : Out :=
  if s.chip.main then
    let x := dieOf i
    let t := clampI reading (-440) 1400
    let far := match x with
      | .central => (match dieMedian2 s with | some m => decide (480 < (2 * t - m).natAbs) | none => false)
      | _ => decide (240 < (t - (sensOf s .central).own.headD t).natAbs)
    .next (takeReading s x t (far || !selfCheck) fun v => { v with far := runOf far v.far, check := selfCheck })
  else .next s

/-- The failure condition of a sensor is complete (R500). -/
def failing (s : State) (x : Sensor) : Bool :=
  let v := sensOf s x
  match x with
  | .tmon b => decide (3 ≤ v.low) || decide (3 ≤ v.high) || tmonStuck s b v
  | _ => !v.check || decide (3 ≤ v.far)

/-- The sensors of a loop: the TMON of its blocks, the die sensor of its regions, DTC (before R494). -/
def loopSensors (s : State) (k : LoopId) : List Sensor :=
  (blocksOf s k).map (fun b => Sensor.tmon (blockOf b)) ++ (regionsOf s k).map (fun r => Sensor.die (regionOf r)) ++ [.central]

/-- TH_FACTOR of every loop is formed afresh (R496, R503). -/
def factorRefresh (s : State) : State := eachLoop s levelAgain

/-- A failed sensor without a valid neighbour: its last valid reading stays as the substitute, with event 0x0322 (R503). -/
def leaveAlone (s : State) (x : Sensor) : State :=
  if (sensOf s x).failed && !(sensOf s x).alone && (substitute s x).isNone then
    record (showSens (modSens s x fun v => { v with alone := true, use := v.good }) x) 0x0322 .chip (leBytes 1 (sensCode x))
  else s

/-- A sensor fails: its reading is replaced, loops above level 0 freeze, and every failed sensor that has no valid neighbour now
limits them (R501, R503). The substitute counts as its first reading for the band (R493). -/
def execSensorFail (x : Sensor) (s : State) : Out :=
  if sensRead s x ∧ (sensOf s x).failed = false ∧ failing s x then
    let use := (substitute s x).getD (sensOf s x).good
    let s := modSens s x fun v =>
      useReading { v with failed := true, own := [], rate := none, want := 0, wantN := 0, okAt := none } use
    let s := record ((showSens s x).set (sensRor x) 0) 0x0320 .chip (leBytes 1 (sensCode x) ++ leBytes 2 (twos 16 use))
    let s := eachLoop s fun s k =>
      if (loopSensors s k).contains x && s.getN (O.TH_LEVEL k) != 0 then s.setN (O.TH_FROZEN k) 1 else s
    .next (noteCool (factorRefresh (allSensors.foldl leaveAlone s)))
  else .next s

/-- The condition has been absent for 100 ms (R500, R504). -/
def execSensorRecover (x : Sensor) (s : State) : Out :=
  let v := sensOf s x
  match v.okAt with
  | none => .next s
  | some u =>
    if v.failed ∧ u + 100000 ≤ s.uptime then
      let s := modSens s x fun v => { v with failed := false, alone := false, use := v.own.headD v.use, own := v.own.take 1 }
      let s := record (showSens s x) 0x0321 .chip (leBytes 1 (sensCode x))
      let s := eachLoop s fun s k =>
        if (loopSensors s k).any fun y => (sensOf s y).failed then s else s.setN (O.TH_FROZEN k) 0
      .next (noteCool (factorRefresh s))
    else .next s

/-- Three readings ask for the next band, 10 ms or more after the last change (R492). -/
def execBandChange (x : Sensor) (s : State) : Out :=
  let v := sensOf s x
  if sensRead s x ∧ 3 ≤ v.wantN ∧ v.want ≠ 0 ∧ quietFor v.bandAt s.uptime 10000 then
    let b : Nat := if 0 < v.want then min 4 (v.band + 1) else v.band - 1
    .next (showSens (modSens s x fun v => { v with band := b, bandAt := some s.uptime, want := 0, wantN := 0 }) x)
  else .next s

/-- The rate of a sensor, °C/ms (R490). -/
def rateOf (v : Sens) : Option Rat :=
  if v.failed || decide (v.own.length < 208) then none
  else some ((((v.own.take 8).sum - ((v.own.drop 200).take 8).sum : Int) : Rat) / 128)

/-- Every 100 µs: the rates of rise (R490). -/
def execRateOfRiseUpdate (s : State) : Out :=
  .next (noteCool (allSensors.foldl (fun s x =>
    let r := if sensRead s x then rateOf (sensOf s x) else none
    let s := modSens s x fun v => { v with rate := r }
    if sensOn s x then s.set (sensRor x) (clampI (toStep (r.getD 0 * 10)) (-1000) 1000) else s) s))

/-! ### Throttling (R494 to R499) -/

/-- A sensor's reading exceeds its threshold by `off` °C or more below it: hot is strictly above, cool strictly below. -/
def onOf (s : State) (k : LoopId) : Sensor → Int
  | .tmon _ => s.get (O.TH_ON_TM k) | _ => s.get (O.TH_ON_DIE k)

/-- A rate condition of hot holds (R491, R494). -/
def rateHot (s : State) (k : LoopId) : Bool :=
  (loopSensors s k).any fun x => match (sensOf s x).rate with
    | some r => (match x with | .tmon _ => decide ((s.getN O.TM_ROR_TH : Rat) / 10 ≤ r) | _ => decide (3 ≤ r))
    | none => false

/-- The conditions hot and cool of R494. -/
def loopHot (s : State) (k : LoopId) : Bool :=
  ((loopSensors s k).any fun x => sensRead s x && decide (onOf s k x * 8 < (sensOf s x).use)) || rateHot s k
def loopCool (s : State) (k : LoopId) : Bool :=
  ((loopSensors s k).all fun x => !sensRead s x || decide ((sensOf s x).use < (onOf s k x - s.get (O.TH_HYST k)) * 8)) &&
    !rateHot s k

/-- A change of level (R495, R497). -/
def changeLevel (s : State) (k : LoopId) (v : Nat) : State :=
  let was := s.getN (O.TH_LEVEL k)
  if v = was then s
  else
    let s := grantRefresh (putLevel (keepFactors s k v) k v) k
    let s := if v < s.getN (O.TH_SHED_LVL k) then s.modLoop k fun l => { l with th := { l.th with swapAt := none } } else s
    if was = 0 then amlAlert (recordLoop s 0x0310 k) k 7
    else if v = 0 then recordLoop s 0x0312 k
    else s.bump (O.TH_STEP_CNT k)

/-- The evaluation of one loop (R494); a change of TH_BUD_LVLS acts at it too (R509). -/
def throttle (s : State) (k : LoopId) : State :=
  let t := s.loops[k].th
  let put (u d : Nat) (s : State) := (levelAgain s k).modLoop k fun l => { l with th := { l.th with tUp := u, tDn := d } }
  let lv := s.getN (O.TH_LEVEL k)
  if loopHot s k then
    if s.getN (O.TH_STEP_T k) ≤ t.tUp + 10 then changeLevel (put 0 0 s) k (min (lv + 1) (s.getN (O.TH_BUD_LVLS k) + 10))
    else put (t.tUp + 10) 0 s
  else if loopCool s k then
    if s.getN (O.TH_REL_T k) ≤ t.tDn + 10 ∧ !s.isOn (O.TH_FROZEN k) then changeLevel (put 0 0 s) k (lv - 1)
    else put 0 (t.tDn + 10) s
  else put 0 0 s

/-- Every 10 µs, each loop in RAMP, REGULATE or SOFTSTOP (R494); one without its CK0 handshake keeps its level (R505). -/
def execThrottleEval (s : State) : Out := .next (eachLoop s fun s k => if running s k && !cutOff s k then throttle s k else s)

/-- A block's active cells of the loop, ascending, as the master has decided. -/
def activeOf (s : State) (k : LoopId) (b : Nat) : List Nat :=
  [4 * b, 4 * b + 1, 4 * b + 2, 4 * b + 3].filter fun n => (planned s k).contains n

/-- A block's cells that a swap can add (R498 step 2). -/
def swapCells (s : State) (k : LoopId) (b : Nat) : List Nat :=
  [4 * b, 4 * b + 1, 4 * b + 2, 4 * b + 3].filter fun n => available s n && !(planned s k).contains n && !heldCell s n &&
    !(skState s k == 3 && s.loops[k].sk.woken.contains n)

/-- The element with the greatest key, the first on a tie. -/
def argMax (f : Nat → Int) : List Nat → Option Nat
  | [] => none
  | x :: xs => some (xs.foldl (fun a b => if f a < f b then b else a) x)

/-- The thermal swap of a loop: the master decides the changes of order 2 of R327 (R498, R499); none without its CK0 handshake (R505). -/
def execThermalSwap (k : LoopId) (s : State) : Out :=
  let lvl := s.getN (O.TH_SHED_LVL k)
  if loopState s k = 3 ∧ cutOff s k = false ∧ lvl ≤ s.getN (O.TH_LEVEL k) ∧ quietFor s.loops[k].th.swapAt s.uptime (s.getN (O.TH_SHED_T k)) then
    let s := s.modLoop k fun l => { l with th := { l.th with swapAt := some s.uptime } }
    let t (b : Nat) := (sensOf s (.tmon (blockOf b))).use
    let blocks := (blocksOf s k).filter fun b => sensRead s (.tmon (blockOf b))
    match argMax t (blocks.filter fun b => decide (s.get (O.TH_ON_TM k) * 8 < t b) && decide (2 ≤ (activeOf s k b).length)) with
    | none => .next s
    | some h =>
      let cell := (activeOf s k h).getLastD 0
      let hold (s : State) := s.modCell (cellOf cell) fun c => { c with held := true }
      let note (s : State) (c : Nat) := recordLoop (s.bump (O.TH_SWAP_CNT k)) 0x0313 k (leBytes 1 h ++ leBytes 1 c)
      match argMax (fun b => -(t b)) (blocks.filter fun b =>
          decide (t b + s.get (O.TH_SHED_DT k) * 8 ≤ t h) && !(swapCells s k b).isEmpty) with
      | some c =>
        let add := (swapCells s k c).headD 0
        .next (note (decideChange (hold s) k (.swap cell (some add))) c)
      | none =>
        let n := (planned s k).length
        if nMin s k ≤ n - 1 ∧ (s.loops[k].sn.isum : Rat) / 256 / ((n - 1 : Nat) : Rat) ≤ s.getN (O.PH_ADD_I k) then
          .next (note (decideChange (hold s) k (.swap cell none)) 255)
        else .next s
  else .next s

/-- A held block has stayed cool for TH_REL_T (R499); a hold stays while the loop's CK0 handshake is lost (R505). -/
def execThermalHoldEnd (b : BlockId) (s : State) : Out :=
  match loopOfBlock s b, s.blocks[b].coolAt with
  | some k, some u =>
    if cutOff s k = false ∧ u + s.getN (O.TH_REL_T k) ≤ s.uptime then
      .next ([4 * b.val, 4 * b.val + 1, 4 * b.val + 2, 4 * b.val + 3].foldl (fun s n =>
        s.modCell (cellOf n) fun c => { c with held := false }) s)
    else .next s
  | _, _ => .next s

/-! ### Shutdown and restart (R477 to R489) -/

/-- A shutdown cause of R477 holds at a sensor: the comparator's input, in 0.001 °C of a die or 0.001 mV of a TMON ball, has exceeded
its threshold for 5 µs, or the rate of the sensor stands at its limit. -/
def causeHolds (s : State) (cause : Nat) (x : Sensor) (level : Int) (heldNs : Nat) : Bool :=
  let rate := match (sensOf s x).rate with | some r => decide (rateLimit s x ≤ r) | none => false
  let above (o : Addr) := decide (s.get o * 1000 < level) && decide (5000 ≤ heldNs)
  match cause, x with
  | 1, .die _ => above O.TSD_DIE
  | 1, .central => above O.TSD_DIE
  | 2, .tmon _ => above O.TMON_SD_MV
  | 3, .die _ => rate
  | 3, .central => rate
  | 4, .tmon _ => rate
  | _, _ => false

/-- TSD_RECENT: the shutdowns of the last 600 s of uptime (R487). -/
def tsdRecent (s : State) : Nat := min 255 (s.chip.shutdowns.filter fun u => decide (s.uptime < u + 600000000)).length

/-- The outputs and states of a shutdown (R481, R484). -/
def shutdownStates (s : State) : State :=
  let s := eachCell s stopCell
  let s := eachLoop s fun s k =>
    let st := loopState s k
    if 1 ≤ st ∧ st ≤ 4 then
      let s := (toFault s k 0x12).setN (O.TH_SD k) 1
      s.modLoop k fun l => { l with ctl := { l.ctl with trip := none } }
    else s
  if fbState s = 0 ∨ fbState s = 5 ∨ fbState s = 6 then s
  else
    let s := eachChan s fun s f => modChan s f chanRest
    { s.setN O.FB_STATE 5 with fb := { s.fb with trip := none, thSd := true } }

/-- Event 0x0301, formed from the shutdown objects, and alert bit 13 of each enabled port (R480, R481 step 5). -/
def shutdownEvent (s : State) : State :=
  let s := record { s with chip := { s.chip with tripDue := false } } 0x0301 .chip
    (leBytes 1 (s.getN O.TSD_CAUSE) ++ leBytes 1 (s.getN O.TSD_SENSOR) ++ leBytes 8 (s.getN O.TSD_UPTIME))
  (List.finRange 2).foldl (fun s (p : PortId) => if s.isOn (O.AML_EN p) then amlPend s p 8 13 else s) s

/-- THERMTRIP_N goes low (R477, R480, R481, R487); an ACTIVE may abdicate on a die shutdown instead (R566, R573). -/
def execThermalShutdown (cause : Fin 5) (x : Sensor) (level : Int) (heldNs : Nat) (s : State) : Out :=
  if s.chip.aon ∧ s.chip.therm = false ∧ causeHolds s cause x level heldNs then
    let s := { s with chip := { s.chip with therm := true, shutdowns := s.uptime :: s.chip.shutdowns } }
    let s := ((s.setN O.TSD_CAUSE cause).setN O.TSD_SENSOR (sensCode x)).setN O.TSD_UPTIME s.uptime
    let s := s.bump O.TSD_CNT
    let s := if s.chip.main then shutdownEvent s else { s with chip := { s.chip with tripDue := true } }
    let s := if tsdRecent s = 3 then record (setLatch s .restart) 0x0303 .chip else s
    if (cause.val = 1 ∨ cause.val = 3) ∧ abdicates s 3 then .next (abdicate (eachCell s stopCell))
    else .next (eachLoop (shutdownStates s) burnishAbandon)
  else .next s

/-- The restart conditions have held for 100 ms: at least 100,000 µs of uptime (R486; log entry 48). -/
def coolLong (s : State) : Bool :=
  coolEnough s && (match s.chip.coolAt with | some u => decide (u + 100000 ≤ s.uptime) | none => false)

/-- Restart, once its conditions have held for 100 ms and the latch is clear (R486, R489; log entry 55). -/
def execThermalRestart (s : State) : Out :=
  if s.chip.therm ∧ coolLong s ∧ latchSet s .restart = false then
    let s := record { s with chip := { s.chip with therm := false } } 0x0302 .chip
    let s := if fbState s = 5 ∧ s.fb.thSd then { s.setN O.FB_STATE 1 with fb := { s.fb with thSd := false } } else s
    let s := eachLoop s fun s k =>
      if s.isOn (O.TH_SD k) then
        let s := s.setN (O.TH_SD k) 0
        if loopState s k ≠ 5 then s
        else match bankFor s k s.fb.vbus with
          | some m => enterArmed s k m
          | none => enterOff (recordLoop s 0x0401 k) k
      else s
    .next (rearmAll s)
  else .next s

/-- A write to TH_FLT (R353, R354, R489): a 1 in bit 0 clears the restart latch and TSD_RECENT, or is refused. -/
def thFltPut (s : State) (v : Nat) : State × Nat :=
  if bit v 0 then
    if inactiveLong s .restart then
      (record { clearLatch s .restart with chip := { s.chip with shutdowns := [] } } 0x0304 .chip, 0)
    else
      let vals := leBytes 4 O.TH_FLT ++ leBytes 1 v ++ refusedField s .restart
      (record s 0x0240 .chip vals, 0xA030)
  else (s, 0)

/-- TH_STAT (R506). -/
def thStat (s : State) : Nat :=
  b2n s.chip.therm + 2 * b2n (coolEnough s && !latchSet s .restart) + 4 * b2n (latchSet s .restart)

end Sys2Proof.Machine
end

