-- ==== Sys2Proof/Machine/Burnish.lean ====
section
/-! DEFINITION. Burnish (R522 to R537). -/

namespace Sys2Proof.Machine

/-- The front-stage condition of R522: loop FB in REGULATE, or the bus where no channel is assigned. -/
def burnishPower (s : State) (k : LoopId) : Bool :=
  if s.getN O.FB_MASK = 0 then decide (burnishBus s k ≤ busMv s) else fbState s == 3

/-- The start conditions of R522, in a device that holds its outputs (R521). -/
def burnishReady (s : State) (k : LoopId) : Bool :=
  !(cellsOf s k).isEmpty && !passive s && decide (5 ≤ s.getN O.START_STEP) && !s.chip.therm &&
    (regionsOf s k).all (fun r => regionReady s r && s.getB O.REGION_AVAIL r) && burnishPower s k

/-- The latches of a loop's cells and blocks that are set, as numbers. -/
def burnLatches (s : State) (k : LoopId) : List Nat :=
  ((latchesOf s k).filter fun l => match l with | .loop _ _ => false | _ => latchSet s l).map latchNo

/-- Peak current of a cell's identification pulses in force (R525). -/
def burnIpk (s : State) (k : LoopId) (n : CellId) : Rat := min (s.getN (O.BUR_IPK k) : Rat) ((ocPkOf s k n : Rat) / 2)

/-- The slot of the next cell begins: t_on = BUR_IPK × ILIM_LCELL / y2 in whole counts (R525). With y2 = 0 the quotient has no stated
value: a free one (log entry 5). -/
def burnSlot (s : State) (k : LoopId) : State :=
  match burnishCell s k with
  | none => s
  | some n =>
    let (x, s) : Nat × State := if s.fb.vbus = 0 then s.draw
      else ((toStep (burnIpk s k (cellOf n) * s.getN (O.ILIM_LCELL k) / s.fb.vbus * 2)).toNat, s)
    s.modLoop k fun l => { l with bur := { l.bur with ton := x } }

/-- A burnish of a loop begins (R524). -/
def burnishRun (s : State) (k : LoopId) (byCmd : Bool) : State :=
  burnSlot ((s.setN (O.BUR_STATE k) 2).modLoop k fun l =>
    { l with bur := { l.bur with cells := cellsOf s k, slots := [], before := burnLatches s k, tb := s.uptime, byCmd := byCmd } }) k

/-- The start conditions of a loop are met during start-up: burnish, or stored results, by BUR_MODE (R522, R532). -/
def execBurnishStart (k : LoopId) (s : State) : Out :=
  let st := s.getN (O.BUR_STATE k)
  if burnishReady s k ∧ s.getN O.START_STEP < 9 ∧ isOff s k ∧
      (st = 0 ∨ st = 1 ∨ (st = 6 ∧ s.loops[k].bur.byCmd = false)) then
    let mode := s.getN (O.BUR_MODE k)
    if mode = 2 then
      .next ((s.setN (O.BUR_STATE k) 4).modLoop k fun l => { l with bur := { l.bur with ignore := true } })
    else if mode = 1 ∧ s.isOn (O.BUR_VALID k) then .next (recordLoop (s.setN (O.BUR_STATE k) 4) 0x0132 k)
    else .next (burnishRun s k false)
  else .next s

/-- BUR_WAIT has passed since step 4 without the start conditions (R523). -/
def execBurnishWaitTimeout (k : LoopId) (s : State) : Out :=
  let st := s.getN (O.BUR_STATE k)
  if s.getN O.START_STEP < 9 ∧ s.getN (O.START_T 3) ≠ 0 ∧ (st = 1 ∨ (st = 6 ∧ s.loops[k].bur.byCmd = false)) ∧
      s.getN (O.START_T 3) + s.getN O.BUR_WAIT * 1000 ≤ s.uptime then
    .next (recordLoop (s.setN (O.BUR_STATE k) 5) 0x0133 k)
  else .next s

/-- A cell's slot of 20 µs is complete: cells are measured one at a time, in ascending number (R524, R525). -/
def execBurnishCellMeasure (n : CellId) (m : BurnishSlot) (s : State) : Out :=
  match loopOfCell s n with
  | none => .next s
  | some k =>
    if burning s k ∧ s.loops[k].bur.cells.head? = some n.val ∧ burnSlotAt s.loops[k].bur + 20 ≤ s.uptime then
      let now := burnLatches s k
      let mine (l : Nat) := ((List.finRange 5).map fun b => latchNo (.cell n b)).contains l ||
        l == latchNo (.block (blockOf (n / 4)))
      let hit := now.any fun l => mine l && !s.loops[k].bur.before.contains l
      .next (burnSlot (s.modLoop k fun l =>
        { l with bur := { l.bur with cells := l.bur.cells.drop 1, slots := l.bur.slots ++ [(n.val, m, hit)], before := now } }) k)
    else .next s

/-- A measured quotient; one whose divisor is zero is a free value (log entry 5). -/
def quotient (a b : Rat) (free : Nat) : Rat := if b = 0 then (Config.freeNat free : Rat) else a / b

/-- The results of one cell (R526). -/
structure BurResult where
  cell : Nat
  res : Nat
  offset : Rat
  gain : Rat
  /-- nH -/
  ind : Rat
  /-- µΩ -/
  dcr : Rat
  /-- 0.5 ns -/
  dly : Int
  deriving DecidableEq, Repr

/-- The pulses of a cell showed its presence (R526). -/
def present (s : State) (k : LoopId) (e : Nat × BurnishSlot × Bool) : Bool :=
  decide (burnIpk s k (cellOf e.1) / 4 ≤ e.2.1.peak)

/-- The results of a cell and its first failing check (R526, R527). `mean`: the mean of ΔV / Q over the present cells,
none with fewer than two. -/
def burnResult (s : State) (k : LoopId) (vb : Rat) (mean : Option Rat) (e : Nat × BurnishSlot × Bool) : BurResult :=
  let n := cellOf e.1
  let m := e.2.1
  let f := s.free + 4 * e.1
  let y2 := s.fb.vbus
  let ofs := (imonTrimmed s n m.offsetCode - 256) * s.getN (O.IMON_IFS (n.val / 4)) / 768
  let gain : Rat := match mean with
    | some a => quotient (quotient m.deltaV m.charge f) a (f + 1)
    | none => 1
  let ind := quotient (y2 - vb) (m.slopeHi * gain) (f + 2)
  let dcr := quotient (-ind * m.slopeLo - vb) m.lowCurrent (f + 3) * 1000000
  let nh := ind * 1000000000
  let dly := toStep (m.delay * 2)
  let lc : Rat := (s.getN (O.ILIM_LCELL k) : Rat)
  let tol : Rat := (s.getN (O.BUR_GAIN_TOL k) : Rat) / 100
  let res :=
    if e.2.2 || m.readback then 0x16
    else if !present s k e then 0x10
    else if nh < lc * s.getN (O.BUR_L_LO k) / 100 ∨ lc * s.getN (O.BUR_L_HI k) / 100 < nh then 0x11
    else if dcr < s.getN (O.BUR_DCR_LO k) ∨ (s.getN (O.BUR_DCR_HI k) : Rat) < dcr then 0x12
    else if gain < 1 - tol ∨ 1 + tol < gain then 0x13
    else if (s.getN (O.BUR_OFS_MAX k) : Rat) < absR ofs * 256 then 0x14
    else if (s.getN (O.BUR_DLY_MAX k) : Int) < dly then 0x15
    else 1
  ⟨e.1, res, ofs, gain, nh, dcr, dly⟩

/-- The trim set of a cell that passed (R528). -/
def burnTrim (s : State) (r : BurResult) : State :=
  let n := cellOf r.cell
  let b := min 4 (s.getN (O.IMON_BAND n))
  let g := clampI (toStep (268435456 / r.gain)) (-2147483648) 2147483647
  let s := (s.set (O.IMTRIM_GAIN n b) g).set (O.IMTRIM_OFS n b) (clampI (toAmp r.offset) (-32768) 32767)
  (s.set (O.IMTRIM_DLY n b) (clampI r.dly 0 255)).setBitAt (O.IMTRIM_VALID n) b true

/-- The objects of a cell's results (R543). -/
def burnPut (s : State) (r : BurResult) : State :=
  let n := cellOf r.cell
  let s := (s.setN (O.BUR_RES n) r.res).set (O.BUR_L n) (clampI (toStep (r.ind * 10)) 0 65535)
  let s := (s.set (O.BUR_DCR n) (clampI (toStep r.dcr) 0 65535)).set (O.BUR_KREL n) (clampI (toStep (r.gain * 268435456)) 0 2147483647)
  s.set (O.BUR_DLY n) (clampI r.dly 0 255)

/-- The other cells of a failing cell's block are excluded as well under BUR_POLICY BLOCK (R529). -/
def burnPolicy (s : State) (k : LoopId) (rs : List BurResult) : List BurResult :=
  if s.getN (O.BUR_POLICY k) = 1 then
    rs.map fun r => if r.res < 0x10 && rs.any (fun q => q.cell / 4 == r.cell / 4 && decide (0x10 ≤ q.res)) then { r with res := 0x20 } else r
  else rs

/-- The results of the cells of a burnish whose slots are complete (R526, R527, R529). -/
def burnResults (s : State) (k : LoopId) (vb : Rat) : List BurResult :=
  let slots := s.loops[k].bur.slots
  let there := slots.filter (present s k)
  let mean := if there.length < 2 then none
    else some (meanR (there.map fun e => quotient e.2.1.deltaV e.2.1.charge (s.free + 4 * e.1)))
  burnPolicy s k (slots.map (burnResult s k vb mean))

/-- Every cell is measured: results, trims and exclusions, 60 µs and 20 µs a cell after tb (R524 step 5, R526 to R529). -/
def execBurnishDone (k : LoopId) (vb : Rat) (s : State) : Out :=
  if burning s k ∧ s.loops[k].bur.cells.isEmpty ∧ burnSlotAt s.loops[k].bur + 20 ≤ s.uptime then
    let rs := burnResults s k vb
    let s := { s with free := s.free + 384 }
    let s := rs.foldl (fun s r =>
      let s := burnPut s r
      if r.res = 1 then burnTrim s r
      else record s 0x0131 (.cell (cellOf r.cell)) (leBytes 1 r.res)) s
    let s := s.modLoop k fun l => { l with bur := { l.bur with slots := [], before := [], ignore := false } }
    .next (recordLoop ((s.setN (O.BUR_STATE k) 3).setN (O.BUR_VALID k) 1) 0x0130 k)
  else .next s

/-- BUR_CMD 0x10 + k (R536); the abort code is answered. -/
def burRunPut (s : State) (k : LoopId) : State × Nat :=
  if !isOff s k || onRequest s k || passive s || !burnishReady s k || burning s k then (s, 0xA030)
  else (burnishRun s k true, 0)

/-- BUR_CMD 0x20 + k (R531, R532, R536). -/
def burClearPut (s : State) (k : LoopId) : State × Nat :=
  let s := (cellsOf s k).foldl (fun s n => s.setN (O.BUR_RES n) 0) s
  (s.setN (O.BUR_VALID k) 0, 0)

end Sys2Proof.Machine
end

