-- ==== Sys2Proof/Machine/Plate.lean ====
section
/-! DEFINITION. The plate and the event recorder: stores, hold-up, restore, scratch, wall time, the log, and the microsecond
of uptime (R694 to R731). Recall stands with start-up. -/

namespace Sys2Proof.Machine

/-! ### The image (R694, R699 to R701) -/

/-- An object whose value a store carries: its Stored column reads "plate", or it is one of the shutdown registers that
every store includes (R488). -/
def storedA (a : Addr) : Bool :=
  (match rowOf a with | some r => r.plate | none => false) || (a / 256 == 0x5801 && decide (3 ≤ a % 256))

/-- The plate's content at this moment. -/
def imageNow (s : State) : Image :=
  { dict := s.dict.filter fun e => storedA e.1, blobs := s.blobs, log := s.plate.log, scratch := s.plate.scratch,
    margin := s.plate.margin, wall := s.wall }

/-- A bank's marker is valid (R701). -/
def markerOk (m : Marker) : Bool := m.state == 0x5E

/-- The bank with the newest valid marker. -/
def newestBank (p : Plate) : Option (Fin 2) :=
  match markerOk p.marker[0], markerOk p.marker[1] with
  | true, true => some (if p.marker[0].seq < p.marker[1].seq then 1 else 0)
  | true, false => some 0
  | false, true => some 1
  | false, false => none

/-- The target of the next store (R700). -/
def targetBank (p : Plate) : Fin 2 := match newestBank p with | some 0 => 1 | _ => 0

/-- The dirty bits of a bank: every page, or those listed (log entry 25). -/
def dirtyOf (p : Plate) (b : Fin 2) : Bool × List Nat := if b = 0 then (p.all0, p.dirty0) else (p.all1, p.dirty1)

/-- The dirty bits of a bank are put. -/
def putDirty (p : Plate) (b : Fin 2) (all : Bool) (l : List Nat) : Plate :=
  if b = 0 then { p with all0 := all, dirty0 := l } else { p with all1 := all, dirty1 := l }

/-- How many pages dirty bits stand for. -/
def pagesOf (d : Bool × List Nat) : Nat := if d.1 then 4096 else d.2.length

/-! ### Stores (R698 to R706) -/

/-- A store starts: snapshot, target, STARTED marker (R700); LT_PF_STORES counts those of a power failure (R779; log entry
66). -/
def startStore (s : State) (trigger : Nat) : State :=
  let s := if 2 ≤ trigger then s.bump O.LT_PF_STORES else s
  let s := s.setN O.STORE_STAT 1
  let p := s.plate
  let t := targetBank p
  let d := dirtyOf p t
  let seq := (match newestBank p with | some b => p.marker[b].seq | none => 0) + 1
  let m : Marker := ⟨0xA7, trigger, pagesOf d, seq, s.uptime, p.nextSeq⟩
  let st : Store := { trigger, target := t.val, seq, uptime := s.uptime, nextEvt := p.nextSeq, all := d.1, pages := d.2,
                      image := imageNow s, pf := decide (2 ≤ trigger) }
  { s with plate := { putDirty p t false [] with marker := p.marker.set t m, store := some st } }

/-- A trigger of a store (R698, R705), one of PFAIL_N or VCTRL that comes too soon ending the 1 ms for which both must have been up; of the accesses that R44 orders only stores last beyond their command (log entry 102). -/
def storeTrigger (s : State) (trigger : Nat) : State :=
  match s.plate.store with
  | none =>
    if quietFor s.plate.pfAt s.uptime 1000 then startStore s trigger
    else if 2 ≤ trigger then { s with plate := { s.plate with pfAt := some s.uptime } }
    else s
  | some st =>
    if st.pf then s
    else
      let s := { s with plate := { s.plate with store := some { st with again := some trigger, pf := decide (2 ≤ trigger) } } }
      s.setN O.STORE_STAT 2

/-- A store ends without its commit marker: its pages are dirty again (R699, R704, R706; log entry 66). -/
def storeStops (s : State) (st : Store) : State :=
  let t : Fin 2 := if st.target = 0 then 0 else 1
  let d := dirtyOf s.plate t
  { s with plate := { putDirty s.plate t (d.1 || st.all) (st.pages.foldl insertNat d.2) with store := none } }.setN O.STORE_STAT 3

/-- The last page is copied: the commit, or the stop after a second failed verify (R700, R702, R704, R705). -/
def execStoreComplete (verified : Bool) (s : State) : Out :=
  match s.plate.store with
  | none => .next s
  | some st =>
    if !verified then .next (record (storeStops s st) 0x0803 .chip)
    else
      let t : Fin 2 := if st.target = 0 then 0 else 1
      let m : Marker := ⟨0x5E, st.trigger, if st.all then 4096 else st.pages.length, st.seq, st.uptime, st.nextEvt⟩
      let s := { s with plate := { s.plate with bank := s.plate.bank.set t st.image, marker := s.plate.marker.set t m, store := none,
                                                pfAt := if st.pf then some s.uptime else s.plate.pfAt } }
      let s := ((s.bump O.STORE_CNT).setN O.STORE_T_LAST (min 13000 (s.uptime - st.uptime))).setN O.STORE_STAT 0
      .next (match st.again with | some g => startStore s g | none => s)

/-- PFAIL_N has fallen, the deglitch filter passed (R698). -/
def execPfailFall (s : State) : Out := .next (if s.chip.aon && s.plate.recalled then storeTrigger s 2 else s)

/-- VCTRL has been below 3.0 V for 2 µs (R698). -/
def execVctrlLow (s : State) : Out := .next (if s.chip.aon && s.plate.recalled then storeTrigger s 3 else s)

/-- VHOLD has fallen below 2.2 V: a store stops without committing (R706). -/
def execVholdLow (s : State) : Out := match s.plate.store with | some st => .next (storeStops s st) | none => .next s

/-! ### Restore (R730) -/

/-- The plate page of an object's stored value. -/
def pageAt (a : Addr) : Nat := match rowOf a with | some r => pageFor r a | none => 0

/-- The faulted pages that a restore takes: persisted dictionary, lifetime counters and scratch. -/
def restorable (p : Nat) : Bool := decide (p < 0x300) || p / 16 == 0xB0 || (decide (0xB20 ≤ p) && decide (p < 0xC00))

/-- STORE_CMD 0x3C: each faulted page comes from the other bank where it decodes there, else from the defaults or zero. -/
def restorePages (s : State) : State :=
  let ps := s.plate.bad.filter restorable
  let o : Fin 2 := if s.getN O.BANK_NOW = 0 then 1 else 0
  let good (p : Nat) := markerOk s.plate.marker[o] && !s.plate.badOther.contains p
  let img := s.plate.bank[o]
  let scr (p : Nat) := p * 256
  let kept := (s.dict.filter fun e => !(storedA e.1 && ps.contains (pageAt e.1)))
  let dict := (img.dict.filter fun e => ps.contains (pageAt e.1) && good (pageAt e.1)).foldl (fun d e => dput d e.1 e.2) kept
  let blobs := (img.blobs.filter fun e => ps.contains (pageAt e.1) && good (pageAt e.1)).foldl (fun b e => insertAt b e.1 e.2)
    (s.blobs.filter fun e => !ps.contains (pageAt e.1))
  let inPage (p a : Nat) := decide (scr p ≤ 0xB2000 + a) && decide (0xB2000 + a < scr p + 256)
  let scratch := (img.scratch.filter fun e => ps.any fun p => inPage p e.1 && good p).foldl (fun m e => putByte m e.1 e.2)
    (s.plate.scratch.filter fun e => !ps.any fun p => inPage p e.1)
  let plate := ps.foldl Plate.touch { s.plate with scratch := scratch, bad := s.plate.bad.filter fun p => !restorable p }
  let s := { s with dict := dict, blobs := blobs, plate := plate }
  let f := s.getN O.PLATE_FLT
  record (deriveSettings (s.setN O.PLATE_FLT (clrBit (clrBit (clrBit f 0) 2) 3))) 0x080B .chip (ps.flatMap (leBytes 2))

/-- STORE_CMD (R739). -/
def storeCmdPut (s : State) (v : Nat) : State × Nat := (if v = 0xA5 then storeTrigger s 1 else restorePages s, 0)

/-! ### Scratch (R627, R739) -/

/-- Bytes go to the integrator scratch area, and dirty their pages. -/
def scratchPut (s : State) (ofs : Nat) (bs : List Byte) : State :=
  let pages := (List.range bs.length).map fun i => 0xB20 + (ofs + i) / 256
  { s with plate := { pages.foldl Plate.touch s.plate with scratch := putBytes s.plate.scratch ofs bs } }

/-- SCR_DATA: the bytes of the enabled lanes at SCR_OFS + lane; SCR_OFS then rises by 4 and wraps (R739). -/
def scrDataPut (s : State) (word : Nat) (enables : Nat) : State × Nat :=
  let o := s.getN O.SCR_OFS
  let s := ((List.range 4).zip (leBytes 4 word)).foldl (fun s e => if bit enables e.1 then scratchPut s (o + e.1) [e.2] else s) s
  (s.setN O.SCR_OFS ((o + 4) % 57344), 0)

/-! ### Wall time (R718, R720) -/

/-- Wall time is set, µs; event 0x0807 with the old and the new value where R720 asks for it. -/
def setWall (s : State) (new : Nat) : State :=
  let old := s.wall
  let first := !s.getB O.WALL_STAT 0
  let s := { s.setBitAt O.WALL_STAT 0 true with wall := new }
  let sec (w : Nat) := leBytes 8 (w / 1000000) ++ leBytes 4 (w % 1000000)
  if new < old ∨ old + 1000000 ≤ new ∨ first then record s 0x0807 .chip (sec old ++ sec new) else s

/-- WALL_SET_US applies the held seconds and the written µs (R718). -/
def wallSetPut (s : State) (us : Nat) : State × Nat := (setWall s (s.getN O.WALL_SET_S * 1000000 + us), 0)

/-! ### The log (R725 to R729) -/

/-- LOG_CMD: the clear, whose first record carries the first and last SEQ of the old log and LOG_REFUSED; a page that fails
the test leaves the log as it is (R726, R729). An empty log has no first or last SEQ: free values (log entry 5). -/
def logClearPut (s : State) (pagesOk : Bool) : State × Nat :=
  if !pagesOk then (s, 0xA050)
  else
    let l := s.plate.log
    let (f, s) := match l.head? with | some r => (r.seq, s) | none => s.draw
    let (z, s) := match l.getLast? with | some r => (r.seq, s) | none => s.draw
    let pages := logPages 0 (max 1 (logBytes l))
    let s := { s with plate := { pages.foldl Plate.touch s.plate with log := [] } }
    let s := (s.setN O.LOG_USED 0).setN O.LOG_STAT 0
    (record s 0x0808 .chip (leBytes 4 f ++ leBytes 4 z ++ leBytes 4 (s.getN O.LOG_REFUSED)), 0)

/-- A margin slot can be written: one is free, and no page of it has taken an uncorrectable error (R729). -/
def marginFree (s : State) : Bool :=
  decide (s.getN O.MARGIN_USED < 4) && (List.range 4).all fun i => !s.plate.bad.contains (0xB10 + 4 * s.getN O.MARGIN_USED + i)

/-- An uncorrectable error in the log area, at a plate address: the recorder stops writing to the log; the RECORDER-FAULT
record goes to the next free margin slot (R728, R729; log entry 28). -/
def recorderFault (s : State) (addr : Nat) : State :=
  let vals := leBytes 4 addr
  if marginFree s then
    let s := s.setBitAt O.LOG_STAT 1 true
    let r := mkRecord s 0x080A 3 false (payloadOf .chip vals)
    let n := s.getN O.MARGIN_USED
    let s := { s with plate := { s.plate.touch (0xB10 + 4 * n) with margin := s.plate.margin ++ [r] } }
    record (s.setN O.MARGIN_USED (n + 1)) 0x080A .chip vals
  else
    let s := s.setBitAt O.LOG_STAT 2 true
    (twAlert s (mkRecord s 0x080A 3 false [])).1

/-- The codes of R731 with severity 1. -/
def noticeCodes : List Nat :=
  [0x0102, 0x0110, 0x0111, 0x0112, 0x0115, 0x0240, 0x0241, 0x0302, 0x0304, 0x0312, 0x0313, 0x0321, 0x0403, 0x0405, 0x040C,
   0x0435, 0x0437, 0x043A, 0x0440, 0x0443, 0x0452, 0x0453, 0x0461, 0x0504, 0x0506, 0x0508, 0x0605, 0x0610, 0x0702, 0x0704,
   0x0806, 0x0807, 0x0808, 0x080B, 0x0901, 0x0902, 0x0904, 0x0905, 0x0906, 0x0911, 0x0913, 0x0915, 0x0921, 0x0922, 0x0923]

/-- An event code of R731. -/
def knownCode (c : Nat) : Bool := sevOf c != 1 || noticeCodes.contains c

/-- A record is formed (R722 to R728). A correctable ECC error of the plate is counted and recorded at most once in 10 ms
(R695, R731); an uncorrectable one in the log area stops the recorder (R728). -/
def execEventRecord (code : Nat) (unit : UnitId) (vals : List Byte) (s : State) : Out :=
  if !knownCode code then .next s
  else if code = 0x080A then .next (recorderFault (s.bump O.ECC_UE_CNT) (ofLe (vals.take 4)))
  else if code = 0x0805 then
    let s := s.bump O.ECC_CE_CNT
    if quietFor s.plate.ceAt s.uptime 10000 then
      .next (record { s with plate := { s.plate with ceAt := some s.uptime } } code unit vals)
    else .next s
  else .next (record s code unit vals)

/-! ### The microsecond (R716, R717) -/

/-- A sum of products below 1 µJ and what it adds in whole µJ. -/
def wholeJoules (frac power : Rat) : Rat × Nat :=
  let x := frac + power
  (x - (x.floor : Rat), x.floor.toNat)

/-- The means of the microsecond and ENERGY of a loop (R428, R716). -/
def tickLoop (s : State) (k : LoopId) : State :=
  let l := s.loops[k]
  if l.th.n = 0 then s
  else
    let v := l.th.vSum / l.th.n
    let i := l.th.iSum / l.th.n
    let e := wholeJoules l.th.joule (v * i)
    let up := running s k && decide (0 < v * i)
    let s := s.modLoop k fun l =>
      { l with th := { l.th with vMean := v, iMean := i, vSum := 0, iSum := 0, n := 0, joule := if up then e.1 else l.th.joule } }
    if up then s.bump64 (O.ENERGY k) e.2 else s

/-- ENERGY of loop FB (R716). -/
def tickFb (s : State) : State :=
  if s.fb.pN = 0 then s
  else
    let p := s.fb.pSum / s.fb.pN
    let e := wholeJoules s.fb.joule p
    let up := fbDrives s && decide (0 < p)
    let s := { s with fb := { s.fb with pSum := 0, pN := 0, joule := if up then e.1 else s.fb.joule } }
    if up then s.bump64 (O.ENERGY 8) e.2 else s

/-- One microsecond of uptime: uptime and wall time advance, ENERGY grows, the inputs of the latches that were active are known,
and the restart conditions are judged (R353, R486, R716 to R718, R782; log entry 48). -/
def execUptimeTick (active : List LatchId) (s : State) : Out :=
  if s.chip.aon then
    let s := tickFb (eachLoop { s with inputs := (active.map latchNo).foldl insertNat [] } tickLoop)
    let s := allLatches.foldl (fun s l => if inputNow s l then seeActive s l else s) s
    .next (noteCool { s with uptime := (s.uptime + 1) % 2 ^ 64, wall := s.wall + 1 })
  else .next s

end Sys2Proof.Machine
end

