-- ==== Sys2Proof/Machine/Trace.lean ====
section
/-! DEFINITION. Trace commands and the unload through ring 12 (R735 to R740). -/

namespace Sys2Proof.Machine

/-! ### TR_CMD (R735, R740) -/

/-- ARM: refused with no stream enabled, in a region that is off, and while it unloads. An event after it is a trigger. -/
def trArmPut (s : State) (r : RegionId) : State × Nat :=
  if (trStreams s r).isEmpty ∨ s.getN (O.RG_STATE r) = 0 ∨ trState s r = 5 then (s, 0xA030)
  else
    let prev := if 5 ≤ bits (s.getN (O.TR_TRIG r)) 0 4 then some (trWatch s r) else none
    let s := s.modTrace r fun t =>
      { t with dec := 0, total := 0, left := 0, trig := false, trigAt := none, prev, sent := 0 }
    (s.setN (O.TR_STAT r) (if trPre s r = 0 then 2 else 1), 0)

/-- FORCE: a trigger, ignored while the pre-trigger part fills. -/
def trForcePut (s : State) (r : RegionId) : State × Nat :=
  (if trState s r = 2 then s.modTrace r fun t => { t with trig := true } else s, 0)

/-- STOP: the capture ends as at DONE, with no trigger frame (log entry 67). -/
def trStopPut (s : State) (r : RegionId) : State × Nat :=
  let st := trState s r
  if st = 1 ∨ st = 2 ∨ st = 3 then
    (record ((s.setN (O.TR_STAT r) 4).modTrace r fun t => { t with trig := false, trigAt := none, left := 0 }) 0x0810 (.region r), 0)
  else (s, 0)

/-- The post-trigger frames are captured (R735). -/
def execTraceCaptureDone (r : RegionId) (s : State) : Out :=
  if trState s r = 3 ∧ s.traces[r].left = 0 then .next (record (trPut s r 4) 0x0810 (.region r)) else .next s

/-! ### Unload (R686, R737) -/

/-- TR_UNLOAD_STAT: the region that unloads, 0xF none; the regions that wait. -/
def unloading (s : State) : Nat := bits (s.getN O.TR_UNLOAD_STAT) 0 4
def unloadWait (s : State) : Nat := bits (s.getN O.TR_UNLOAD_STAT) 8 8

/-- The enabled streams of a region by number. -/
def streamNos (s : State) (r : RegionId) : List Nat := (List.range 8).filter fun i => bit (s.getN (O.TR_SEL r i)) 13

/-- Frames that the memory of a region holds. -/
def framesHeld (s : State) (r : RegionId) : Nat := min s.traces[r].total (trDepth s r)

/-- Trace blocks of one stream, and of the region. -/
def blocksPer (s : State) (r : RegionId) : Nat := (framesHeld s r + 61) / 62
def blocksAll (s : State) (r : RegionId) : Nat := blocksPer s r * (streamNos s r).length

/-- Block b of an unload: region and stream, the number of its first frame relative to the trigger frame, its words. -/
def traceBlock (s : State) (r : RegionId) (b : Nat) : RingItem :=
  let t := s.traces[r]
  let per := max 1 (blocksPer s r)
  let pos := b / per
  let first := t.total - framesHeld s r + b % per * 62
  let n := (streamNos s r).length
  let count := min 62 (t.total - first)
  let word (f : Nat) := (lookupAt t.mem (f % trDepth s r * n + pos)).getD 0
  { ty := 6, words := (r.val + (streamNos s r).getD pos 0 * 8) :: twos 32 ((first : Int) - (t.trigAt.getD 0 : Nat)) ::
      (List.range count).map fun i => word (first + i) }

/-- The next trace block goes to ring 12 where it fits; where it does not, the ring is STOPPED and the unload pauses. -/
def pumpStep (s : State) (r : RegionId) : State :=
  if trState s r ≠ 5 ∨ blocksAll s r ≤ s.traces[r].sent ∨ s.chip.freeze ∨ ringEn s 12 = false then s
  else
    let i := traceBlock s r s.traces[r].sent
    if ringNeed s.rings[(12 : RingId)] i ≤ ringFree s 12 then
      (ringWrite (s.modRing 12 fun g => { g with stopped := false }) 12 i).modTrace r fun t => { t with sent := t.sent + 1 }
    else if s.rings[(12 : RingId)].stopped then s
    else record (s.modRing 12 fun g => { g with stopped := true }) 0x0922 .chip (leBytes 1 12)

/-- The unload goes on as far as ring 12 has room (log entry 67). -/
def unloadPump (s : State) : State :=
  if unloading s = 15 then s
  else
    let r := regionOf (unloading s)
    (List.range (blocksAll s r - s.traces[r].sent)).foldl (fun s _ => pumpStep s r) s

/-- The next waiting region begins its unload; none left ends it. A capture that STOP ended has no trigger frame: its frame
numbers count from a free value (log entry 5). -/
def unloadNext (s : State) : State :=
  let w := unloadWait s
  match (List.range 8).find? fun j => bit w j && trState s (regionOf j) == 4 with
  | none => s.setN O.TR_UNLOAD_STAT 0x000F
  | some j =>
    let r := regionOf j
    let (z, s) := if s.traces[r].trigAt.isNone then s.draw else (0, s)
    let s := (trPut s r 5).modTrace r fun t => { t with sent := 0, trigAt := some (t.trigAt.getD z) }
    unloadPump (s.setN O.TR_UNLOAD_STAT (j + clrBit w j * 256))

/-- TR_UNLOAD: one region, or every region in state DONE; a region in any other state is passed over. -/
def trUnloadPut (s : State) (v : Nat) : State × Nat :=
  let want (j : Nat) := trState s (regionOf j) == 4 && (v == 0x1F || v == 0x10 + j)
  let w := (List.range 8).foldl (fun w j => if want j then setBit w j else w) (unloadWait s)
  let s := s.setN O.TR_UNLOAD_STAT (unloading s + w * 256)
  (if unloading s = 15 then unloadNext s else s, 0)

/-- IDLE: the capture is discarded; an unload of the region ends. -/
def trIdlePut (s : State) (r : RegionId) : State × Nat :=
  let cur := unloading s == r.val
  let s := (s.setN (O.TR_STAT r) 0).modTrace r fun _ => {}
  let s := s.setN O.TR_UNLOAD_STAT (unloading s + clrBit (unloadWait s) r * 256)
  (if cur then unloadNext s else s, 0)

/-- The last block of the region that unloads is in the ring: DONE again; the next region, or event 0x0811. -/
def execTraceUnloadDone (s : State) : Out :=
  if unloading s = 15 then .next s
  else
    let r := regionOf (unloading s)
    if blocksAll s r ≤ s.traces[r].sent then
      let s := unloadNext (trPut s r 4)
      .next (if unloading s = 15 then record s 0x0811 .chip else s)
    else .next s

end Sys2Proof.Machine
end

