-- ==== Sys2Proof/Machine/Rings.lean ====
section
/-! DEFINITION. The rings' registers, resumption and telemetry (R678 to R689). Ring requests stand with the dictionary. -/

namespace Sys2Proof.Machine

/-- The areas of two ring configurations overlap (R678). -/
def areasMeet (a b : Nat) : Bool :=
  let lo (v : Nat) := bits v 0 9
  let hi (v : Nat) := bits v 0 9 + 2 ^ bits v 9 4
  decide (lo a < hi b) && decide (lo b < hi a)

/-- RING_CFG (R678, R691). -/
def ringCfgPut (s : State) (r : RingId) (v : Nat) : State × Nat :=
  let old := s.getN (O.RING_CFG r)
  if bit old 13 ∧ bits old 0 13 ≠ bits v 0 13 then (s, 0xA030)
  else if bit v 13 ∧ bit old 13 = false then
    if 512 < bits v 0 9 + 2 ^ bits v 9 4 ∨
        (List.finRange 16).any (fun q => q != r && ringEn s q && areasMeet v (s.getN (O.RING_CFG q))) then (s, 0xA031)
    else
      let s := (((s.setN (O.RING_CFG r) v).setN (O.RING_PI r) 0).setN (O.RING_CI r) 0).setN (O.RING_LOST r) 0
      (s.modRing r fun g => { g with recs := [], gap := 0, stopped := false, aged := false, dropAt := none }, 0)
  else
    let s := s.setN (O.RING_CFG r) v
    (if bit v 13 then s else s.modRing r fun g => { g with recs := [], gap := 0, held := [], stopped := false, aged := false }, 0)

/-- Whether a byte count is a record boundary of ring 0, from a boundary on, by the records' LEN (R680, R682). -/
def boundary (s : State) (target : Nat) : Nat → Nat → Bool
  | 0, pos => pos == target
  | fuel + 1, pos =>
    if pos = target then true
    else
      let len := (byteAt s.sp.mem (ringBase s 0 + (pos + 1) % ringSize s 0)).toNat
      if len = 0 then false else boundary s target fuel ((pos + 4 * len) % 2 ^ 32)

/-- RING_PI: the host publishes records of ring 0 (R682, R687, R691). -/
def ringPiPut (s : State) (r : RingId) (v : Nat) : State × Nat :=
  if r ≠ 0 then (s, 0xA010)
  else if ringEn s 0 = false then (s, 0xA030)
  else
    let pi := s.getN (O.RING_PI (0 : Nat))
    let n := (v + 2 ^ 32 - pi) % 2 ^ 32
    if ringSize s 0 < (v + 2 ^ 32 - s.getN (O.RING_CI (0 : Nat))) % 2 ^ 32 ∨ ringSize s 0 < n ∨ boundary s v (n / 4) pi = false then (s, 0xA020)
    else ((s.setN (O.RING_PI (0 : Nat)) v).modRing 0 fun g => { g with aged := false }, 0)

/-- The unread records after n bytes are consumed; none where n is no record boundary. -/
def consume : List RingRec → Nat → Option (List RingRec)
  | l, 0 => some l
  | [], _ + 1 => none
  | c :: cs, n + 1 => if c.len ≤ n + 1 ∧ 0 < c.len then consume cs (n + 1 - c.len) else none

/-- The oldest record of a ring has been in it for TMO × 10 µs (R687). -/
def oldRecord (s : State) (r : RingId) : Bool :=
  let tmo := bits (s.getN (O.RING_CFG r)) 24 8
  match s.rings[r].recs.head? with
  | some c => tmo != 0 && decide (c.at_ + tmo * 10 ≤ s.uptime)
  | none => false

/-- RING_CI: the host consumes records of a device ring (R682). -/
def ringCiPut (s : State) (r : RingId) (v : Nat) : State × Nat :=
  if r = 0 then (s, 0xA010)
  else
    let n := (v + 2 ^ 32 - s.getN (O.RING_CI r)) % 2 ^ 32
    if ringUsed s r < n then (s, 0xA020)
    else match consume s.rings[r].recs n with
      | none => (s, 0xA020)
      | some rest =>
        let s := (s.setN (O.RING_CI r) v).modRing r fun g => { g with recs := rest }
        (s.modRing r fun g => { g with aged := g.aged && oldRecord s r }, 0)

/-- The copier of ring 14 writes the entries it holds as far as they fit (R686). -/
def copyHeld (s : State) : State :=
  s.rings[(14 : RingId)].held.foldl (fun s i =>
    if s.rings[(14 : RingId)].held.head? = some i ∧ ringEn s 14 ∧ ringNeed s.rings[(14 : RingId)] i ≤ ringFree s 14 then
      ringWrite (s.modRing 14 fun g => { g with held := g.held.drop 1 }) 14 i
    else s) s

/-- A ring resumes: ring 2 with half its size free writes its gap marker, ring 12 goes on unloading, ring 14 copying (R686). -/
def execRingResume (r : RingId) (s : State) : Out :=
  if s.chip.freeze ∨ ringEn s r = false then .next s
  else if r = 2 then
    if s.rings[r].stopped ∧ ringSize s r ≤ 2 * ringFree s r then
      .next (ringGap (s.modRing r fun g => { g with stopped := false }) r)
    else .next s
  else if r = 12 then .next (unloadPump s)
  else if r = 14 then .next (copyHeld s)
  else .next s

/-- The oldest record reaches the age of TMO (R687). -/
def execRingTmoElapsed (r : RingId) (s : State) : Out :=
  if r ≠ 0 ∧ ringEn s r ∧ oldRecord s r then .next (s.modRing r fun g => { g with aged := true }) else .next s

/-- SINT_PEND (R687). -/
def sintPend (s : State) : Nat :=
  ((List.finRange 16).filter fun r =>
    let g := s.rings[r]
    if r = 0 then g.aged
    else ringEn s r && (decide (s.getN (O.RING_CREDIT r) ≤ ringUsed s r) || g.aged || g.stopped)).foldl (fun m r => setBit m r.val) 0

/-- SINT_N is low (R687). -/
def sintLow (s : State) : Bool := Nat.land (sintPend s) (s.getN O.SINT_MASK) != 0

/-- RING_STAT (R693): a BACKPRESSURE ring is FULL while its producer waits for space. -/
def ringStat (s : State) (r : RingId) : Nat :=
  let g := s.rings[r]
  let full := (r == 0 && ringFree s r == 0) || (r == 1 && decide (ringFree s r < 76) && ringUsed s 0 != 0) || (r == 14 && !g.held.isEmpty)
  let st := if ringEn s r = false then 0 else if g.stopped then 2 else if full then 3 else 1
  st + 4 * b2n (bit (sintPend s) r)

/-! ### Telemetry (R688) -/

/-- A mean over the interval; with no sample in it the manual states none, and a free value stands there. -/
def meanOf (n : Nat) (sum : Rat) (free : Nat) : Rat := if n = 0 then (free : Rat) else sum / n

/-- The words of a loop's record after its header. -/
def loopWords (s : State) (k : LoopId) (free : Nat) : List Nat :=
  let t := s.loops[k].tel
  let m (x scale : Rat) := (toStep (meanOf t.n x free * scale)).toNat % 65536
  let one (x scale : Rat) := (toStep ((if t.n = 0 then (free : Rat) else x) * scale)).toNat % 65536
  let flags := s.loops[k].ph.active.length + 256 * loopState s k + 2048 * b2n (observing s k) + 4096 * b2n (grounded s k) +
    8192 * b2n (skState s k == 1) + 16384 * b2n (s.isOn (O.PG_STAT k))
  [s.uptime % 2 ^ 32, m t.v 8000, twos 32 (toStep (meanOf t.n t.i free * 256)), m t.d 65536 + 65536 * m t.b 1000,
   flags + 65536 * s.getN (O.TH_LEVEL k) + 16777216 * bankActive s k, one t.lo 8000 + 65536 * one t.hi 8000,
   s.getN (O.ILIM_SCALE k) + 65536 * min t.miss 65535]

/-- The words of loop FB's record after its header. -/
def fbWords (s : State) : List Nat :=
  let map := (chansOn s).foldl setBit 0
  [s.uptime % 2 ^ 32, (toStep (s.fb.vbus * 1000)).toNat % 65536 + 65536 * ((s.getN O.BS_VCMD) % 65536),
   (toStep (s.fb.vin * 100)).toNat % 65536 + 65536 * map + 16777216 * fbState s]

/-- Every 1/R a record is produced, while the loop is outside OFF (R688). -/
def execTelemetryRecord (u : LoopOrFb) (s : State) : Out :=
  match u with
  | .loop k =>
    let r : RingId := ⟨4 + k.val, by omega⟩
    if isOff s k ∨ s.getN (O.RING_OPT r) = 0 ∨ intervalDone s.loops[k].tel.at_ s.uptime (s.getN (O.RING_OPT r)) = false then .next s
    else
      let (z, s) := if s.loops[k].tel.n = 0 then s.draw else (0, s)
      .next (offerAsk (s.modLoop k fun l => { l with tel := { at_ := some s.uptime } }) r { ty := 5, words := loopWords s k z })
  | .fb =>
    let rate := s.getN (O.RING_OPT (13 : Nat))
    if fbState s = 0 ∨ rate = 0 ∨ intervalDone s.fb.telAt s.uptime rate = false then .next s
    else .next (offerAsk { s with fb := { s.fb with telAt := some s.uptime } } 13 { ty := 7, words := fbWords s })

end Sys2Proof.Machine
end

