-- ==== Sys2Proof/Machine/Twin.lean ====
section
/-! DEFINITION. Counterproof twin operation: token, heartbeats, digests, alignment, takeover, join and detach (R547 to R573).
The journal's application stands with the dictionary. -/

namespace Sys2Proof.Machine

/-! ### TWTOKEN (R549 to R554) -/

/-- The device has claimed the token: step 5 of start-up is complete (R515, R549). -/
def claimToken (s : State) : State :=
  let s := (s.setN O.TW_ROLE 0).setN O.TW_JOIN_STEP 0
  record { stepDone s 5 with twin := { s.twin with token := true, level := false } } 0x0601 .chip

/-- Start-up step 5: the token is claimed where TWTOKEN has been high, else the device is JOINING and its steps 6 to 8 read
as complete (R515, R521, R547, R549). A device with TW_PREF = SECOND looks at t0 + 1.2 ms. With no twin role configured the device holds
the token (R16, R544). -/
def execTokenClaim (high : Bool) (s : State) : Out :=
  if s.chip.hkLock = false ∨ s.getN O.START_STEP < 2 ∨ 5 ≤ s.getN O.START_STEP then .next s
  else if !twinCfg s then .next (stepDone s 5)
  else if s.chip.pref = 2 ∧ s.uptime < s.getN (O.START_T (0 : Nat)) + 1200 then .next s
  else if high then .next (claimToken s)
  else
    let s := leaveTwin { s with twin := { s.twin with token := false, level := false } } 3
    let s := eachLoop s fun s k => if s.getN (O.BUR_STATE k) = 1 then s.setN (O.BUR_STATE k) 0 else s
    .next (stepDone (stepDone (stepDone (stepDone s 5) 6) 7) 8)

/-- No heartbeat sent for 2 µs (R551). -/
def execOwnWatchdogExpire (s : State) : Out :=
  if s.uptime < s.twin.sentAt + 2 then .next s
  else match role s with
  | 1 => .next (record (leaveTwin { releaseToken s with twin := { (releaseToken s).twin with wdOk := false } } 4) 0x0613 .chip)
  | 2 => .next { s with twin := { s.twin with wdOk := false } }
  | _ => .next s

/-- VDD or VIO_PWM is low: the pad ring releases outputs and token (R553). No role changes by it (R547). -/
def execSupplyLowRelease (s : State) : Out := .next (if twinCfg s then releaseToken s else s)

/-! ### Heartbeats (R551 to R560) -/

/-- A heartbeat is sent; a READY that R564 cleared may return after 10 ms without a counting sample. -/
def execHeartbeatTx (s : State) : Out :=
  if twinCfg s then
    .next (sendHeartbeat (if quietFor s.twin.countAt s.uptime 10000 then { s with twin := { s.twin with divHold := false } } else s))
  else .next s

/-- A shadow loop enters ARMED by R175; where no bank can be active it stays in OFF, with event 0x0401 once. -/
def shadowArm (s : State) (k : LoopId) : State :=
  match bankFor s k s.fb.vbus with
  | some m => enterArmed s k m
  | none =>
    let noted := isOff s k && s.loops[k].eng.noBank
    let s := if isOff s k then s else enterOff s k
    let s := s.modLoop k fun l => { l with eng := { l.eng with noBank := true } }
    if noted then s else recordLoop s 0x0401 k

/-- A shadow loop takes a state of its ACTIVE (R559); one that leaves OFF is armed first (R175). -/
def followLoop (s : State) (k : LoopId) (x : Nat) : State :=
  if loopState s k = x then
    if x = 0 then s.modLoop k fun l => { l with eng := { l.eng with noBank := false } } else s
  else
    let s := if isOff s k && decide (1 ≤ x) && decide (x ≤ 4) then shadowArm s k else s
    if isOff s k && decide (x ≤ 4) then s
    else match x with
      | 0 => enterOff s k
      | 1 => if loopState s k = 1 then s else shadowArm s k
      | 2 => enterRamp s k
      | 3 => (s.setN (O.LOOP_STATE k) 3).modLoop k fun l => { l with ctl := { l.ctl with regAt := s.uptime, pgSince := none, pgOut := 0 } }
      | 4 => enterSoftstop s k
      | 5 => toFault s k 0x12
      | 6 => toLatched s k 0x12
      | _ => s

/-- The shadow of loop FB takes a state of the ACTIVE's (R559). -/
def followFb (s : State) (x : Nat) : State :=
  if fbState s = x then s
  else match x with
    | 0 => fbOff s
    | 1 => fbArm s
    | 2 => fbPreset s
    | _ =>
      if x ≤ 6 then
        let s := { s with fb := { s.fb with retryAt := s.uptime } }
        (if x = 3 ∨ x = 4 then s else fbLeaves s).setN O.FB_STATE x
      else s

/-- The states of a heartbeat reach the shadows (log entry 69). -/
def followStates (s : State) (h : Heartbeat) : State :=
  let s := (List.finRange 8).foldl (fun s k =>
    match h.loopStates[k.val]? with
    | some x => followLoop s k x.val
    | none => s) s
  followFb s h.fbState.val

/-- The queue of an ACTIVE without the entries its peer has applied. -/
def sentLeft (l : List JournalEntry) (jseq : Nat) : List JournalEntry :=
  l.filter fun e => let d := (e.seq + 65536 - jseq) % 65536; decide (0 < d) && decide (d < 32768)

/-- A frame of the twin link failed its CRC: it is discarded and counted (before R555). -/
def twBad (s : State) : State := s.bump O.TW_CRC_ERR

/-- What a valid heartbeat changes, by the device's own role (R547, R554, R570). -/
def heartbeatAct (s : State) (h : Heartbeat) : State :=
  if h.hold && s.twin.token && s.chip.pref == 2 then record (leaveTwin (releaseToken s) 4) 0x0612 .chip
  else match role s with
    | 0 =>
      let left := if h.role = 2 ∨ h.role = 3 then sentLeft s.twin.journal h.jseq else []
      { if h.role = 2 then s.setN O.TW_ROLE 1 else s with twin := { s.twin with journal := left } }
    | 1 =>
      if h.role = 2 then { s with twin := { s.twin with journal := sentLeft s.twin.journal h.jseq } }
      else { s.setN O.TW_ROLE 0 with twin := { s.twin with journal := [] } }
    | 2 => if h.role = 0 then leaveTwin s 4 else if h.role = 1 then followStates s h else s
    | 3 => if standby s && decide (h.role.val ≤ 1) then followStates s h else s
    | _ => s

/-- A heartbeat is received (R551, R554, R556). -/
def execHeartbeatRx (crcOk : Bool) (h : Heartbeat) (s : State) : Out :=
  if !twinCfg s then .next s
  else if !crcOk then .next (twBad s)
  else
    let t := s.twin
    .next (heartbeatAct { s with twin :=
      { t with peer := some h, linkUp := true, heardAt := s.uptime
               due := if (match t.peer with | some p => p.startStep != 9 | none => true) && h.startStep == 9 then s.uptime + 2000 else t.due
               abdSeen := t.abdSeen || (role s == 2 && h.abd), level := !(t.token || h.hold) } } h)

/-! ### Digests (R563, R564) -/

/-- The index of a loop, 8 for loop FB. -/
def unitIdx : LoopOrFb → Fin 9
  | .loop k => ⟨k.val, by omega⟩
  | .fb => 8

/-- The shadow's own samples of a unit. -/
def pastOf (s : State) : LoopOrFb → List (Nat × Int × List Int)
  | .loop k => s.loops[k].eng.past
  | .fb => s.fb.past

/-- The sample number a digest or record names, as the shadow counts it: loop FB sends the low 8 bits (R563). -/
def sameSample (u : LoopOrFb) (own sent : Nat) : Bool :=
  match u with
  | .loop _ => own == sent
  | .fb => own % 256 == sent % 256

/-- The difference of R564 between a digest and the shadow's own sample, counts, and whether it counts. -/
def divergence (s : State) (d : Digest) (own : Int × List Int) : Int × Bool :=
  let bound := s.getN O.TW_DIV_BOUND
  let lo := match d.unit with | .loop _ => own.1 / 256 | .fb => own.1
  let diff := signOf 8 (twos 8 ((d.low.val : Int) - lo))
  let mine := match d.unit with | .loop _ => [own.1] | .fb => own.2
  let far := d.full.zipWith (fun a b => decide ((bound : Int) * 256 < (a - b).natAbs)) mine
  (diff, decide (bound < diff.natAbs) || far.any id || (!d.full.isEmpty && d.full.length != mine.length))

/-- 32 consecutive samples have counted (R564). -/
def diverged (s : State) (u : LoopOrFb) (diff : Int) : State :=
  let unit : UnitId := match u with | .loop k => .loop k | .fb => .fb
  let i := unitIdx u
  let s := (record s 0x0610 unit (leBytes 2 (twos 16 diff))).bump O.DIV_CNT
  let win := (s.uptime :: s.twin.divWin).filter fun t => decide (s.uptime < t + 1000000)
  let s := { s with twin := { s.twin with div := s.twin.div.set i 0, alignFor := insertNat s.twin.alignFor i.val, divWin := win } }
  if s.getN O.TW_DIV_MAX ≤ win.length then
    record { s with twin := { s.twin with divHold := true, divWin := [] } } 0x0611 .chip
  else s

/-- A STANDBY compares a digest with its shadow (R563, R564). -/
def execDutyDigestRx (crcOk : Bool) (d : Digest) (s : State) : Out :=
  if !twinCfg s then .next s
  else if !crcOk then .next (twBad s)
  else if !standby s then .next s
  else
    let i := unitIdx d.unit
    if 0 < s.twin.skip[i] then .next { s with twin := { s.twin with skip := s.twin.skip.set i (s.twin.skip[i] - 1) } }
    else match (pastOf s d.unit).find? fun e => sameSample d.unit e.1 d.sample with
      | none => .next s
      | some e =>
        let (diff, counts) := divergence s d e.2
        if counts then
          let s := { s with twin := { s.twin with div := s.twin.div.set i (s.twin.div[i] + 1), countAt := some s.uptime } }
          .next (if 32 ≤ s.twin.div[i] then diverged s d.unit diff else s)
        else .next { s with twin := { s.twin with div := s.twin.div.set i 0 } }

/-! ### Alignment (R558, R559) -/

/-- The record of a loop at this moment (R558). -/
def loopRecord (s : State) (k : LoopId) : LoopAlign :=
  let l := s.loops[k]
  { loop := k, sample := l.eng.sample, loopState := loopState s k, xHat := l.eng.x, uTilde := [l.eng.ut0, l.eng.ut1],
    bankActive := bankActive s k, ground := grounded s k, groundInt := l.eng.gi, setPoint := l.sp.now,
    active := l.ph.active.map cellOf, slots := l.ph.active.map fun n => s.getN (O.SLOT_POS n),
    stipple := (regionsOf s k).map fun r => (regionOf r, l.track[regionOf r].acc, l.track[regionOf r].pos),
    retryLeft := s.getN (O.RETRY_LEFT k) }

/-- The record of loop FB (R558). -/
def fbRecord (s : State) : FbAlign :=
  { vCmd := s.fb.vcmd, integ := s.fb.integ, trims := (s.fb.chan.map fun c => c.trim).toList, fbState := fbState s }

/-- The holder sends an alignment record: an ACTIVE to its STANDBY, a SOLO to a joiner (R555, R569). -/
def execAlignmentRecordTx (u : LoopOrFb) (s : State) : Out :=
  if twinCfg s && decide (role s ≤ 1) && s.twin.linkUp then
    match u with
    | .loop k => if isOff s k then .next s else .next { s with twin := { s.twin with sentRec := some (.loop (loopRecord s k)) } }
    | .fb => .next { s with twin := { s.twin with sentRec := some (.fb (fbRecord s)) } }
  else .next s

/-- x̂ after a record: the difference to the shadow's own x̂ of the named sample is added; where that sample is not among the
last 64, the received x̂ is taken and the divergence count suspended (R559). -/
def alignX (s : State) (k : LoopId) (r : LoopAlign) : State :=
  match s.loops[k].eng.past.find? fun e => e.1 == r.sample with
  | some e =>
    s.modLoop k fun l =>
      { l with eng := { l.eng with x := (List.range 12).map fun i => l.eng.x.getD i 0 + (r.xHat.getD i 0 - e.2.2.getD i 0) } }
  | none =>
    let s := { s with twin := { s.twin with skip := s.twin.skip.set (unitIdx (.loop k)) 32 } }
    s.modLoop k fun l => { l with eng := { l.eng with x := (List.range 12).map fun i => r.xHat.getD i 0, sample := r.sample, past := [] } }

/-- A record of a loop is applied: every other field as sent (R559), but for a bank that the device does not hold VALID (R173). -/
def alignLoop (s : State) (r : LoopAlign) : State :=
  let k := r.loop
  let s := alignX (followLoop s k r.loopState) k r
  let s := (if bankState s k r.bankActive = 2 then s.setN (O.BANK_ACTIVE k) r.bankActive else s).setBitAt (O.ENG_FLAGS k) 1 r.ground
  let s := (s.setN (O.RETRY_LEFT k) r.retryLeft).set (O.SP_NOW k) (toStep (r.setPoint * 4000))
  let act := r.active.map Fin.val
  let s := (cellsOf s k).foldl (fun s n => if act.contains n then s else stopCell s (cellOf n)) s
  let s := (act.zip r.slots).foldl (fun s e => s.setN (O.SLOT_POS e.1) e.2) s
  s.modLoop k fun l =>
    { l with
      eng := { l.eng with ut0 := r.uTilde.getD 0 0, ut1 := r.uTilde.getD 1 0, gi := r.groundInt }
      sp := { l.sp with now := r.setPoint }
      ph := { l.ph with active := act.foldl insertNat [], changes := [], plan := none, wake := [] }
      track := r.stipple.foldl (fun t e => t.set e.1 { t[e.1] with acc := e.2.1, pos := e.2.2 }) l.track }

/-- The record of loop FB is applied. -/
def alignFb (s : State) (r : FbAlign) : State :=
  let s := followFb s r.fbState
  let s := { s with fb := { s.fb with vcmd := r.vCmd, integ := r.integ } }
  (List.finRange 8).foldl (fun s f => modChan s f fun c => { c with trim := r.trims.getD f.val c.trim }) s

/-- An alignment record has been applied: ALIGN_REQ for its unit ends. -/
def noteAligned (s : State) (u : LoopOrFb) : State :=
  let i := unitIdx u
  { s with twin := { s.twin with recAt := s.twin.recAt.set i (some s.uptime), alignFor := s.twin.alignFor.filter fun j => j != i.val } }

/-- A shadow applies an alignment record (R559). -/
def execAlignmentRecordRx (crcOk : Bool) (r : AlignRecord) (s : State) : Out :=
  if !twinCfg s then .next s
  else if !crcOk then .next (twBad s)
  else if !standby s then .next s
  else match r with
    | .loop r => .next (noteAligned (alignLoop s r) (.loop r.loop))
    | .fb r => .next (noteAligned (alignFb s r) .fb)

/-! ### Loss of the link and takeover (R560, R565 to R567) -/

/-- No valid heartbeat for 3 µs. -/
def execTwinLinkLost (s : State) : Out :=
  if twinCfg s && s.twin.linkUp && decide (s.twin.heardAt + 3 ≤ s.uptime) then
    let s := { s with twin := { s.twin with linkUp := false, lostAt := s.uptime } }
    if role s = 1 then .next (record { s.setN O.TW_ROLE 0 with twin := { s.twin with journal := [] } } 0x0604 .chip) else .next s
  else .next s

/-- An Amdin port at takeover: one that was followed goes on in UP, any other trains (R567; log entry 69). -/
def takePort (s : State) (p : PortId) : State :=
  if s.aml[p].followed && s.isOn (O.AML_EN p) then
    amlPend ((s.setN (O.LINK_STATE p) 3).modAml p fun m => { m with replies := [], phase := none, winBad := 0 }) p 8 12
  else if mayTrain s p then linkReset s p else s

/-- TWTOKEN has been high for 100 ns with the link lost or ABD seen: the STANDBY takes the token and goes on as SOLO from
its shadow (R565, R567). Event 0x0602 carries the trigger, 0 link lost or 1 ABD, and the difference of JSEQ. -/
def execTakeover (gap : Nat) (s : State) : Out :=
  let t := s.twin
  if role s = 2 ∧ (t.linkUp = false ∨ t.abdSeen) ∧ s.chip.therm = false then
    let lost := match t.peer with | some h => (h.jseq.val + 65536 - t.applied % 65536) % 65536 | none => 0
    let s := { s.setN O.TW_ROLE 0 with twin := { t with token := true, level := false, abdSeen := false, journal := [], alignFor := [] } }
    let s := (s.bump O.TKO_CNT).setN O.TKO_GAP_LAST (gap % 2 ^ 32)
    let s := eachCell s fun s n => (s.set (O.LEDGER n) 0).modCell n fun c => { c with stopped := true, owed := 0, carry := 0 }
    let s := (List.finRange 8).foldl (fun s f => modChan s f fun c => { c with ledger := 0, inPulse := false }) s
    let s := eachLoop s fun s k => s.setF (O.PG_STAT k) (loopState s k == 3)
    let s := takePort (takePort s 0) 1
    .next (record s 0x0602 .chip (leBytes 1 (b2n t.abdSeen) ++ leBytes 2 lost))
  else .next s

/-- TWTOKEN has stayed low for 10 µs after the link was lost (R565). -/
def execTakeoverTimeout (s : State) : Out :=
  if role s = 2 ∧ s.twin.linkUp = false ∧ s.twin.lostAt + 10 ≤ s.uptime then
    .next (record (leaveTwin { s with twin := { s.twin with level := false } } 4) 0x0614 .chip)
  else .next s

/-! ### TW_CMD (R566, R570) -/

/-- ABDICATE: only an ACTIVE whose peer is READY. -/
def twAbdicatePut (s : State) : State × Nat := if role s = 1 ∧ peerReady s then (abdicate s, 0) else (s, 0xA030)

/-- DETACH, with bit 7 (`release`) or without it. -/
def twDetachPut (s : State) (release : Bool) : State × Nat :=
  match role s with
  | 1 =>
    if release then (if peerReady s then (record (abdicateTo s) 0x0605 .chip, 0) else (s, 0xA030))
    else (record { s.setN O.TW_ROLE 0 with twin := { s.twin with journal := [] } } 0x0605 .chip, 0)
  | 2 => (record (leaveTwin s 4) 0x0605 .chip, 0)
  | 3 => (record (leaveTwin s 4) 0x0605 .chip, 0)
  | _ => (s, 0xA030)

/-- A join starts. -/
def joinStart (s : State) : State :=
  let s := leaveTwin s 3
  { s with twin := { s.twin with waitAt := none } }

/-- JOIN: only from DETACHED. -/
def twJoinPut (s : State) : State × Nat :=
  if role s = 4 ∧ twinCfg s then
    (joinStart { s with twin := { s.twin with fails := 0 } }, 0)
  else (s, 0xA030)

/-! ### Join (R569) -/

/-- A join fails at its present step: event 0x0608 with step and cause; the third failure in succession detaches, any other
waits TW_REJOIN_T (R547, R569). Causes: 0 time, 1 preference, 2 etched, 3 CRC, as event 0x0608 carries them (log entry 70). -/
def joinFail (s : State) (cause : Nat) : State :=
  let step := s.getN O.TW_JOIN_STEP + 1
  let s := (record s 0x0608 .chip (leBytes 1 step ++ leBytes 1 cause)).bump O.JOIN_FAIL_CNT
  let n := s.twin.fails + 1
  let s := leaveTwin s (if 3 ≤ n then 4 else 3)
  { s with twin := { s.twin with fails := if 3 ≤ n then 0 else n, waitAt := some s.uptime } }

/-- The device is joining and not waiting to join again. -/
def joining (s : State) : Bool := role s == 3 && s.twin.waitAt.isNone

/-- An object of the persisted dictionary area or a burnish result, as the image carries it (R569 step 2). -/
def inImage (a : Addr) : Bool :=
  match rowOf a with
  | some r => r.plate && (r.acc != .ro || [0x2013, 0x2014, 0x2015, 0x2017].contains (r.addr / 256) ||
      r.addr / 256 == 0x400A || r.addr / 256 == 0x3080)
  | none => false

/-- The image replaces the joiner's persisted dictionary; what the device derives from it follows. -/
def takeImage (s : State) (i : JoinImage) : State :=
  let kept := s.dict.filter fun e => !inImage e.1
  let s := { s with dict := kept, blobs := [] }
  let s := (i.objects.filter fun e => inImage e.1).foldl (fun s e => s.set e.1 e.2) s
  let s := i.blobs.foldl (fun s e => putBlob s e.1 e.2) s
  let s := (topoDiscard s).setN O.TOPO_GEN (i.topoGen % 2 ^ 32)
  let s := tabUseAll (eachLoop s rebuildBanks)
  let s := eachRegion (loopRates (deriveSettings s)) rolesShown
  let s := { s with chip := { s.chip with rising := regionsToRise s, failed := false, applying := some .commit },
                    twin := { s.twin with applied := match s.twin.peer with | some h => h.jseq.val | none => s.twin.applied } }
  s.setN O.TOPO_STATUS 1

/-- The twin has reached step 9 of its start-up. -/
def peerStarted (s : State) : Bool := match s.twin.peer with | some h => h.startStep == 9 | none => false

/-- The present step of a join has exceeded its limit (R569): that of step 2 runs from the twin's step 9, and step 4 is a run of
10 ms, which its limit ends. -/
def joinLate (s : State) : Bool :=
  decide (s.twin.due < s.uptime) && s.getN O.TW_JOIN_STEP != 3 && (s.getN O.TW_JOIN_STEP != 1 || peerStarted s)

/-- The join goes on with its next step, for which it has `limit` µs. -/
def joinNext (s : State) (step limit : Nat) : State :=
  { s.setN O.TW_JOIN_STEP step with twin := { s.twin with due := s.uptime + limit } }

/-- The shadow run of step 4 holds so far: no counting sample since step 3, no loss of the link, JSEQ complete (R569). -/
def runHolds (s : State) : Bool :=
  s.twin.linkUp && (match s.twin.countAt with | some u => decide (u + 10000 < s.twin.due) | none => true) &&
    (match s.twin.peer with | some h => s.twin.applied % 65536 == h.jseq.val | none => false)

/-- A join step is complete, in the order of R569; the queued journal entries stand with the dictionary. One that has exceeded its
limit has failed. -/
def joinStep (s : State) (j : JoinStep) : State :=
  if !joining s then s
  else if joinLate s then joinFail s 0
  else match s.getN O.TW_JOIN_STEP, j with
    | 0, .trained pref =>
      if pref = s.chip.pref then (joinFail s 1)
      else joinNext { s with twin := { s.twin with linkUp := true } } 1 2000
    | 1, .image i =>
      if peerStarted s then
        if !i.etchedEqual then (joinFail s 2)
        else if !i.crcOk then (joinFail s 3)
        else
          let s := takeImage s i
          joinNext s 2 (300 + 40 * s.chip.rising.length)
      else s
    | 2, .aligned =>
      if s.twin.recAt[(8 : Fin 9)].isSome && (List.finRange 8).all fun k =>
          isOff s k || (s.twin.recAt[(unitIdx (.loop k))].isSome &&
            (followersOf s k).all fun r => s.loops[k].track[regionOf r].lock) then
        joinNext (topoSettle s) 3 10000
      else s
    | 3, .shadowRun => if decide (s.twin.due ≤ s.uptime) && runHolds s then joinNext s 4 1 else s
    | 4, .declare =>
      let s := ((s.setN O.TW_JOIN_STEP 5).setN O.TW_ROLE 2).bump O.JOIN_CNT
      (sendHeartbeat (record { s with twin := { s.twin with fails := 0 } } 0x0607 .chip))
    | _, _ => s

/-- A join step exceeds its limit or fails its check (log entry 70): a failure by time comes with the limit, or ends a shadow run that
no longer holds. -/
def execJoinStepFail (cause : Nat) (s : State) : Out :=
  if joining s ∧ (cause ≠ 0 ∨ joinLate s ∨ (s.getN O.TW_JOIN_STEP = 3 ∧ runHolds s = false)) then .next (joinFail s cause) else .next s

/-- TW_REJOIN_T after a failed join, or in DETACHED with TW_AUTOJOIN = 1 and the link UP (R547, R569). -/
def execJoinRetry (s : State) : Out :=
  match s.twin.waitAt with
  | some t =>
    if t + s.getN O.TW_REJOIN_T * 1000 ≤ s.uptime ∧
        (role s = 3 ∨ (role s = 4 ∧ s.isOn O.TW_AUTOJOIN ∧ s.twin.linkUp)) then .next (joinStart s)
    else .next s
  | none => .next s

/-- The twin's TW_ROLE read over the two-wire bus every 10 ms while the link is lost (R571): a transfer of the controller, on a free bus
(R628, R633). -/
def execPeerRolePoll (answer : Option (Fin 5)) (s : State) : Out :=
  if twinCfg s && !s.twin.linkUp && s.getN O.TW_PEER_ADDR != 0 && (busFree s).isSome && quietFor s.twin.polledAt s.uptime 10000 then
    let s := { s with twin := { s.twin with polledAt := some s.uptime } }
    .next (busStopped (s.setN O.TW_PEER_ROLE (match answer with | some r => r.val | none => 0xFF)))
  else .next s

/-- TW_STAT (R573). -/
def twStat (s : State) : Nat :=
  b2n s.twin.token + 2 * b2n s.twin.level + 4 * b2n (twReady s) + 8 * b2n s.twin.linkUp + 16 * b2n (!s.twin.alignFor.isEmpty)

/-- TW_ALIGN_AGE: µs since the latest alignment record was applied (R573). -/
def twAlignAge (s : State) : Nat :=
  match (s.twin.recAt.toList.filterMap id).max? with
  | some u => min (s.uptime - u) 0xFFFFFFFF
  | none => 0

end Sys2Proof.Machine
end

