-- ==== Sys2Proof/Machine/Dictionary.lean ====
section
/-! DEFINITION. The object dictionary's checks: addresses, types, access, levels, locks, ranges and the rules of single
objects (R574 to R600), and its descriptors (R612). -/

namespace Sys2Proof.Machine

/-! ### Addresses (R575, R576, R599) -/

/-- The etched object that an index of 0x7C00 to 0x7CFF mirrors (R599). -/
def mirrorOf (i : Nat) : Option Addr :=
  if i = 0x7C00 then some O.INT_KEY
  else if i = 0x7C01 then some O.CAN_NID
  else if i = 0x7C02 then some O.TW_PREF
  else if i = 0x7C03 then some O.VIN_OV_ABS
  else if i = 0x7C04 then some O.TMON_SD_MV
  else if 0x7C08 ≤ i ∧ i < 0x7C10 then some (O.OVP_ABS (i - 0x7C08))
  else if 0x7C10 ≤ i ∧ i < 0x7C18 then some (O.PH_CEIL (i - 0x7C10))
  else if 0x7C20 ≤ i ∧ i < 0x7C80 then some (O.CELL_IABS (i - 0x7C20))
  else none

/-- What an address names. -/
inductive Named where
  /-- an object, at its functional address, with its row -/
  | obj (a : Addr) (r : Row)
  /-- the remaining slots of the etched object at a functional address -/
  | slots (a : Addr)
  /-- the functional address of a mirrored object -/
  | home (a : Addr)
  /-- none: the abort of R580, orders 1 to 3 -/
  | bad (code : Nat)
  deriving DecidableEq, Repr

/-- The index holds objects. -/
def indexKnown (a : Addr) : Bool := (rowsFor (template a)).any fun r => r.addr / 256 == template a / 256

/-- The etched object at an index (R575). -/
def etchedAt (a : Addr) : Option Addr :=
  ((rowsFor (template a)).find? fun r => r.addr / 256 == template a / 256 && r.acc == .rwe).map fun r =>
    a / 256 * 256 + r.addr % 256

/-- What an address names (R575, R576, R580 orders 1 and 3, R599). Every unit of the layout is present in this member, so
order 2 never fails here. Subindices 0x00 and 0xFF answer 0xA002 at any index, as DESC_ABORT's default shows (R612; log
entry 30). -/
def resolve (a : Addr) : Named :=
  if a % 256 = 0 ∨ a % 256 = 255 then .bad 0xA002
  else if 0x7C00 ≤ a / 256 ∧ a / 256 < 0x7D00 then
    match mirrorOf (a / 256) with
    | none => .bad 0xA001
    | some f =>
      match a % 256, rowOf f with
      | 0x01, some r => .obj f r
      | 0x02, _ => .home f
      | 0xFE, _ => .slots f
      | _, _ => .bad 0xA002
  else match rowOf a with
    | some r => if a % 256 = 0xFE then (match etchedAt a with | some f => .slots f | none => .bad 0xA002) else .obj a r
    | none => if indexKnown a then .bad 0xA002 else .bad 0xA001

/-- The abort that orders 1 to 3 of R580 give an address, 0 for none (log entry 30). -/
def addrAbort (a : Addr) : Nat := match resolve a with | .bad c => c | _ => 0

/-- Remaining slots of an etched object (R595, R599). -/
def slotsLeft (s : State) (a : Addr) : Nat := 8 - ((lookupAt s.chip.slots a).getD []).length

/-! ### Values (R577) -/

/-- The value that bytes spell in a type. -/
def ofBytes (t : Ty) (bs : List Byte) : Int := if t.signed then signOf (8 * t.bytes) (ofLe bs) else (ofLe bs : Nat)

/-- The bytes of a value in a type. -/
def toBytes (t : Ty) (v : Int) : List Byte := leBytes t.bytes (twos (8 * t.bytes) v)

/-- DOM and TAB objects are staged (R602). -/
def stagedTy (t : Ty) : Bool := t == .dom || t == .tab

/-- The value lies in the object's range; BOOL takes 0 and 1 (R577, R580 order 10). -/
def rangeOk (r : Row) (v : Int) : Bool :=
  (r.ty != .bool || v == 0 || v == 1) && (r.ranges.isEmpty || r.ranges.any fun e => decide (e.1 ≤ v) && decide (v ≤ e.2))

/-- The reserved bits of an object (R11): those of its row; of RING_OPT, ring 2 names bits [1:0] alone (R693). -/
def reservedAt (a : Addr) (r : Row) : Nat := if a = O.RING_OPT (2 : Nat) then 0xFFFFFFFC else r.reserved

/-- The fields of an object hold a value that its table does not list: POLICY and FB_POLICY (R340, R378, R379), BANK_SEL
(R179), the ring objects (R678, R693), the trace objects and SCR_OFS (R739, R740). -/
def fieldBad (s : State) (a : Addr) (v : Nat) : Bool :=
  let t := template a
  let k := instOf a
  if t = O.POLICY (0 : Nat) then
    (List.range 11).any fun i => bits v (2 * i) 2 == 3 || (decide (6 ≤ i) && bits v (2 * i) 2 == 2)
  else if t = O.FB_POLICY then (List.range 6).any fun i => decide (1 < bits v (2 * i) 2)
  else if t / 256 = 0x3014 then bits v 0 8 != 0 && (decide (bits v 8 8 < bits v 0 8) || decide (bits v 24 8 < bits v 16 8))
  else if t = O.RING_CFG (0 : Nat) then decide (8 < bits v 9 4)
  else if t = O.RING_CREDIT (0 : Nat) then v % 4 != 0 || decide (1024 * 2 ^ bits (s.getN (O.RING_CFG k)) 9 4 < v)
  else if t = O.RING_OPT (0 : Nat) then
    if k = 2 then false else if (4 ≤ k ∧ k ≤ 11) ∨ k = 13 then decide (1000 < v) else v != 0
  else if t = O.TR_TRIG (0 : Nat) then decide (7 < bits v 0 4)
  else if t / 256 = 0x7820 then decide (0x2F < bits v 0 8) || decide (11 < bits v 8 4)
  else if t = O.SCR_OFS then v % 4 != 0
  else false

/-! ### Locks (R589 to R594) -/

/-- The lock group of a template index (R590; log entry 39). -/
def groupOf (i : Nat) : Option Nat :=
  let between (lo hi : Nat) := decide (lo ≤ i) && decide (i ≤ hi)
  if between 0x2010 0x2013 then some 0
  else if between 0x3010 0x3018 then some 1
  else if between 0x3020 0x3025 || [0x2203, 0x4008, 0x5003, 0x5020].contains i then some 2
  else if between 0x3050 0x3052 || [0x4009, 0x5040, 0x5800, 0x3070].contains i then some 3
  else if between 0x3000 0x3004 || between 0x3040 0x3041 || between 0x4004 0x4007 ||
      [0x3008, 0x3030, 0x3060, 0x3080, 0x2020, 0x2201, 0x2204, 0x4001].contains i then some 4
  else if between 0x5000 0x5001 || [0x5010, 0x5030].contains i then some 5
  else if between 0x1100 0x11FF || between 0x6000 0x60FF then some 6
  else if between 0x6400 0x64FF then some 7
  else if between 0x7000 0x70FF || between 0x7800 0x78FF then some 8
  else none

/-- The objects that R591 exempts from locks (log entry 39). -/
def exempt (t : Addr) (r : Row) : Bool :=
  r.w1c || [O.LOOP_CMD (0 : Nat), O.FB_CMD, O.LINK_CMD (0 : Nat), O.TW_CMD, O.CELL_DIS (0 : Nat), O.BLK_DIS (0 : Nat),
    O.RG_PWM_DIS (0 : Nat), O.FCH_DIS, O.STORE_CMD, O.WALL_SET_S, O.WALL_SET_US].contains t

/-- The lock groups that cover an object: that of its index, and ETCHED for an etched one. -/
def groupsOf (a : Addr) (r : Row) : List Nat :=
  if r.acc = .ro ∨ exempt (template a) r then []
  else (groupOf (template a / 256)).toList ++ (if r.acc = .rwe then [9] else [])

/-- The object is locked (R592, R594). -/
def locked (s : State) (a : Addr) (r : Row) : Bool :=
  (groupsOf a r).any (fun g => s.getB O.LOCK_STAT g) ||
    ((a == O.LOCK_BOOT || a == O.LEVEL_IDLE_T) && s.getN O.LOCK_STAT != 0)

/-! ### Levels (R584) -/

/-- The level of a requester: 0 OPEN, 1 INTEGRATOR; the twin acts at INTEGRATOR. -/
def levelOf (s : State) (q : Requester) : Nat := if q = .twin then 1 else (s.rqOf q).level

/-- The write needs INTEGRATOR: by the object, or by the value 0x3C of STORE_CMD (R584, R739). -/
def needsKey (a : Addr) (r : Row) (v : Int) : Bool := r.integrator || (a == O.STORE_CMD && v == 0x3C)

/-! ### The journal's range (R561, R562) -/

/-- The object's writes are journaled (R561). -/
def journaled (a : Addr) (r : Row) (v : Int) : Bool :=
  let i := a / 256
  ((decide (0x2000 ≤ i) && decide (i < 0x6000)) || (decide (0x6000 ≤ i) && decide (i < 0x6400))) && r.acc != .rwe &&
    template a != O.LOOP_CMD (0 : Nat) && a != O.FB_CMD && !(a == O.BUR_CMD && !(decide (0x20 ≤ v) && decide (v ≤ 0x27)))

/-- A STANDBY or JOINING device refuses its ports' writes to journaled objects (R562). -/
def shadowed (s : State) (q : Requester) (a : Addr) (r : Row) (v : Int) : Bool :=
  q != .twin && (role s == 2 || role s == 3) && journaled a r v

/-! ### Rules of single objects (R580 order 11) -/

/-- Loop k, by number, is outside OFF. -/
def outK (s : State) (k : Nat) : Bool := s.getN (O.LOOP_STATE k) != 0

/-- The block's loop is outside OFF. -/
def outBlock (s : State) (b : Nat) : Bool := match loopOfBlock s b with | some k => outK s k | none => false

/-- The write is not allowed in the present state (abort 0xA030). `v` is the value written. Objects with an operation of
their own carry their rules there. -/
def stateRule (s : State) (a : Addr) (v : Int) : Bool :=
  let t := template a
  let i := t / 256
  let k := instOf a
  let b := a % 256
  if i = 0x2010 ∨ i = 0x2011 ∨ i = 0x2012 then stagingAbort s a v != 0
  else if t = O.IMON_GS (0 : Nat) ∨ t = O.IMON_IFS (0 : Nat) ∨ t = O.HIZ_ON_DIS (0 : Nat) then outBlock s k
  else if i = 0x3000 then decide (4 ≤ b) && decide (b ≤ 0x0A) && outK s k
  else if i = 0x3002 ∨ i = 0x3016 ∨ i = 0x3018 ∨ i = 0x3040 then outK s k
  else if t = O.PH_MIN (0 : Nat) ∨ t = O.DL_MODE (0 : Nat) then outK s k
  else if i = 0x3008 then t != O.VS_SRC_SEL (0 : Nat) && outK s k
  else if i = 0x3023 then outK s k
  else if i = 0x3030 then t != O.SK_EN (0 : Nat) && s.getN (O.SK_STATE k) != 0
  else if i = 0x3080 then decide (b ≤ 0x0A) && (outK s k || s.getN (O.BUR_STATE k) == 2)
  else if i = 0x4004 ∨ i = 0x4005 ∨ i = 0x4006 then s.getN (O.IMON_BAND k) + 1 == b && outBlock s (k / 4)
  else if i = 0x4008 then outBlock s (k / 4)
  else if i = 0x5000 then decide (4 ≤ b) && decide (b ≤ 0x0B) && fbState s != 0
  else if i = 0x5010 then fbState s != 0
  else if a = O.CAN_NID_OFS ∨ a = O.CAN_NOM_RATE ∨ a = O.CAN_DATA_RATE ∨ a = O.CAN_NOM_SP ∨ a = O.CAN_DATA_SP then s.isOn O.CAN_EN
  else if (i = 0x7810 ∧ 2 ≤ b ∧ b ≤ 5) ∨ i = 0x7820 then trState s (regionOf k) == 2 || trState s (regionOf k) == 5
  else false

/-- Nominal and data bit rates of the CAN objects, kbit/s. -/
def nomRate (c : Nat) : Nat := if c = 0 then 125 else if c = 1 then 250 else if c = 2 then 500 else 1000
def dataRate (c : Nat) : Nat := if c = 1 then 1000 else if c = 2 then 2000 else if c = 3 then 4000 else 5000

/-- The write conflicts with another setting (abort 0xA031; log entry 75). -/
def conflictRule (s : State) (a : Addr) (v : Int) : Bool :=
  let t := template a
  let k := instOf a
  let n := v.toNat
  let g (o : Nat → Addr) : Nat := s.getN (o k)
  if t = O.IMON_GS (0 : Nat) then decide (n * g O.IMON_IFS < 150000) || decide (1200000 < n * g O.IMON_IFS)
  else if t = O.IMON_IFS (0 : Nat) then decide (g O.IMON_GS * n < 150000) || decide (1200000 < g O.IMON_GS * n)
  else if t = O.SP_MIN (0 : Nat) then decide (g O.SP_MAX < n)
  else if t = O.SP_MAX (0 : Nat) then decide (n < g O.SP_MIN)
  else if t = O.PH_MIN (0 : Nat) then decide ((cellsOf s (loopOf k)).length < n) || decide (g O.PH_CEIL < n)
  else if t = O.U0_MIN (0 : Nat) then decide (s.get (O.U0_MAX k) < v)
  else if t = O.U0_MAX (0 : Nat) then decide (v < s.get (O.U0_MIN k))
  else if t = O.SK_TOL_UP (0 : Nat) ∨ t = O.SK_TOL_DN (0 : Nat) then decide (n ≤ g O.SK_VGUARD)
  else if t = O.SK_VGUARD (0 : Nat) then decide (g O.SK_TOL_UP ≤ n) || decide (g O.SK_TOL_DN ≤ n)
  else if t = O.FSW (0 : Nat) then (tabEntries (.tim (loopOf k)) (tabWorking s (.tim (loopOf k)))).any (timConflict (periodFor n))
  else if t = O.PH_ADD_I (0 : Nat) then decide (n < g O.PH_SHED_I + 2)
  else if t = O.PH_SHED_I (0 : Nat) then decide (g O.PH_ADD_I < n + 2)
  else if t = O.OVP_SET (0 : Nat) then decide (g O.OVP_ABS < n)
  else if t = O.VBUS_MIN_L (0 : Nat) then decide (g O.VBUS_MAX_L ≤ n)
  else if t = O.BUR_DCR_LO (0 : Nat) then decide (g O.BUR_DCR_HI < n)
  else if a = O.BS_VMAX then decide (s.getN O.FB_OV < n + s.getN O.BS_MARGIN)
  else if a = O.BS_MARGIN then decide (s.getN O.FB_OV < s.getN O.BS_VMAX + n)
  else if a = O.FB_OV then decide (n < s.getN O.BS_VMAX + s.getN O.BS_MARGIN)
  else if a = O.FB_UV then decide (s.getN O.FB_OV ≤ n)
  else if a = O.TM_RS_MV then decide (s.getN O.TMON_SD_MV < n + 50)
  else if a = O.TM_ROR_TH then decide (s.getN O.TM_ROR_SD ≤ n)
  else if a = O.TM_ROR_SD then decide (n ≤ s.getN O.TM_ROR_TH)
  else if a = O.CAN_DATA_RATE then n != 0 && decide (dataRate n ≤ nomRate (s.getN O.CAN_NOM_RATE))
  else if a = O.CAN_NOM_RATE then s.getN O.CAN_DATA_RATE != 0 && decide (dataRate (s.getN O.CAN_DATA_RATE) ≤ nomRate n)
  else if a = O.TW_HOST_ADDR then n != 0 && n == 0x40 + s.chip.addr
  else if t = O.RING_OPT (0 : Nat) then
    let rate (r : Nat) := if r = k then n else s.getN (O.RING_OPT r)
    ((4 ≤ k && decide (k ≤ 11)) || k == 13) &&
      decide (40000 < (((List.range 8).map fun i => rate (4 + i) * 32).sum + rate 13 * 16))
  else false

/-- The rules that R600 gives the etched objects: 0xA030 before 0xA031 (log entry 40). -/
def etchedRule (s : State) (a : Addr) (v : Nat) : Nat :=
  let t := template a
  let k := instOf a
  if t = O.PH_CEIL (0 : Nat) then (if outK s k then 0xA030 else if v < s.getN (O.PH_MIN k) then 0xA031 else 0)
  else if t = O.OVP_ABS (0 : Nat) then (if v < s.getN (O.OVP_SET k) then 0xA031 else 0)
  else if a = O.VIN_OV_ABS then (if v ≤ s.getN O.VIN_UV then 0xA031 else 0)
  else if a = O.TMON_SD_MV then (if v < s.getN O.TM_RS_MV + 50 then 0xA031 else 0)
  else if a = O.TW_PREF then
    (if (role s = 0 ∨ role s = 4) ∧ (List.range 8).all (fun k => !outK s k) ∧ fbState s = 0 then 0 else 0xA030)
  else 0

/-! ### Descriptors (R612) -/

/-- Class code of R579. -/
def classOf (a : Addr) (r : Row) : Nat :=
  match r.acc with
  | .ro => 0 | .wo => 2 | .rwe => 5
  | .rw => if r.plate then 3 else if (groupsOf a r).isEmpty then 1 else 4

/-- Lowest and highest value of a scalar object: of its range, else of its type without the reserved bits (log entry 31). -/
def boundsOf (a : Addr) (r : Row) : Int × Int :=
  match r.ranges with
  | e :: es => es.foldl (fun b x => (min b.1 x.1, max b.2 x.2)) e
  | [] =>
    let n := 8 * r.ty.bytes
    if r.ty = .bool then (0, 1)
    else if r.ty.signed then (-(2 ^ (n - 1) : Nat), (2 ^ (n - 1) : Nat) - 1)
    else (0, (2 ^ n : Nat) - 1 - (reservedAt a r : Int))

/-- A descriptor: type, access, length, lowest, highest and default value. -/
structure Descr where
  ty : Nat := 0
  access : Nat := 0
  len : Nat := 0
  lo : Int := 0
  hi : Int := 0
  dflt : Int := 0
  deriving DecidableEq, Repr

/-- The descriptor of an address; zeros where a read would abort (log entry 31). -/
def descrOf (a : Addr) : Descr :=
  match resolve a with
  | .bad _ => {}
  | .slots _ => ⟨2, 0, 1, 0, 8, 8⟩
  | .home f => ⟨4, 0, 4, 0, 4294967295, f⟩
  | .obj f r =>
    let acc := classOf f r + 16 * b2n r.integrator + 64 * b2n r.w1c + 128 * b2n (!(groupsOf f r).isEmpty)
    if r.ty.bytes = 0 then ⟨r.ty.code, acc, r.len, 0, 0, 0⟩
    else ⟨r.ty.code, acc, r.ty.bytes, (boundsOf f r).1, (boundsOf f r).2, dflt f⟩

end Sys2Proof.Machine
end

