-- ==== Sys2Proof/Machine/DictRead.lean ====
section
/-! DEFINITION. Reads of the dictionary: values computed on read, freeze, plain and segmented reads (R581, R605, R607,
R608, R719, R727). -/

namespace Sys2Proof.Machine

/-! ### Values computed on read -/

/-- CHIP_STAT (R613). -/
def chipStat (s : State) : Nat :=
  b2n s.chip.hkLock + 2 * b2n s.chip.freeze + 4 * b2n (s.getB O.PLATE_FLT 0) + 8 * b2n (s.getB O.LOG_STAT 1 || s.getB O.LOG_STAT 2) +
    16 * b2n s.chip.therm + 32 * b2n (s.getN O.TW_PREF != 0) + 64 * b2n s.plate.store.isSome + 128 * b2n s.chip.etchAt.isSome +
    256 * b2n (s.getN O.LOCK_STAT != 0)

/-- A map of 32 cells of the active set from cell `lo` on (R335). -/
def activeMap (s : State) (k lo : Nat) : Nat :=
  ((s.loops[loopOf k].ph.active.filter fun n => decide (lo ≤ n) && decide (n < lo + 32)).map fun n => 2 ^ (n - lo)).sum

/-- LOOP_FLT with its bits 6 and 7, CELLS and BLKS (R379). -/
def loopFlt (s : State) (k : LoopId) : Nat :=
  s.getN (O.LOOP_FLT k) + 64 * b2n ((cellsOf s k).any fun n => s.getN (O.CELL_FLT n) != 0) +
    128 * b2n ((blocksOf s k).any fun b => s.getN (O.BLK_FLT b) != 0)

/-- The inputs of an object's latch fields, in its layout (R355). -/
def fltIn (s : State) (o : LatchObj) : Nat :=
  (((latchBits o).filter fun b => inputNow s (latchField o b)).map fun b => 2 ^ b).sum

/-- LOOP_FLT_IN: bits 6 and 7 show the inputs of the cells and blocks. -/
def loopFltIn (s : State) (k : LoopId) : Nat :=
  fltIn s (.loop k) + 64 * b2n ((cellsOf s k).any fun n => fltIn s (.cell (cellOf n)) != 0) +
    128 * b2n ((blocksOf s k).any fun b => fltIn s (.block (blockOf b)) != 0)

/-- SP_WSTAT stands in the dictionary store; TW_PORT_STAT is its stored bits with bit 2 (alert queue not empty) added. -/
def twPortStat (s : State) : Nat := s.getN O.TW_PORT_STAT + 4 * b2n (!s.tw.alerts.isEmpty)

/-- SK_TCONF_MEAN: SK_TCONF_SUM over SK_INK_CNT, truncated (R282). -/
def tconfMean (s : State) (k : LoopId) : Nat :=
  if s.getN (O.SK_INK_CNT k) = 0 then 0 else min (s.getN (O.SK_TCONF_SUM k) / s.getN (O.SK_INK_CNT k)) 0xFFFFFFFF

/-- The value of an object as requester q reads it, outside freeze. TEC, REC and TDC_VAL are free values (log entry 44). -/
def liveVal (s : State) (q : Requester) (a : Addr) : Int :=
  let t := template a
  let k := instOf a
  let l := loopOf k
  let r := s.rqOf q
  let d := descrOf (r.descSel % 2 ^ 24)
  if a = O.CHIP_STAT then chipStat s
  else if a = O.LAST_ABORT then r.lastAbort
  else if a = O.LAST_ABORT_OBJ then r.lastAbortObj
  else if a = O.LEVEL then levelOf s q
  else if a = O.DESC_SEL then r.descSel
  else if a = O.DESC_ABORT then addrAbort (r.descSel % 2 ^ 24)
  else if a = O.DESC_TYPE then d.ty
  else if a = O.DESC_ACCESS then d.access
  else if a = O.DESC_LEN then d.len
  else if a = O.DESC_MIN then twos 64 d.lo
  else if a = O.DESC_MAX then twos 64 d.hi
  else if a = O.DESC_DEF then twos 64 d.dflt
  else if a = O.INT_KEY then 0
  else if a = O.TW_ADDR then (0x40 + s.chip.addr : Nat)
  else if a = O.TW_SLOPE then s.chip.slope
  else if a = O.TW_PORT_STAT then twPortStat s
  else if a = O.TW_QUEUE_N then s.tw.alerts.length
  else if a = O.CAN_STAT then (s.getN a + 8 * b2n (!s.can.push.isEmpty) : Nat)
  else if a = O.TEC then (Config.canCounter a s.uptime % 256 : Nat)
  else if a = O.REC then (Config.canCounter a s.uptime % 256 : Nat)
  else if a = O.TDC_VAL then (Config.canCounter a s.uptime % 128 : Nat)
  else if a = O.SINT_PEND then sintPend s
  else if t = O.RING_STAT (0 : Nat) then ringStat s (Fin.ofNat 16 k)
  else if t = O.BLK_FLT_IN (0 : Nat) then fltIn s (.block (blockOf k))
  else if t = O.TMON_STAT (0 : Nat) then (s.getN a + 4 * b2n ([4 * k, 4 * k + 1, 4 * k + 2, 4 * k + 3].any (heldCell s)) + 8 * b2n (!sensRead s (.tmon (blockOf k))) : Nat)
  else if t = O.MISS_WIN (0 : Nat) then missWin s l
  else if t = O.SK_NWOKEN (0 : Nat) then (s.loops[l].sk.woken.filter fun n => s.loops[l].ph.active.contains n).length
  else if t = O.SK_TCONF_MEAN (0 : Nat) then tconfMean s l
  else if t = O.SK_BIAS_NOW (0 : Nat) then toStep (s.loops[l].sk.bias * 4000)
  else if t = O.SK_CHAIN (0 : Nat) then skChain s l
  else if t = O.ACTIVE_N (0 : Nat) then s.loops[l].ph.active.length
  else if t = O.ACTIVE_MAP0 (0 : Nat) then activeMap s k 0
  else if t = O.ACTIVE_MAP1 (0 : Nat) then activeMap s k 32
  else if t = O.ACTIVE_MAP2 (0 : Nat) then activeMap s k 64
  else if t = O.LOOP_FLT (0 : Nat) then loopFlt s l
  else if t = O.LOOP_FLT_IN (0 : Nat) then loopFltIn s l
  else if t = O.BUR_EXCL_N (0 : Nat) then ((cellsOf s l).filter fun n => excluded s n).length
  else if t = O.CELL_OUT (0 : Nat) then (if s.getN (O.RG_STATE (k / 12)) = 0 then 0 else cellOut s (cellOf k))
  else if t = O.CELL_FLT_IN (0 : Nat) then fltIn s (.cell (cellOf k))
  else if a = O.FB_NCH then (chansOn s).length
  else if a = O.FCH_OUT then fchOut s
  else if a = O.FB_FLT_IN then fltIn s .fb
  else if a = O.TH_STAT then thStat s
  else if a = O.TSD_RECENT then tsdRecent s
  else if t = O.ALERT_OUT (0 : Nat) then alertOut s (Fin.ofNat 2 k)
  else if a = O.TWIN_STAT then twStat s
  else if a = O.TW_ALIGN_AGE then twAlignAge s
  else if a = O.DIRTY_N then pagesOf (dirtyOf s.plate (targetBank s.plate))
  else if a = O.UPTIME then s.uptime
  else if a = O.WALL_S then (s.wall / 1000000 : Nat)
  else if a = O.WALL_US then (s.wall % 1000000 : Nat)
  else if a = O.SCR_DATA then ofLe (getBytes s.plate.scratch (s.getN O.SCR_OFS) 4)
  else s.get a

/-! ### Regions without CK0 handshake (R47, R311) -/

/-- The region that an object belongs to: of a region, block or cell, and of a loop its master region (log entry 76). -/
def regionAt (s : State) (a : Addr) : Option RegionId :=
  let i := a / 256
  let k := instOf a
  if 0x2100 ≤ i ∧ i < 0x2200 then some (regionOf k)
  else if 0x2200 ≤ i ∧ i < 0x22C0 then some (regionOf (k / 3))
  else if 0x3000 ≤ i ∧ i < 0x3800 then (if masterOf s (loopOf k) < 8 then some (regionOf (masterOf s (loopOf k))) else none)
  else if 0x4000 ≤ i ∧ i < 0x4C00 then some (regionOf (k / 12))
  else if (0x7810 ≤ i ∧ i < 0x7818) ∨ (0x7820 ≤ i ∧ i < 0x7828) then some (regionOf k)
  else none

/-- That region, where it has no handshake with CK0. -/
def cutRegion (s : State) (a : Addr) : Option RegionId := (regionAt s a).filter fun r => s.regions[r].cut

/-- A status object: the region writes it. -/
def isStatus (a : Addr) : Bool := match rowOf a with | some r => r.acc == .ro || r.w1c | none => false

/-- The value that the dictionary holds of an object: the live one; for a region without handshake, what its status was when the
handshake was lost, and of its settings the latest write that waits (log entry 76). -/
def servedVal (s : State) (q : Requester) (a : Addr) : Int :=
  match cutRegion s a with
  | none => liveVal s q a
  | some r =>
    if isStatus a then (lookupAt s.regions[r].stale a).getD (dflt a)
    else match (s.regions[r].writes.filter fun e => e.2.1 == a).getLast? with
      | some e => e.2.2
      | none => liveVal s q a

/-! ### Freeze (R607) -/

/-- The read-only objects that are computed on read and that freeze holds. -/
def computedRo : List Addr :=
  [O.CHIP_STAT, O.TW_ADDR, O.TW_SLOPE, O.TW_PORT_STAT, O.TW_QUEUE_N, O.CAN_STAT, O.TEC, O.REC, O.TDC_VAL, O.FB_NCH, O.FCH_OUT, O.FB_FLT_IN, O.TH_STAT,
   O.TSD_RECENT, O.TWIN_STAT, O.TW_ALIGN_AGE, O.DIRTY_N, O.UPTIME, O.WALL_S, O.WALL_US] ++
  (List.range 16).map (fun r => O.RING_STAT r) ++ (List.range 24).flatMap (fun b => [O.BLK_FLT_IN b, O.TMON_STAT b]) ++
  (List.range 8).flatMap (fun k => [O.MISS_WIN k, O.SK_NWOKEN k, O.SK_TCONF_MEAN k, O.SK_BIAS_NOW k, O.SK_CHAIN k, O.ACTIVE_N k, O.ACTIVE_MAP0 k,
    O.ACTIVE_MAP1 k, O.ACTIVE_MAP2 k, O.LOOP_FLT_IN k, O.BUR_EXCL_N k]) ++
  (List.range 96).flatMap (fun n => [O.CELL_OUT n, O.CELL_FLT_IN n]) ++ [O.ALERT_OUT (0 : Nat), O.ALERT_OUT (1 : Nat)]

/-- What the read-only objects read at the moment freeze begins. -/
def freezeImage (s : State) : List (Nat × Int) :=
  let stale := (s.regions.toList.filter fun g => g.cut).flatMap fun g => g.stale.map Prod.fst
  (computedRo ++ stale).foldl (fun d a => insertAt d a (servedVal s .stream a))
    ((s.dict.filter fun e => match rowOf e.1 with | some r => r.acc == .ro | none => false).map fun e =>
      (e.1, servedVal s .stream e.1))

/-- What the status objects of a region read as its handshake is lost (R47). -/
def staleImage (s : State) (r : RegionId) : List (Nat × Int) :=
  let here (a : Addr) := regionAt s a == some r
  ((computedRo ++ (List.range 8).map (fun k => O.LOOP_FLT k)).filter here).foldl (fun d a => insertAt d a (liveVal s .stream a))
    (s.dict.filter fun e => isStatus e.1 && here e.1)

/-- The objects that read live during freeze (R607). -/
def readsLive (a : Addr) : Bool :=
  let i := a / 256
  i == 0x1000 || i == 0x1001 || i == 0x1008 || i == 0x1130 || i == 0x1140 || i == 0x1141 ||
    [O.LEVEL, O.LAST_ABORT, O.LAST_ABORT_OBJ].contains a

/-- The value of an object as requester q reads it. -/
def readVal (s : State) (q : Requester) (a : Addr) (r : Row) : Int :=
  if s.chip.freeze && r.acc == .ro && !readsLive a then
    let v := match lookupAt s.chip.frozen a with | some v => v | none => dflt a
    if a = O.CHIP_STAT then putBit v.toNat 1 true else v
  else servedVal s q a

/-! ### Reads -/

/-- What a transaction answers: an abort code, 0 for none, and data. -/
structure Ans where
  abort : Nat := 0
  data : List Byte := []
  deriving DecidableEq, Repr

/-- ORDER_CODE (R611, R5). -/
def orderCode : List Byte :=
  let base : List Byte := [0x50, 0x56, 0x2D, 0x49, 0x47, 0x58, 0x39, 0x36, 0x2D, 0x41, 0x31, 0x2D, 0x46, 0x42, 0x39, 0x30, 0x30]
  let bs := if Config.isL then base ++ [0x2D, 0x4C] else base
  bs ++ List.replicate (24 - bs.length) 0

/-- The table an address holds. -/
def tableAt (a : Addr) : Option TableId :=
  let t := template a
  let k := instOf a
  if t = O.RIP_TAB (0 : Nat) then some (.rip (loopOf k))
  else if t = O.TIM_TAB (0 : Nat) then some (.tim (loopOf k))
  else if t = O.LSAT_TAB (0 : Nat) then some (.lsat (blockOf k))
  else if a = O.FB_TIM_TAB then some .fbTim
  else if a = O.EFF_TAB then some .eff
  else none

/-- The record that LOG_SEL_SEQ selects (R727). -/
def selectedRecord (s : State) : Option Record := s.plate.log.find? fun r => r.seq == s.getN O.LOG_SEL_SEQ

/-- The working copy of a DOM, TAB or STR object. A bank with no image reads free bytes (log entry 5). -/
def blobOf (s : State) (a : Addr) : List Byte :=
  if a = O.ORDER_CODE then orderCode
  else if a = O.LOG_REC then (match selectedRecord s with | some r => recordBytes r | none => [])
  else match tableAt a with
    | some t => tabWorking s t
    | none => match lookupAt s.blobs a with
      | some bs => bs
      | none => (List.range 1280).map fun i => BitVec.ofNat 8 (Config.emptyByte a i)

/-- The plate pages that hold the stored value of an object (R608, R694). -/
def pagesFor (s : State) (a : Addr) (r : Row) : List Nat :=
  if a = O.SCR_DATA then [0xB20 + s.getN O.SCR_OFS / 256]
  else if r.plate = false then []
  else if stagedTy r.ty then (List.range ((r.len + 255) / 256)).map fun i => (pageFor r a + i) % 768
  else [pageFor r a]

/-- The abort of a read of an object (R581, R608, R727), 0 for none. -/
def readAbort (s : State) (a : Addr) (r : Row) : Nat :=
  if r.acc = .wo then 0xA011
  else if (pagesFor s a r).any fun p => s.plate.bad.contains p then 0xA050
  else if a = O.LOG_REC ∧ (selectedRecord s).isNone then 0xA030
  else 0

/-- What reading an object does besides: WALL_S records its µs and WALL_US consumes them (R719); SP_WSTAT clears PWERR
(R692). -/
def readSide (s : State) (q : Requester) (a : Addr) : State :=
  if a = O.WALL_S then
    s.modReq q fun r => { r with wallUs := some (readVal s q O.WALL_US { addr := O.WALL_US, ty := .u32, acc := .ro }).toNat }
  else if a = O.WALL_US then s.modReq q fun r => { r with wallUs := none }
  else if a = O.SP_WSTAT then { s with sp := { s.sp with pwerr := false } }
  else s

/-- The bytes of an object as requester q reads it. -/
def objBytes (s : State) (q : Requester) (a : Addr) (r : Row) : List Byte :=
  if r.ty.bytes = 0 then blobOf s a
  else if a = O.WALL_US then leBytes 4 ((s.rqOf q).wallUs.getD (readVal s q a r).toNat)
  else toBytes r.ty (readVal s q a r)

/-- The requester's last abort (R583); the transaction has been served (R587). -/
def noteAns (s : State) (q : Requester) (a : Addr) (code : Nat) : State :=
  s.modReq q fun r =>
    if code = 0 then { r with served := s.uptime }
    else { r with served := s.uptime, lastAbort := code, lastAbortObj := a % 2 ^ 24 }

/-- A read of a whole object (R581, R601). -/
def readWhole (s : State) (q : Requester) (a : Addr) : State × Ans :=
  match resolve a with
  | .bad c => (noteAns s q a c, ⟨c, []⟩)
  | .slots f => (noteAns s q a 0, ⟨0, leBytes 1 (slotsLeft s f)⟩)
  | .home f => (noteAns s q a 0, ⟨0, leBytes 4 f⟩)
  | .obj f r =>
    let c := readAbort s f r
    if c = 0 then (noteAns (readSide s q f) q a 0, ⟨0, objBytes s q f r⟩) else (noteAns s q a c, ⟨c, []⟩)

/-- A segmented read (R605): the requester's read buffer is filled at offset 0, or where it holds another object. -/
def readSegment (s : State) (q : Requester) (a : Addr) (ofs len : Nat) : State × Ans :=
  let held := match (s.rqOf q).buffer with | some (b, bs) => if b = a ∧ ofs ≠ 0 then some bs else none | none => none
  match held with
  | some bs => (noteAns s q a 0, ⟨0, (bs.drop ofs).take len⟩)
  | none =>
    let (s, x) := readWhole s q a
    if x.abort = 0 then
      (s.modReq q fun r => { r with buffer := some (a, x.data) }, ⟨0, (x.data.drop ofs).take len⟩)
    else (s, x)

/-- The dictionary answers: MAIN is up, RST_N is high, and its clock runs (R37, R512). -/
def serves (s : State) : Bool := s.chip.main && s.chip.hkLock

end Sys2Proof.Machine
end

