-- ==== Sys2Proof/Machine/DictWrite.lean ====
section
/-! DEFINITION. Writes of the dictionary: the objects with an operation of their own, etched objects, plain writes, segments,
recording, and the journal of an ACTIVE (R561, R580 to R610). -/

namespace Sys2Proof.Machine

/-! ### Access objects (R585 to R594) -/

/-- A refused KEY write (R585, R586): counted; event 0x0704 at most once in 10 ms, with the refusals since the last one. The
eighth in succession holds KEY for 1 s, and the succession then starts again (log entry 38). -/
def keyRefused (s : State) (q : Requester) : State :=
  let r := s.rqOf q
  let s := s.bump O.KEY_FAIL_CNT
  let s := if r.keyFails + 1 < 8 then s.modReq q fun r => { r with keyFails := r.keyFails + 1 }
    else s.modReq q fun r => { r with keyFails := 0, keyHold := s.uptime + 1000000 }
  if quietFor r.keyAt s.uptime 10000 then
    record (s.modReq q fun r => { r with keyAt := some s.uptime, keySkip := 0 }) 0x0704 .chip (leBytes 4 (r.keySkip + 1))
  else s.modReq q fun r => { r with keySkip := r.keySkip + 1 }

/-- KEY (R585, R586, R593). While KEY is held, nothing is compared, and the refusal counts (log entry 38). -/
def keyPut (s : State) (q : Requester) (v : Nat) : State × Nat :=
  if q = .twin then (s, 0)
  else if s.uptime < (s.rqOf q).keyHold then
    ((s.bump O.KEY_FAIL_CNT).modReq q fun r => { r with keySkip := r.keySkip + 1 }, 0xA012)
  else if v = s.getN O.INT_KEY then (record (s.modReq q fun r => { r with level := 1, keyFails := 0 }) 0x0705 .chip, 0)
  else (keyRefused s q, 0xA012)

/-- LEVEL_DROP (R587, R593). -/
def levelDropPut (s : State) (q : Requester) : State × Nat :=
  (if q = .twin then s else s.modReq q fun r => { r with level := 0 }, 0)

/-- LOCK_SET (R589). -/
def lockSetPut (s : State) (v : Nat) : State × Nat :=
  (record (s.setN O.LOCK_STAT (Nat.lor (s.getN O.LOCK_STAT) v)) 0x0707 .chip, 0)

/-- A write to a locked object (R592). -/
def lockRefused (s : State) (q : Requester) (a : Addr) : State :=
  let r := s.rqOf q
  if quietFor r.lockAt s.uptime 10000 then
    record (s.modReq q fun r => { r with lockAt := some s.uptime, lockSkip := 0 }) 0x0702 .chip
      (leBytes 4 a ++ leBytes 1 ((rqIdx q).val + 1) ++ leBytes 4 (r.lockSkip + 1))
  else s.modReq q fun r => { r with lockSkip := r.lockSkip + 1 }

/-! ### Ports -/

/-- The node ID that CAN_EN fixes (R644). -/
def canNodeNow (s : State) : Nat := if s.chip.canNid = 0 then s.getN O.CAN_NID_OFS + s.chip.nid else s.chip.canNid

/-- CAN_EN (R644, R652, R657). -/
def canEnPut (s : State) (v : Nat) : State × Nat :=
  if v = 1 then
    let t := if s.isOn O.CAN_EN then s else s.setN O.CAN_NODE (canNodeNow s)
    (canDrain { t.setN O.CAN_EN 1 with can := { t.can with on := true } }, 0)
  else ({ s.setN O.CAN_EN 0 with can := { s.can with on := false } }, 0)

/-! ### Etched objects (R594 to R600) -/

/-- A write to an etched object: the rules of R600, the present value, a burn in progress, the slots; then the value is in
force, and its slot burns (R595 to R597; log entry 40). -/
def etchedPut (s : State) (a : Addr) (v : Int) : State × Nat :=
  let c := etchedRule s a v.toNat
  if c ≠ 0 then (s, c)
  else if s.get a = v then (s, 0)
  else if s.chip.etchAt.isSome then (s, 0xA030)
  else if slotsLeft s a = 0 then (record s 0x0703 .chip, 0xA014)
  else
    let l := (lookupAt s.chip.slots a).getD []
    let t := s.set a v
    ({ t with chip := { t.chip with slots := insertAt t.chip.slots a (some v :: l), etchAt := some t.uptime } }, 0)

/-! ### Objects with an operation of their own -/

/-- What a command brings beside the value: the test of the log's pages (R726) and the enabled byte lanes (R669, R739). -/
structure With where
  pagesOk : Bool := true
  enables : Nat := 15
  deriving DecidableEq, Repr

/-- Every page of the log area passes, as far as the known errors tell (R726). -/
def logPagesOk (s : State) : Bool := !(s.plate.bad.any fun p => decide (0x300 ≤ p) && decide (p < 0xB00))

/-- The command object of a table, if the address is one (R207). -/
def tableCmdAt (a : Addr) : Option TableId :=
  let t := template a
  let k := instOf a
  if t = O.RIP_CMD (0 : Nat) then some (.rip (loopOf k))
  else if t = O.TIM_CMD (0 : Nat) then some (.tim (loopOf k))
  else if t = O.LSAT_CMD (0 : Nat) then some (.lsat (blockOf k))
  else if a = O.FB_TIM_CMD then some .fbTim
  else if a = O.EFF_CMD then some .eff
  else none

/-- The latch object at an address (R352). -/
def latchObjAt (a : Addr) : Option LatchObj :=
  let t := template a
  let k := instOf a
  if t = O.LOOP_FLT (0 : Nat) then some (.loop (loopOf k))
  else if t = O.CELL_FLT (0 : Nat) then some (.cell (cellOf k))
  else if t = O.BLK_FLT (0 : Nat) then some (.block (blockOf k))
  else if a = O.FB_FLT then some .fb
  else if a = O.FOC_FLT then some .foc
  else none

/-- BANK_CMD (R168, R171): 0x1m commit, 0x2m empty, 0x3m discard. -/
def bankCmdPut (s : State) (q : Requester) (k : LoopId) (v : Nat) : State × Nat :=
  let m : BankId := Fin.ofNat 4 (v % 4)
  if v < 0x20 then bankCommit s q k m
  else if v < 0x30 then bankEmpty s k m
  else (dropStaged s q (O.BANK k m), 0)

/-- BUR_CMD (R536): 0x1k run, 0x2k clear. -/
def burCmdPut (s : State) (v : Nat) : State × Nat :=
  let k := loopOf (v % 8)
  if v < 0x20 then burRunPut s k else burClearPut s k

/-- TW_CMD (R568 to R571). -/
def twCmdPut (s : State) (v : Nat) : State × Nat :=
  if v = 1 then twJoinPut s else if v = 3 then twAbdicatePut s else twDetachPut s (v == 0x82)

/-- TR_CMD (R735, R740). -/
def trCmdPut (s : State) (r : RegionId) (v : Nat) : State × Nat :=
  if v = 1 then trArmPut s r else if v = 2 then trForcePut s r else if v = 3 then trStopPut s r else trIdlePut s r

/-- LOOP_CMD (R386): 1 ON, 2 OFF, 3 OFF_NOW. -/
def loopCmdPut (s : State) (k : LoopId) (v : Nat) : State × Nat :=
  if v = 1 then loopOnPut s k else loopOffPut s k (v == 3)

/-- The operation of a chip-level object that has one of its own. -/
def ownChip (s : State) (q : Requester) (a : Addr) (v : Nat) (w : With) : Option (State × Nat) :=
  if a = O.DESC_SEL then some (s.modReq q fun r => { r with descSel := v }, 0)
  else if a = O.KEY then some (keyPut s q v)
  else if a = O.LEVEL_DROP then some (levelDropPut s q)
  else if a = O.LOCK_SET then some (lockSetPut s v)
  else if a = O.TOPO_CMD then some (if v = 0xC5 then topoCommit s (q == .twin) else (topoDiscard s, 0))
  else if a = O.BUR_CMD then some (burCmdPut s v)
  else if a = O.CAN_EN then some (canEnPut s v)
  else if a = O.FB_CMD then some (if v = 1 then fbOn s else fbOffCmd s)
  else if a = O.BS_MODE then some (bsModePut s v)
  else if a = O.FCH_DIS then some (fchDisPut s v)
  else if a = O.TH_FLT then some (thFltPut s v)
  else if a = O.TW_CMD then some (twCmdPut s v)
  else if a = O.STORE_CMD then some (storeCmdPut s v)
  else if a = O.WALL_SET_US then some (wallSetPut s v)
  else if a = O.LOG_CMD then some (logClearPut s w.pagesOk)
  else if a = O.SCR_DATA then some (scrDataPut s v w.enables)
  else if a = O.TR_UNLOAD then some (trUnloadPut s v)
  else none

/-- The operation of a unit's object that has one of its own. -/
def ownUnit (s : State) (q : Requester) (a : Addr) (v : Nat) : Option (State × Nat) :=
  let t := template a
  let k := instOf a
  if t = O.RING_CFG (0 : Nat) then some (ringCfgPut s (Fin.ofNat 16 k) v)
  else if t = O.RING_PI (0 : Nat) then some (ringPiPut s (Fin.ofNat 16 k) v)
  else if t = O.RING_CI (0 : Nat) then some (ringCiPut s (Fin.ofNat 16 k) v)
  else if t = O.RG_PWM_DIS (0 : Nat) then some (rgPwmDisPut s (regionOf k) v)
  else if t = O.BLK_DIS (0 : Nat) then some (blkDisPut s (blockOf k) v)
  else if t = O.CELL_DIS (0 : Nat) then some (cellDisPut s (cellOf k) v)
  else if t = O.LOOP_CMD (0 : Nat) then some (loopCmdPut s (loopOf k) v)
  else if t = O.SP_SRC (0 : Nat) then some (spSrcPut s (loopOf k) v)
  else if t = O.VS_SRC_SEL (0 : Nat) then some (vsSrcSelPut s (loopOf k) v)
  else if t = O.BANK_CMD (0 : Nat) then some (bankCmdPut s q (loopOf k) v)
  else if t = O.BANK_FORCE (0 : Nat) then some (bankForcePut s (loopOf k) v)
  else if t = O.SK_EN (0 : Nat) then some (skEnPut s (loopOf k) v)
  else if t = O.ENG_FLAGS (0 : Nat) then
    let old := s.getN a
    some (s.setN a (old - Nat.land old (Nat.land v 0x7D)), 0)
  else if t = O.AML_EN (0 : Nat) then some (amlEnPut s (Fin.ofNat 2 k) v)
  else if t = O.OWN_MAP (0 : Nat) then some (ownMapPut s (Fin.ofNat 2 k) v)
  else if t = O.LINK_CMD (0 : Nat) then some (linkCmdPut s (Fin.ofNat 2 k))
  else if t = O.TR_CMD (0 : Nat) then some (trCmdPut s (regionOf k) v)
  else match tableCmdAt a, latchObjAt a with
    | some i, _ => some (if v = 0xC5 then tableCommit s q i else (dropStaged s q (tabAddr i), 0))
    | none, some o => some (latchClearPut s o v)
    | none, none => none

/-! ### Plain writes -/

/-- An etched object. -/
def isEtched (a : Addr) : Bool := match rowOf a with | some r => r.acc == .rwe | none => false

/-- What follows from a setting besides its new value: period counts (R285, R447), the validity of burnish results
(R531, R534), the present throttle of the limit (R494), the load line in OFF (R229), arming (R385, R387), the host-address
clash (R636). -/
def afterPlain (s : State) (a : Addr) (v : Int) : State :=
  let t := template a
  let k := instOf a
  let l := loopOf k
  if t = O.FSW (0 : Nat) then s.setN (O.PERIOD_CNT k) (periodFor v.toNat)
  else if a = O.FB_FSW then s.setN O.FB_PERIOD_CNT (periodFor v.toNat)
  else if t = O.IMON_GS (0 : Nat) ∨ t = O.IMON_IFS (0 : Nat) then
    (match loopOfBlock s k with | some k => s.setN (O.BUR_VALID k) 0 | none => s)
  else if t = O.ILIM_LCELL (0 : Nat) then s.setN (O.BUR_VALID k) 0
  else if t = O.ILIM_TOT (0 : Nat) then levelAgain s l
  else if t = O.LL_R (0 : Nat) then (if isOff s l then s.setN (O.LL_R_NOW k) v.toNat else s)
  else if t / 256 = 0x3000 then rearm s l
  else if a = O.TW_HOST_ADDR then { s with tw := { s.tw with clash := false } }
  else s

/-- A plain write: the setting takes its value, an old one staying in force where R50 has it so. -/
def plainPut (s : State) (a : Addr) (v : Int) : State :=
  let s := if 0x3000 ≤ template a / 256 ∧ template a / 256 < 0x3100 then s.keepOld (loopOf (instOf a)) a else s
  afterPlain (s.set a v) a v

/-- Order 11 and the effect of a write to a scalar object: its abort, 0 for none. -/
def applyWrite (s : State) (q : Requester) (a : Addr) (r : Row) (v : Int) (w : With) : State × Nat :=
  if shadowed s q a r v || stateRule s a v then (s, 0xA030)
  else if conflictRule s a v then (s, 0xA031)
  else if r.acc = .rwe then etchedPut s a v
  else match ownChip s q a v.toNat w with
    | some x => x
    | none => match ownUnit s q a v.toNat with
      | some x => x
      | none => (plainPut s a v, 0)

/-! ### The journal of an ACTIVE (R561) -/

/-- The copy of an entry for ring 14: index and subindex, sequence number and offset, length, data. The manual names the
record and not its words. -/
def journalItem (e : JournalEntry) : RingItem :=
  { ty := 8, words := [e.index * 65536 + e.sub * 256 + b2n e.offset.isSome, e.seq % 65536 + (e.offset.getD 0) % 65536 * 65536,
                       e.data.length] ++ wordsOf e.data }

/-- The journal has overflowed: the STANDBY is to take a new image (R562); the device goes on SOLO. -/
def journalFull (s : State) : State :=
  record { s.setN O.TW_ROLE 0 with twin := { s.twin with journal := [] } } 0x0615 .chip

/-- The device sends a journal: ACTIVE, or SOLO with a twin that joins (R561, R569; log entry 41). -/
def sendsJournal (s : State) : Bool :=
  role s == 1 || (role s == 0 && twinCfg s && s.twin.linkUp && (match s.twin.peer with | some h => h.role == 3 | none => false))

/-- An applied write of such a device is sent, kept until the peer's JSEQ covers it, and copied to ring 14 (log entry 41). -/
def journalSend (s : State) (q : Requester) (a : Addr) (r : Row) (v : Int) (ofs : Option Nat) (data : List Byte) : State :=
  if sendsJournal s ∧ q ≠ .twin ∧ journaled a r v then
    let n := (s.twin.jseq + 1) % 65536
    let e : JournalEntry := { seq := n, index := a / 256, sub := a % 256, offset := ofs, data := data }
    let s := offerAsk { s with twin := { s.twin with jseq := n, journal := s.twin.journal ++ [e] } } 14 (journalItem e)
    if 512 < s.twin.journal.length then journalFull s else s
  else s

/-! ### Writes -/

/-- Orders 4 to 10 of R580 for a scalar object; 0 where all pass. -/
def writeCheck (s : State) (q : Requester) (a : Addr) (r : Row) (data : List Byte) : Nat :=
  let v := ofBytes r.ty data
  if r.acc = .ro then 0xA010
  else if s.chip.freeze && q != .twin then 0xA040
  else if needsKey a r v && levelOf s q == 0 then 0xA012
  else if q != .twin && locked s a r then 0xA013
  else if stagedTy r.ty || data.length != r.ty.bytes then 0xA021
  else if !r.ty.signed && Nat.land v.toNat (reservedAt a r) != 0 then 0xA022
  else if !rangeOk r v || fieldBad s a v.toNat then 0xA020
  else 0

/-- The persisted dictionary area is at fault, and the object is stored or etched (R608). -/
def plateFaulted (s : State) (r : Row) : Bool := s.getB O.PLATE_FLT 0 && (r.plate || r.acc == .rwe)

/-- The values of the dictionary but for those that the recorder and the rings move by themselves. -/
def settings (s : State) : List (Nat × Int) :=
  s.dict.filter fun e => !((decide (O.LOG_STAT ≤ e.1) && decide (e.1 ≤ O.LOG_REFUSED)) || e.1 == O.PUSH_DROP_CNT || e.1 == O.ALERT_DROP_CNT ||
    (decide (0x1140 ≤ e.1 / 256) && decide (e.1 / 256 < 0x1150)))

/-- A transaction has changed a working value, of whichever object (R610; log entry 27). -/
def changed (s t : State) (q : Requester) (a : Addr) : Bool :=
  servedVal s q a != servedVal t q a || liveVal s q a != liveVal t q a || s.blobs != t.blobs || (s.rqOf q).level != (t.rqOf q).level || settings s != settings t

/-- A write that a region cut from CK0 is to take (R311): it waits, in its place, for the handshake; an etched object burns at once
(log entry 76). -/
def waitWrite (s t : State) (q : Requester) (a : Addr) (v : Int) : State :=
  if isEtched a then t
  else match cutRegion s a with
  | some r => s.modRegion r fun g => { g with writes := g.writes ++ [(q, a, v)] }
  | none => t

/-- Event 0x0701 for an object of write level INTEGRATOR (R609): object, requester, its level, length, old and new value. A
write-only object has no old value: a free value (log entry 5; log entry 27). -/
def noteWrite (s t : State) (q : Requester) (a : Addr) (r : Row) (data : List Byte) : State :=
  if r.integrator then
    let (old, t) := if r.acc = .wo then (let (z, t) := t.draw; (leBytes data.length z, t)) else (toBytes r.ty (servedVal s q a), t)
    record t 0x0701 .chip (leBytes 4 a ++ leBytes 1 ((rqIdx q).val + 1) ++ leBytes 1 (levelOf s q) ++ leBytes 2 data.length ++ old ++ data)
  else t

/-- A write of a whole object (R580, R601, R609, R610). -/
def writeWhole (s : State) (q : Requester) (a : Addr) (data : List Byte) (w : With := {}) : State × Ans :=
  let no (t : State) (c : Nat) : State × Ans := (noteAns t q a c, ⟨c, []⟩)
  match resolve a with
  | .bad c => no s c
  | .slots _ => no s 0xA010
  | .home _ => no s 0xA010
  | .obj f r =>
    let c := writeCheck s q f r data
    if c = 0xA013 then no (lockRefused s q f) c
    else if c ≠ 0 then no s c
    else
      let v := ofBytes r.ty data
      let (t, c) := applyWrite s q f r v w
      if c ≠ 0 then no t c
      else if plateFaulted s r then no s 0xA050
      else
        let new := changed s t q f
        let t := noteWrite s (waitWrite s t q f v) q f r data
        let t := if new || changed s t q f then t.bump O.DICT_GEN else t
        (noteAns (journalSend t q f r v none data) q a 0, {})

/-- The bank of a BANK object is active (R169). -/
def activeBankObj (s : State) (a : Addr) : Bool :=
  template a / 256 == 0x3010 && bankActive s (loopOf (instOf a)) == a % 256 - 1

/-- A segment of a DOM or TAB object (R580, R592, R602 to R604): it extends the requester's staging copy. A segment that
R604 refuses discards the copy. -/
def writeSegment (s : State) (q : Requester) (a : Addr) (ofs : Nat) (data : List Byte) : State × Ans :=
  let no (t : State) (c : Nat) : State × Ans := (noteAns t q a c, ⟨c, []⟩)
  match resolve a with
  | .bad c => no s c
  | .slots _ => no s 0xA010
  | .home _ => no s 0xA010
  | .obj f r =>
    let old := if ofs = 0 then [] else staged s q f
    if r.acc = .ro then no s 0xA010
    else if s.chip.freeze && q != .twin then no s 0xA040
    else if r.integrator && levelOf s q == 0 then no s 0xA012
    else if q != .twin && locked s f r then no (lockRefused s q f) 0xA013
    else if !stagedTy r.ty then no s 0xA021
    else if ofs ≠ old.length ∨ r.len < ofs + data.length then no (dropStaged s q f) 0xA021
    else if shadowed s q f r 0 then no s 0xA030
    else if ofs = 0 ∧ activeBankObj s f then no s 0xA032
    else if plateFaulted s r then no s 0xA050
    else
      let t := s.modReq q fun x => { x with staging := insertAt x.staging f (old ++ data) }
      (noteAns (journalSend t q f r 0 (some ofs) data) q a 0, {})

/-- A port's command to the dictionary where it serves; a device that does not serve takes no transaction. -/
def serve (s : State) (f : State → State × Ans) : State := if serves s then (f s).1 else s

end Sys2Proof.Machine
end

