-- ==== Sys2Proof/Machine/DictRows.lean ====
section
/-! DEFINITION. The commands that are dictionary transactions of a requester, etched burns, levels, and the journal's
application (R561, R569, R587, R597, R607). -/

namespace Sys2Proof.Machine

/-- The address of an index and a subindex. -/
def addrOf (index sub : Nat) : Addr := index % 65536 * 256 + sub % 256

/-- A write of one value by a requester. -/
def put (s : State) (q : Requester) (a : Addr) (n v : Nat) : Out := .next (serve s fun s => writeWhole s q a (leBytes n v))

/-! ### Plain transactions -/

/-- A write of bytes to an object (R580). -/
def execDictWrite (q : Requester) (index sub : Nat) (data : List Byte) (s : State) : Out :=
  .next (serve s fun s => writeWhole s q (addrOf index sub) data { pagesOk := logPagesOk s })
/-- A write to an etched object (R594 to R600). -/
def execEtchedWrite (q : Requester) (index sub : Nat) (data : List Byte) (s : State) : Out :=
  .next (serve s fun s => writeWhole s q (addrOf index sub) data)
/-- DESC_SEL (R612). -/
def execDescSelWrite (q : Requester) (v : BitVec 32) (s : State) : Out := put s q O.DESC_SEL 4 v.toNat
/-- KEY (R585). -/
def execKeyWrite (q : Requester) (v : BitVec 32) (s : State) : Out := put s q O.KEY 4 v.toNat
/-- LEVEL_DROP (R587). -/
def execLevelDropWrite (q : Requester) (v : Nat) (s : State) : Out := put s q O.LEVEL_DROP 1 v
/-- LOCK_SET (R589). -/
def execLockSetWrite (q : Requester) (v : Nat) (s : State) : Out := put s q O.LOCK_SET 2 v

/-! ### Topology, banks, tables -/

/-- TOPO_CMD 0xC5 (R95). -/
def execTopoCommit (q : Requester) (s : State) : Out := put s q O.TOPO_CMD 1 0xC5
/-- TOPO_CMD 0x5C (R97). -/
def execTopoDiscard (q : Requester) (s : State) : Out := put s q O.TOPO_CMD 1 0x5C
/-- BANK_CMD 0x1m (R168). -/
def execBankCommit (q : Requester) (k : LoopId) (m : BankId) (s : State) : Out := put s q (O.BANK_CMD k) 1 (0x10 + m.val)
/-- BANK_CMD 0x2m (R171). -/
def execBankEmpty (q : Requester) (k : LoopId) (m : BankId) (s : State) : Out := put s q (O.BANK_CMD k) 1 (0x20 + m.val)
/-- BANK_CMD 0x3m (R171). -/
def execBankDiscard (q : Requester) (k : LoopId) (m : BankId) (s : State) : Out := put s q (O.BANK_CMD k) 1 (0x30 + m.val)
/-- BANK_FORCE (R182). -/
def execBankForceWrite (q : Requester) (k : LoopId) (v : Nat) (s : State) : Out := put s q (O.BANK_FORCE k) 1 v
/-- A table's command 0xC5 (R208). -/
def execTableCommit (q : Requester) (t : TableId) (s : State) : Out := put s q (tabAddr t + 1) 1 0xC5
/-- A table's command 0x5C (R207). -/
def execTableDiscard (q : Requester) (t : TableId) (s : State) : Out := put s q (tabAddr t + 1) 1 0x5C
/-- VS_SRC_SEL (R148). -/
def execVsSrcSelWrite (q : Requester) (k : LoopId) (v : Nat) (s : State) : Out := put s q (O.VS_SRC_SEL k) 1 v
/-- SK_EN (R282). -/
def execSkEnWrite (q : Requester) (k : LoopId) (v : Nat) (s : State) : Out := put s q (O.SK_EN k) 1 v

/-! ### Disables, front stage, latches, loops, links -/

/-- CELL_DIS (R306). -/
def execCellDisWrite (q : Requester) (n : CellId) (v : Nat) (s : State) : Out := put s q (O.CELL_DIS n) 1 v
/-- BLK_DIS (R306). -/
def execBlkDisWrite (q : Requester) (b : BlockId) (v : Nat) (s : State) : Out := put s q (O.BLK_DIS b) 1 v
/-- RG_PWM_DIS (R306). -/
def execRgPwmDisWrite (q : Requester) (r : RegionId) (v : Nat) (s : State) : Out := put s q (O.RG_PWM_DIS r) 1 v
/-- FCH_DIS (R302). -/
def execFchDisWrite (q : Requester) (v : Nat) (s : State) : Out := put s q O.FCH_DIS 1 v
/-- FB_CMD ON (R455). -/
def execFbCmdOn (q : Requester) (s : State) : Out := put s q O.FB_CMD 1 1
/-- FB_CMD OFF (R455). -/
def execFbCmdOff (q : Requester) (s : State) : Out := put s q O.FB_CMD 1 2
/-- BS_MODE (R467, R472). -/
def execBsModeWrite (q : Requester) (v : Nat) (s : State) : Out := put s q O.BS_MODE 1 v
/-- A write of 1s to the latch fields of an object (R353). -/
def execLatchClearWrite (q : Requester) (o : LatchObj) (mask : Nat) (s : State) : Out := put s q (latchObjAddr o) (latchObjBytes o) mask
/-- LOOP_CMD ON (R386). -/
def execLoopCmdOn (q : Requester) (k : LoopId) (s : State) : Out := put s q (O.LOOP_CMD k) 1 1
/-- LOOP_CMD OFF (R391). -/
def execLoopCmdOff (q : Requester) (k : LoopId) (s : State) : Out := put s q (O.LOOP_CMD k) 1 2
/-- LOOP_CMD OFF_NOW (R394). -/
def execLoopCmdOffNow (q : Requester) (k : LoopId) (s : State) : Out := put s q (O.LOOP_CMD k) 1 3
/-- SP_SRC (R403). -/
def execSpSrcWrite (q : Requester) (k : LoopId) (v : Nat) (s : State) : Out := put s q (O.SP_SRC k) 1 v
/-- AML_EN (R443). -/
def execAmlEnWrite (q : Requester) (p : PortId) (v : Nat) (s : State) : Out := put s q (O.AML_EN p) 1 v
/-- LINK_CMD (R437). -/
def execLinkCmdReset (q : Requester) (p : PortId) (s : State) : Out := put s q (O.LINK_CMD p) 1 1
/-- RS_LATCH (R489). -/
def execRsLatchClear (q : Requester) (s : State) : Out := put s q O.TH_FLT 1 1
/-- BUR_CMD 0x1k (R536). -/
def execBurCmdRun (q : Requester) (k : LoopId) (s : State) : Out := put s q O.BUR_CMD 1 (0x10 + k.val)
/-- BUR_CMD 0x2k (R536). -/
def execBurCmdClear (q : Requester) (k : LoopId) (s : State) : Out := put s q O.BUR_CMD 1 (0x20 + k.val)
/-- TW_CMD ABDICATE (R566). -/
def execTwCmdAbdicate (q : Requester) (s : State) : Out := put s q O.TW_CMD 1 3
/-- TW_CMD DETACH (R570). -/
def execTwCmdDetach (q : Requester) (release : Bool) (s : State) : Out := put s q O.TW_CMD 1 (if release then 0x82 else 2)
/-- TW_CMD JOIN (R570). -/
def execTwCmdJoin (q : Requester) (s : State) : Out := put s q O.TW_CMD 1 1
/-- CAN_EN (R644). -/
def execCanEnWrite (q : Requester) (v : Nat) (s : State) : Out := put s q O.CAN_EN 1 v

/-! ### Rings, plate, time, log, trace -/

/-- RING_CFG (R678). -/
def execRingCfgWrite (q : Requester) (r : RingId) (v : BitVec 32) (s : State) : Out := put s q (O.RING_CFG r) 4 v.toNat
/-- RING_PI (R682). -/
def execRingPiWrite (q : Requester) (r : RingId) (v : BitVec 32) (s : State) : Out := put s q (O.RING_PI r) 4 v.toNat
/-- RING_CI (R682). -/
def execRingCiWrite (q : Requester) (r : RingId) (v : BitVec 32) (s : State) : Out := put s q (O.RING_CI r) 4 v.toNat
/-- STORE_CMD 0xA5 (R698). -/
def execStoreCmdStore (q : Requester) (s : State) : Out := put s q O.STORE_CMD 1 0xA5
/-- STORE_CMD 0x3C (R730). -/
def execStoreCmdRestore (q : Requester) (s : State) : Out := put s q O.STORE_CMD 1 0x3C
/-- WALL_SET_US (R718). -/
def execWallSet (q : Requester) (us : Nat) (s : State) : Out := put s q O.WALL_SET_US 4 us
/-- LOG_CMD (R726). -/
def execLogClear (q : Requester) (pagesOk : Bool) (s : State) : Out :=
  .next (serve s fun s => writeWhole s q O.LOG_CMD (leBytes 1 0xC1) { pagesOk := pagesOk })
/-- SCR_DATA (R739). -/
def execScrDataWrite (q : Requester) (word : BitVec 32) (enables : BitVec 4) (s : State) : Out :=
  .next (serve s fun s => writeWhole s q O.SCR_DATA (leBytes 4 word.toNat) { enables := enables.toNat })
/-- TR_CMD ARM (R735). -/
def execTrArm (q : Requester) (r : RegionId) (s : State) : Out := put s q (O.TR_CMD r) 1 1
/-- TR_CMD FORCE (R735). -/
def execTrForce (q : Requester) (r : RegionId) (s : State) : Out := put s q (O.TR_CMD r) 1 2
/-- TR_CMD STOP (R735). -/
def execTrStop (q : Requester) (r : RegionId) (s : State) : Out := put s q (O.TR_CMD r) 1 3
/-- TR_CMD IDLE (R735). -/
def execTrIdle (q : Requester) (r : RegionId) (s : State) : Out := put s q (O.TR_CMD r) 1 4
/-- TR_UNLOAD (R737). -/
def execTrUnload (q : Requester) (v : Nat) (s : State) : Out := put s q O.TR_UNLOAD 1 v

/-- A read whose data the requester keeps. -/
def readOut (s : State) (q : Requester) (f : State → State × Ans) : State :=
  if serves s then (let (s, x) := f s; s.modReq q fun r => { r with out := x.data }) else s

/-- A read of WALL_S (R719). -/
def execWallSRead (q : Requester) (s : State) : Out := .next (readOut s q fun s => readWhole s q O.WALL_S)
/-- A read of WALL_US (R719). -/
def execWallUsRead (q : Requester) (s : State) : Out := .next (readOut s q fun s => readWhole s q O.WALL_US)
/-- A segmented read of LOG_REC (R727). -/
def execLogRecRead (q : Requester) (ofs len : Nat) (s : State) : Out :=
  .next (readOut s q fun s => readSegment s q O.LOG_REC ofs (min len 64))

/-! ### Levels and burns -/

/-- No transaction for LEVEL_IDLE_T: the level returns to OPEN (R587). -/
def execLevelIdleTimeout (q : Requester) (s : State) : Out :=
  let t := s.getN O.LEVEL_IDLE_T
  if q ≠ .twin ∧ t ≠ 0 ∧ (s.rqOf q).served + t * 1000000 ≤ s.uptime then .next (s.modReq q fun r => { r with level := 0 }) else .next s

/-- An antifuse burn is complete (R597). -/
def execEtchBurnDone (s : State) : Out := .next { s with chip := { s.chip with etchAt := none } }

/-! ### The journal at its receiver (R561, R569, R607) -/

/-- An entry is applied through the twin requester; a refusal records event 0x0240, once. -/
def applyEntry (s : State) (e : JournalEntry) : State :=
  let a := addrOf e.index e.sub
  let (s, x) := match e.offset with
    | none => writeWhole s .twin a e.data
    | some o => writeSegment s .twin a o e.data
  let own := (latchObjAt a).isSome || a == O.TH_FLT
  let s := if x.abort = 0 ∨ (x.abort = 0xA030 ∧ own) then s else record s 0x0240 .chip (leBytes 4 a)
  offerAsk { s with twin := { s.twin with applied := e.seq % 65536 } } 14 (journalItem e)

/-- The queued entries are applied in order, once nothing holds them. -/
def applyJournal (s : State) : State :=
  if standby s && !s.chip.freeze then
    let l := s.twin.journal
    l.foldl applyEntry { s with twin := { s.twin with journal := [] } }
  else s

/-- A journal entry arrives: it is applied, or waits in the queue of 512 entries. -/
def execJournalEntryApply (crcOk : Bool) (e : JournalEntry) (s : State) : Out :=
  if !twinCfg s then .next s
  else if !crcOk then .next (twBad s)
  else if standby s || (role s == 3 && s.getN O.TW_JOIN_STEP == 1) then
    let s := { s with twin := { s.twin with journal := s.twin.journal ++ [e] } }
    if 512 < s.twin.journal.length then .next (record (leaveTwin s 3) 0x0615 .chip) else .next (applyJournal s)
  else .next s

/-- A join step is complete (R569); entries that arose during step 2 are applied after it. -/
def execJoinStepComplete (j : JoinStep) (s : State) : Out := .next (applyJournal (joinStep s j))

end Sys2Proof.Machine
end

