-- ==== Sys2Proof/Machine/TwoWire.lean ====
section
/-! DEFINITION. The two-wire port: target transactions, STATUS, time-outs, and the controller's transfers (R615 to R640). -/

namespace Sys2Proof.Machine

/-! ### Target (R617 to R629) -/

/-- The target function answers (R629). -/
def twUp (s : State) : Bool := serves s && decide (2 ≤ s.getN O.START_STEP)

/-- The target address (R616). -/
def twAddr (s : State) : Nat := 0x40 + s.chip.addr

/-- The PEC (R617). -/
def pec (bs : List Byte) : Byte := BitVec.ofNat 8 (crcBytes 8 0x07 0 bs)

/-- An error record of the port for ring 15: a port code and its counters (R681). The manual gives no layout. -/
def twDiag (s : State) : State :=
  diag s [0x10, s.getN O.PEC_ERR_CNT, s.getN O.TMO_CNT, s.getN O.ARB_LOST_CNT, s.getN O.NACK_CNT, s.getN O.STUCK_CNT]

/-- A PEC mismatch: counted; event 0x0901 at most once in 10 ms, with the count since the last one (R619, R640). -/
def pecError (s : State) : State :=
  let s := twDiag (s.bump O.PEC_ERR_CNT)
  let n := s.tw.pecN + 1
  if quietFor s.tw.pecAt s.uptime 10000 then
    record { s with tw := { s.tw with pecAt := some s.uptime, pecN := 0 } } 0x0901 .chip (leBytes 4 n)
  else { s with tw := { s.tw with pecN := n } }

/-- A byte that R619 refuses: nothing is acknowledged until the next START or STOP. -/
def nack (s : State) : State := { s.bump O.NACK_CNT with tw := { s.tw with deaf := true } }

/-- A write transaction reaches its RESULT (R625). -/
def twResult (s : State) (result code idx sub : Nat) : State :=
  { s with tw := { s.tw with result := result, code := code, idx := idx, sub := sub, tag := (s.tw.tag + 1) % 256 } }

/-- LEN is in its range (R618, R619). -/
def lenOk (len : Nat) : Bool := decide (1 ≤ len) && decide (len ≤ 64)

/-- The bytes of a write from its address byte to LEN: command, fields, LEN (R618). -/
def twHead (s : State) (code : Byte) (fields : List Byte) (len : Nat) : List Byte :=
  BitVec.ofNat 8 (2 * twAddr s) :: code :: fields ++ leBytes 1 len

/-- What the bytes behind LEN make of a write that STOP or START ends: 0 complete, 1 a PEC mismatch, 2 an extra byte refused, 3 cut
short. With TW_PEC_REQ = 1 the last expected byte is the PEC, else the last data byte; one more byte is then the PEC (R617, R619,
R620). -/
def writeFate (s : State) (head : List Byte) (len : Nat) (bytes : List Byte) : Nat :=
  match bytes.drop len with
  | [] => if bytes.length < len ∨ s.isOn O.TW_PEC_REQ then 3 else 0
  | p :: more => if p ≠ pec (head ++ bytes.take len) then 1 else if more.isEmpty then 0 else 2

/-- A write transaction: submitted where it is complete (R620), else refused (R619) or discarded (R620 to R622). -/
def twSubmit (s : State) (head : List Byte) (index sub len : Nat) (bytes : List Byte) (how : WriteEnd)
    (f : State → List Byte → State × Ans) : State :=
  let s := busTaken { s with tw := { s.tw with deaf := false } }
  let i := index % 65536
  let b := sub % 256
  match how with
  | .early => twResult s 3 0 i b
  | .stop =>
    if !lenOk len then twResult (nack s) 2 0 i b
    else match writeFate s head len bytes with
      | 0 =>
        let (s, x) := f s (bytes.take len)
        twResult s (if x.abort = 0 then 0 else 1) x.abort i b
      | 1 => twResult (pecError (nack s)) 2 0 i b
      | 2 => twResult (nack s) 2 0 i b
      | _ => twResult s 3 0 i b

/-- WRITE. -/
def execTwWrite (index sub : Nat) (len : Nat) (bytes : List Byte) (how : WriteEnd) (s : State) : Out :=
  if twUp s then .next (twSubmit s (twHead s 0x10 (leBytes 2 index ++ leBytes 1 sub) len) index sub len bytes how fun s data =>
    writeWhole s .twoWire (addrOf index sub) data { pagesOk := logPagesOk s })
  else .next s

/-- WRITE_SEG. -/
def execTwWriteSeg (index sub ofs : Nat) (len : Nat) (bytes : List Byte) (how : WriteEnd) (s : State) : Out :=
  if twUp s then
    .next (twSubmit s (twHead s 0x11 (leBytes 2 index ++ leBytes 1 sub ++ leBytes 2 ofs) len) index sub len bytes how fun s data =>
      writeSegment s .twoWire (addrOf index sub) (ofs % 65536) data)
  else .next s

/-- SCRATCH_WR (R627): every byte acknowledged is written. A debug freeze refuses it as a write of the port (R607). -/
def execTwScratchWr (ofs : Nat) (len : Nat) (bytes : List Byte) (how : WriteEnd) (s : State) : Out :=
  if !twUp s then .next s
  else
    let s := busTaken { s with tw := { s.tw with deaf := false } }
    if how = .early ∧ bytes = [] then .next (twResult s 3 0 0 0)
    else if !lenOk len then .next (twResult (nack s) 2 0 0 0)
    else if s.chip.freeze then .next (twResult (noteAns s .twoWire 0 0xA040) 1 0xA040 0 0)
    else
      let bs := bytes.take len
      let fit := bs.take (57344 - ofs % 65536)
      let s := noteAns (scratchPut s (ofs % 65536) fit) .twoWire 0 0
      if fit.length < bs.length then .next (twResult (nack s) 2 0 0 0)
      else if how = .early then .next (twResult s 3 0 0 0)
      else match writeFate s (twHead s 0x16 (leBytes 2 ofs) len) len bytes with
        | 0 => .next (twResult s 0 0 0 0)
        | 1 => .next (twResult (pecError (nack s)) 2 0 0 0)
        | 2 => .next (twResult (nack s) 2 0 0 0)
        | _ => .next (twResult s 3 0 0 0)

/-- A response after a repeated START, with the PEC over the whole transaction (R617, R623). -/
def twRespond (s : State) (sent : List Byte) (stat : Nat) (data : List Byte) : State :=
  let own := [BitVec.ofNat 8 (2 * twAddr s + 1), BitVec.ofNat 8 stat, BitVec.ofNat 8 data.length] ++ data
  let p := pec (BitVec.ofNat 8 (2 * twAddr s) :: sent ++ own)
  busTaken { s with tw := { s.tw with response := own.drop 1 ++ [p], deaf := false } }

/-- The byte that the device sends at a place of its response: 0xFF beyond the PEC (R624). -/
def twOut (s : State) (i : Nat) : Byte := s.tw.response.getD i 0xFF

/-- A read: STAT OK with its data, or ABORT with the code (R623). -/
def twReadBy (s : State) (sent : List Byte) (len : Nat) (f : State → State × Ans) : State :=
  if !lenOk len then nack (busTaken { s with tw := { s.tw with response := [] } })
  else
    let (s, x) := f s
    if x.abort = 0 then twRespond s sent 0 x.data else twRespond s sent 1 (leBytes 2 x.abort)

/-- A READ of an object longer than the limit aborts (R624, R648, R683). -/
def readLimited (s : State) (q : Requester) (a : Addr) (limit : Nat) : State × Ans :=
  let (t, x) := readWhole s q a
  if x.abort = 0 ∧ limit < x.data.length then (noteAns s q a 0xA021, ⟨0xA021, []⟩) else (t, x)

/-- READ. -/
def execTwRead (index sub : Nat) (len : Nat) (s : State) : Out :=
  if twUp s then
    .next (twReadBy s (0x20 :: leBytes 2 index ++ leBytes 1 sub ++ leBytes 1 len) len fun s => readLimited s .twoWire (addrOf index sub) len)
  else .next s

/-- READ_SEG. -/
def execTwReadSeg (index sub ofs : Nat) (len : Nat) (s : State) : Out :=
  if twUp s then
    .next (twReadBy s (0x21 :: leBytes 2 index ++ leBytes 1 sub ++ leBytes 2 ofs ++ leBytes 1 len) len fun s =>
      readSegment s .twoWire (addrOf index sub) (ofs % 65536) len)
  else .next s

/-- STATUS (R625). -/
def execTwStatus (s : State) : Out :=
  if twUp s then
    let t := s.tw
    .next (twRespond s [0x30] 0 (leBytes 1 t.result ++ leBytes 2 t.code ++ leBytes 2 t.idx ++ leBytes 1 t.sub ++ leBytes 1 t.tag))
  else .next s

/-- A START or STOP ends any transaction (R621); a write that it cuts short is the write command's own end. A STOP leaves the bus
free, a START does not (R628). -/
def execTwStartStop (stop : Bool) (s : State) : Out :=
  let s := { s with tw := { s.tw with deaf := false } }
  .next (if stop then busStopped s else busTaken s)

/-- SCL has been low for 25 ms in a transaction addressed to the device (R622). -/
def execTwSclTimeout (s : State) : Out :=
  if twUp s then
    let s := twDiag (s.bump O.TMO_CNT)
    let n := s.tw.tmoN + 1
    let s := busTaken { s with tw := { s.tw with deaf := true, response := [], tmoN := n } }
    if quietFor s.tw.tmoAt s.uptime 10000 then
      .next (record { s with tw := { s.tw with tmoAt := some s.uptime, tmoN := 0 } } 0x0902 .chip (leBytes 4 n))
    else .next s
  else .next s

/-- A stretch has lasted 50 µs (R626): BUSY for a read, whose PEC depends on bytes this command does not carry (a free value,
log entry 5); no acknowledge for a write behind one not yet applied. -/
def execTwStretchTimeout (read : Bool) (s : State) : Out :=
  if read then
    let (z, s) := s.draw
    .next (busTaken { s with tw := { s.tw with response := [2, 0, BitVec.ofNat 8 z] } })
  else .next (busTaken { s with tw := { s.tw with deaf := true } })

/-- A command byte that R618 does not list (R619). -/
def execTwCommandRefused (code : Byte) (s : State) : Out :=
  if twUp s && !([0x10, 0x11, 0x16, 0x20, 0x21, 0x30].contains code.toNat) then .next (nack (busTaken s)) else .next s

/-! ### Controller (R630 to R637) -/

/-- The bytes of an alert message (R635). -/
def alertBytes (s : State) (m : Nat × Nat × Nat) : List Byte :=
  let bs := [BitVec.ofNat 8 (2 * s.getN O.TW_HOST_ADDR), 0xA0, BitVec.ofNat 8 (2 * twAddr s)] ++ leBytes 2 m.1 ++ leBytes 1 m.2.1 ++
    leBytes 4 m.2.2
  bs ++ [pec bs]

/-- The message at the head of the queue has been sent; the transfer ends with a STOP (R633). -/
def alertDone (s : State) : State :=
  match s.tw.alerts with
  | [] => s
  | m :: rest =>
    busStopped { s.bump O.ALERT_SENT_CNT with tw := { s.tw with alerts := rest, sent := s.tw.sent ++ [alertBytes s m], failed := false, tries := 0 } }

/-- A transfer of the controller waits: a message, and a host address. -/
def ctrlWaits (s : State) : Bool := twUp s && !s.tw.alerts.isEmpty && s.getN O.TW_HOST_ADDR != 0

/-- The controller may start that transfer: the bus is free, and of a retry the delay drawn has passed since (R628, R632). -/
def ctrlReady (s : State) : Bool :=
  ctrlWaits s && match busFree s with
    | some u => !s.tw.failed || decide (u + s.tw.delay ≤ s.uptime)
    | none => false

/-- An attempt has failed: the delay of the next one is drawn, 0 to 255 µs (R632; a free value, log entry 5). -/
def attemptFailed (s : State) (tries : Nat) : State :=
  let (d, s) := s.draw
  busTaken { s with tw := { s.tw with failed := true, tries := tries, delay := d % 256 } }

/-- An alert message goes out on a free bus (R634, R635). -/
def execTwAlertSend (s : State) : Out := if ctrlReady s && !s.tw.failed then .next (alertDone s) else .next s

/-- Arbitration is lost in the first attempt (R631): the message waits for its retries. In the own address byte the device
answers as a target, by the target's commands (log entry 43). -/
def execTwArbLost (_ownAddressByte : Bool) (s : State) : Out :=
  if ctrlReady s then .next (attemptFailed s s.tw.tries) else .next s

/-- A retry (R632): the eighth without success drops the transfer, event 0x0904. With no failure before it, it is the first
attempt. -/
def execTwCtrlRetry (r : BusAttempt) (s : State) : Out :=
  if !ctrlReady s then .next s
  else match r with
    | .done => .next (alertDone s)
    | _ =>
      let n := if s.tw.failed then s.tw.tries + 1 else 0
      if n < 8 then .next (attemptFailed s n)
      else
        let s := s.bump (if r = .arbitrationLost then O.ARB_LOST_CNT else O.ALERT_DROP_CNT)
        .next (record (twDiag (busTaken { s with tw := { s.tw with alerts := s.tw.alerts.drop 1, failed := false, tries := 0 } })) 0x0904 .chip)

/-- Before a transfer: a low SDA is freed by pulses and a STOP, event 0x0905, or the bus is stuck, event 0x0903 (R630). A check that
frees the bus clears the stuck bit. -/
def execTwBusRecovery (r : BusRecovery) (s : State) : Out :=
  if ctrlWaits s ∨ (twUp s ∧ twinCfg s ∧ s.twin.linkUp = false) then
    match r with
    | .freed _ => .next (record (busStopped (s.setBitAt O.TW_PORT_STAT 0 false)) 0x0905 .chip)
    | .stuck => .next (record (twDiag (busTaken ((s.setBitAt O.TW_PORT_STAT 0 true).bump O.STUCK_CNT))) 0x0903 .chip)
  else .next s

end Sys2Proof.Machine
end

