-- ==== Sys2Proof/Machine/Can.lean ====
section
/-! DEFINITION. The CAN FD port: requests and responses, time, heartbeat, bus states (R641 to R658). -/

namespace Sys2Proof.Machine

/-- The port takes frames: CAN_EN is 1 and no bus-off. -/
def canTakes (s : State) : Bool := serves s && canUp s

/-- A frame is given to the bus (R652). -/
def canSend (s : State) (fn : Nat) (data : List Byte) : State :=
  if canUp s then { s with can := { s.can with tx := s.can.tx ++ [(fn, data)] } } else s

/-- An FD response (R647, R649). -/
def canRespond (s : State) (cmd : Nat) (tid : Byte) (index sub stat : Nat) (data : List Byte) : State :=
  canSend s 5 (padFd ([BitVec.ofNat 8 cmd, tid] ++ leBytes 2 index ++ leBytes 1 sub ++ leBytes 1 stat ++ leBytes 1 data.length ++ [0] ++ data))

/-- The response to a transaction's answer. -/
def canAnswer (r : State × Ans) (cmd : Nat) (tid : Byte) (index sub : Nat) : State :=
  if r.2.abort = 0 then canRespond r.1 cmd tid index sub 0 r.2.data else canRespond r.1 cmd tid index sub 1 (leBytes 2 r.2.abort)

/-- A transaction refused before the dictionary: abort 0xA021 (R648, R651). -/
def refuse (s : State) (a : Addr) : State × Ans := (noteAns s .can a 0xA021, ⟨0xA021, []⟩)

/-- WRITE. A LEN outside 1 to 56 is a length the object cannot have in this transfer. -/
def execCanWrite (tid : Byte) (index sub : Nat) (data : List Byte) (s : State) : Out :=
  if canTakes s then
    let a := addrOf index sub
    let r := if data.length = 0 ∨ 56 < data.length then refuse s a else writeWhole s .can a data { pagesOk := logPagesOk s }
    .next (canAnswer r 0x10 tid index sub)
  else .next s

/-- WRITE_SEG. -/
def execCanWriteSeg (tid : Byte) (index sub ofs : Nat) (data : List Byte) (s : State) : Out :=
  if canTakes s then
    let a := addrOf index sub
    let r := if data.length = 0 ∨ 56 < data.length then refuse s a else writeSegment s .can a (ofs % 65536) data
    .next (canAnswer r 0x11 tid index sub)
  else .next s

/-- READ: of an object up to LEN bytes. -/
def execCanRead (tid : Byte) (index sub len : Nat) (s : State) : Out :=
  if canTakes s then
    let a := addrOf index sub
    let r := if len = 0 ∨ 56 < len then refuse s a else readLimited s .can a len
    .next (canAnswer r 0x20 tid index sub)
  else .next s

/-- READ_SEG. -/
def execCanReadSeg (tid : Byte) (index sub ofs len : Nat) (s : State) : Out :=
  if canTakes s then
    let a := addrOf index sub
    let r := if len = 0 ∨ 56 < len then refuse s a else readSegment s .can a (ofs % 65536) len
    .next (canAnswer r 0x21 tid index sub)
  else .next s

/-- A compact response: a classical frame (R651). -/
def compactAnswer (r : State × Ans) (index sub : Nat) : State :=
  let (stat, data) : Nat × List Byte := if r.2.abort = 0 then (0, r.2.data) else (1, leBytes 2 r.2.abort)
  canSend r.1 5 (leBytes 1 stat ++ leBytes 2 index ++ leBytes 1 sub ++ data)

/-- Compact WRITE: up to 4 data bytes. -/
def execCanCompactWrite (index sub : Nat) (data : List Byte) (s : State) : Out :=
  if canTakes s then
    let a := addrOf index sub
    .next (compactAnswer (if 4 < data.length then refuse s a else writeWhole s .can a data { pagesOk := logPagesOk s }) index sub)
  else .next s

/-- Compact READ: an object of up to 4 bytes. -/
def execCanCompactRead (index sub : Nat) (s : State) : Out :=
  if canTakes s then .next (compactAnswer (readLimited s .can (addrOf index sub) 4) index sub) else .next s

/-- An error record of the port for ring 15 (R681). The manual gives no layout. -/
def canDiag (s : State) : State :=
  diag s [0x20, s.getN O.BOFF_CNT, s.getN O.REQ_BUSY_CNT, s.getN O.PUSH_DROP_CNT, s.getN O.DUP_CNT]

/-- A request that finds the queue full or waits 50 µs: BUSY (R650). -/
def execCanRequestBusy (compact : Bool) (cmd tid : Byte) (index sub : Nat) (s : State) : Out :=
  if canUp s then
    let s := canDiag (s.bump O.REQ_BUSY_CNT)
    let s := if compact then canSend s 5 (leBytes 1 2 ++ leBytes 2 index ++ leBytes 1 sub) else canRespond s cmd.toNat tid index sub 2 []
    if quietFor s.can.busyAt s.uptime 10000 then
      .next (record { s with can := { s.can with busyAt := some s.uptime } } 0x0915 .chip)
    else .next s
  else .next s

/-- A TIME frame (R655): 12 bytes in an FD frame, 8 in a classical one, the elapsed time added. -/
def execCanTime (node : Fin 128) (fd : Bool) (data : List Byte) (elapsed : Nat) (s : State) : Out :=
  if canTakes s && s.isOn O.CAN_TIME_EN && (node.val == 0 || node.val == s.getN O.CAN_NODE) && data.length == (if fd then 12 else 8) then
    .next (setWall s (ofLe (data.take 8) * 1000000 + (if fd then ofLe (data.drop 8) else 0) + elapsed))
  else .next s

/-- A frame with the device's own node ID and a function code that only it sends (R645). -/
def execCanDuplicateNode (s : State) : Out :=
  if canUp s then
    let s := canDiag ((s.setBitAt O.CAN_STAT 2 true).bump O.DUP_CNT)
    if quietFor s.can.dupAt s.uptime 10000 then .next (record { s with can := { s.can with dupAt := some s.uptime } } 0x0914 .chip)
    else .next s
  else .next s

/-- The heartbeat frame (R654): in freeze with the values of R607. -/
def heartbeatBytes (s : State) : List Byte :=
  let v (a : Addr) : Nat := (readVal s .can a { addr := a, ty := .u32, acc := .ro }).toNat
  let states := ((List.range 8).map fun k => v (O.LOOP_STATE k) * 8 ^ k).sum
  leBytes 1 (v O.TW_ROLE) ++ leBytes 1 (v O.START_STEP) ++ leBytes 3 states ++ leBytes 1 (v O.FB_STATE) ++ leBytes 1 (v O.CHIP_STAT) ++
    leBytes 1 s.can.seq

/-- CAN_HB_T has passed (R654). -/
def execCanHeartbeat (s : State) : Out :=
  if serves s && s.getN O.CAN_HB_T != 0 && s.isOn O.CAN_EN && quietFor s.can.hbAt s.uptime (s.getN O.CAN_HB_T * 1000) then
    let t := canSend s 14 (heartbeatBytes s)
    .next { t with can := { t.can with seq := (t.can.seq + 1) % 256, hbAt := some t.uptime } }
  else .next s

/-- Entry to error passive (R656; log entry 44). -/
def execCanErrorPassive (s : State) : Out :=
  if canUp s then .next (record (canDiag (s.setBitAt O.CAN_STAT 0 true)) 0x0911 .chip) else .next s

/-- Entry to bus-off (R652, R656). Frames already given to the bus stand as sent (log entry 44). -/
def execCanBusOff (s : State) : Out :=
  if canUp s then .next (record (canDiag ((s.setBitAt O.CAN_STAT 1 true).bump O.BOFF_CNT)) 0x0912 .chip) else .next s

/-- Recovery from bus-off (R656, R657): the port is error active again, and the waiting pushes are sent. -/
def execCanBusOffRecovery (s : State) : Out :=
  if s.getB O.CAN_STAT 1 then
    .next (canDrain (record ((s.setBitAt O.CAN_STAT 1 false).setBitAt O.CAN_STAT 0 false) 0x0913 .chip))
  else .next s

end Sys2Proof.Machine
end

