-- ==== Sys2Proof/Machine/Startup.lean ====
section
/-! DEFINITION. Power, recall, reset, the start-up sequence, the reference clock, region PLLs, the CK0 handshake and JTAG debug
freeze (R510 to R521, R538 to R540, R709 to R713, R35, R36, R312, R313, R690, R749). -/

namespace Sys2Proof.Machine

/-! ### What a reset keeps (R539, R488) -/

/-- Objects that AON-NV holds: the plate's and the recorder's own, and the thermal shutdown registers. -/
def aonHeld (a : Addr) : Bool :=
  (decide (O.STORE_STAT ≤ a) && decide (a ≤ O.PLATE_FLT)) || a == O.WALL_STAT ||
    (decide (O.LOG_STAT ≤ a) && decide (a ≤ O.LOG_NEXT_SEQ)) || (a / 256 == 0x5801 && decide (a % 256 ≤ 7))

/-- An object whose value lies in the plate (log entry 24). -/
def inPlate (a : Addr) : Bool := match rowOf a with | some r => r.plate | none => false

/-- A loop as a reset leaves it: the level of ENn is a pin's. -/
def resetLoop (l : Loop) : Loop := { ctl := { en := l.ctl.en } }

/-- RST_N low: MAIN and every region are reset; AON-NV, the plate, uptime and antifuse stay, and a store goes on (R539; log
entry 24). -/
def execRstNFall (s : State) : Out :=
  if s.chip.main then
    .next
      { uptime := s.uptime, wall := s.wall, blobs := s.blobs, inputs := s.inputs, seen := s.seen, free := s.free, plate := s.plate,
        dict := s.dict.filter fun e => inPlate e.1 || isEtched e.1 || aonHeld e.1 || e.1 == O.LOCK_STAT
        chip := { aon := s.chip.aon, main := false, released := s.chip.released, hkLock := false, ref := s.chip.ref, therm := s.chip.therm,
                  shutdowns := s.chip.shutdowns, coolAt := s.chip.coolAt, tripDue := s.chip.tripDue, slots := s.chip.slots, etchAt := s.chip.etchAt }
        loops := s.loops.map resetLoop, twin := { token := false, level := s.twin.token || s.twin.level }, pending := s.pending }
  else .next s

/-- VCTRL and VHOLD no longer support AON-NV: the shadow banks with their markers and antifuse remain (R745). -/
def execAonNvPowerDown (s : State) : Out :=
  if s.chip.aon then
    .next
      { inputs := s.inputs, free := s.free, dict := s.dict.filter fun e => isEtched e.1
        plate := { bank := s.plate.bank, marker := s.plate.marker, recalled := false }
        chip := { aon := false, main := false, released := false, hkLock := false, ref := s.chip.ref, slots := s.chip.slots }
        loops := s.loops.map resetLoop, twin := { token := false }, pending := s.pending }
  else .next s

/-- VCTRL rises through the power-on threshold: AON-NV is up, LT_VCTRL_UP counts it, recall runs (R511, R779). -/
def execAonPowerUp (s : State) : Out :=
  if s.chip.aon then .next s
  else .next ({ s with chip := { s.chip with aon := true }, plate := { s.plate with recalled := false } }.bump O.LT_VCTRL_UP)

/-! ### Recall (R598, R709 to R713) -/

/-- The bank that recall loads (R709). -/
def recallBank (p : Plate) (bad0 bad1 : List (Fin 4096)) : Option (Fin 2) :=
  let bad (b : Fin 2) := if b = 0 then !bad0.isEmpty else !bad1.isEmpty
  match newestBank p with
  | none => none
  | some b =>
    let o : Fin 2 := if b = 0 then 1 else 0
    some (if bad b && markerOk p.marker[o] && !bad o then o else b)

/-- The bit of PLATE_FLT for a page, by its area (R694); a page of the margin area has none. -/
def areaBit (p : Nat) : Nat :=
  if p < 0x300 then 1 else if p < 0xB00 then 2 else if p < 0xB10 then 4 else if p < 0xB20 then 0 else if p < 0xC00 then 8 else 16

/-- The area bits of a list of pages (log entry 26). -/
def areaBits (ps : List Nat) : Nat := ps.foldl (fun m p => Nat.lor m (areaBit p)) 0

/-- The SRAM takes an image: persisted objects, log, scratch and margin area; an object in a faulted page of the vendor area
comes from the factory copy (R709, R711, R712; log entry 26). -/
def loadImage (s : State) (i : Image) (bad : List Nat) : State :=
  let ups := s.getN O.LT_VCTRL_UP
  let vendor (a : Addr) := decide (0xC00 ≤ pageAt a) && bad.contains (pageAt a)
  let kept := s.dict.filter fun e => isEtched e.1
  let dict := (i.dict.filter fun e => storedA e.1 && !vendor e.1).foldl (fun d e => dput d e.1 e.2) kept
  let s := { s with dict := dict, blobs := i.blobs.filter (fun e => !vendor e.1), wall := i.wall,
                    plate := { s.plate with log := i.log, scratch := i.scratch, margin := i.margin, store := none,
                                            dirty0 := [], dirty1 := [], all0 := true, all1 := true } }
  s.bumpBy O.LT_VCTRL_UP ups

/-- What the recorder derives from the log that recall loaded: its bytes, first SEQ, and whether a LOG-FULL record ends it
(log entry 28). -/
def logDerive (s : State) : State :=
  let l := s.plate.log
  let s := (s.setN O.LOG_USED (logUsed l)).setN O.LOG_FIRST_SEQ (match l.head? with | some r => r.seq | none => 0)
  let s := s.setN O.LOG_NEXT_SEQ s.plate.nextSeq
  s.setN O.LOG_STAT (match l.getLast? with | some r => b2n (r.code == 0x0809) | none => 0)

/-- Uptime and the event sequence resume (R713): the answer says whether they skip. -/
def resumeAt (s : State) (m : Marker) (skip : Bool) : State :=
  { s with uptime := (m.uptime + if skip then 1000000 else 0) % 2 ^ 64
           plate := { s.plate with nextSeq := (m.nextEvt + if skip then 65536 else 0) % 2 ^ 32 } }

/-- The banks whose marker reads STARTED, with its SEQ (R710). -/
def interrupted (p : Plate) : List (Nat × Nat) :=
  [(0, p.marker[0]), (1, p.marker[1])].filterMap fun e => if e.2.state = 0xA7 then some (e.1, e.2.seq) else none

/-- An interrupted store is shown (R710; log entry 29). -/
def noteInterrupted (s : State) : State :=
  (interrupted s.plate).foldl (fun s e =>
    record ((s.setBitAt O.PLATE_FLT 6 true).bump O.LT_STORE_INT) 0x0804 .chip (leBytes 4 e.2)) s

/-- An etched object at recall: a newest slot whose check bits fail counts as consumed, and the value of the slot before it,
or the default, is in force (R598). -/
def recallEtched (s : State) (badBurn : List Addr) : State :=
  s.chip.slots.foldl (fun s e =>
    let bad := badBurn.contains e.1 && (e.2.head?.getD none).isSome
    let l := if bad then none :: e.2.drop 1 else e.2
    let s := { s with chip := { s.chip with slots := insertAt s.chip.slots e.1 l } }
    let s := s.set e.1 ((l.filterMap id).head?.getD (dflt e.1))
    if bad then record s 0x0706 .chip (leBytes 4 e.1) else s) s

/-- The pages of the bank in use that stay faulted, and what they mean (R712, R728; log entry 26). -/
def notePages (s : State) (bad : List Nat) : State :=
  let s := { s with plate := { s.plate with bad := bad.filter fun p => decide (p < 0xC00) } }
  let s := (s.setN O.PLATE_FLT (Nat.lor (s.getN O.PLATE_FLT) (areaBits bad))).bumpBy O.ECC_UE_CNT bad.length
  match bad.find? fun p => decide (0x300 ≤ p) && decide (p < 0xB00) with
  | some p => recorderFault s (p * 256)
  | none => s

/-- Plate recall ends (R709 to R713; log entries 25 and 29). -/
def execPlateRecall (bad0 bad1 : List (Fin 4096)) (badBurn : List Addr) (s : State) : Out :=
  if s.chip.aon = false ∨ s.plate.recalled then .next s
  else
    let s := (s.setN O.PLATE_FLT 0).setN O.WALL_STAT 0
    let done (s : State) : State := { s with plate := { s.plate with recalled := true } }
    let pages (b : Fin 2) := (if b = 0 then bad0 else bad1).map Fin.val
    match recallBank s.plate bad0 bad1 with
    | none =>
      let s := { loadImage s {} [] with uptime := 0, wall := 0 }
      let s := logDerive { s with plate := { s.plate with nextSeq := 0, bad := [], badOther := [] } }
      let s := record (s.setBitAt O.PLATE_FLT 5 true) 0x0802 .chip
      .next (done (recallEtched (noteInterrupted s) badBurn))
    | some b =>
      let o : Fin 2 := if b = 0 then 1 else 0
      let m := s.plate.marker[b]
      let skip := m.trigger == 1 || !(interrupted s.plate).isEmpty
      let s := logDerive (resumeAt (loadImage s s.plate.bank[b] (pages b)) m skip)
      let s := (s.setN O.BANK_NOW b.val).setN O.BANK_SEQ m.seq
      let s := { s with plate := { s.plate with badOther := pages o } }
      let s := record s 0x0801 .chip (leBytes 1 b.val ++ leBytes 4 m.seq ++ leBytes 1 m.trigger)
      let s := noteInterrupted (notePages s (pages b))
      let s := if skip then record s 0x0806 .chip else s
      .next (done (recallEtched s badBurn))

/-! ### Release (R512 to R518) -/

/-- START_T reads 0 for a step not completed since t0 (R516; log entry 23). -/
def clearSteps (s : State) : State := (List.range 9).foldl (fun s i => s.setN (O.START_T i) 0) (s.setN O.START_STEP 0)

/-- The recalled topology is checked at t0 (R102): rejected, or APPLYING with its regions to be switched on. -/
def startTopo (s : State) : State :=
  let t := activeTopo s
  let bad := topoBad s t t [3, 4, 5, 6, 7, 8, 9, 10]
  let s := eachLoop s fun s k => s.modLoop k fun l => { l with ctl := { l.ctl with affected := !(blocksOf s k).isEmpty } }
  let s := { s with chip := { s.chip with switchAt := none, failed := false, bus := t.schedule } }
  if bad.isEmpty then
    let s := { s.setN O.TOPO_STATUS 1 with chip := { s.chip with rising := regionsToRise s, applying := some .recall } }
    eachLoop s fun s k => if (blocksOf s k).isEmpty then s else s.setN (O.BUR_STATE k) 1
  else record { topoReject s bad with chip := { s.chip with rising := [], applying := none } } 0x0103 .chip

/-- What the controller derives from the recalled dictionary: banks, tables, rates, period counts, LL_R_NOW and the retries left
(R172, R212, R229, R285, R361, R382). The edges of SPINn are timed from now on (R401). -/
def startUnits (s : State) : State :=
  let s := deriveSettings (loopRates (tabUseAll (eachLoop s rebuildBanks)))
  let s := { s with fb := { s.fb with retryLeft := s.getN O.FB_RETRY_N } }
  eachLoop s fun s k => (s.set (O.RETRY_LEFT k) (s.get (O.RETRY_N k))).modLoop k fun l => { l with sp := { l.sp with edgeAt := s.uptime } }

/-- The FB period counter starts, in the present FB sample, at a moment that the spec leaves open (R284, R313; log entry 97). -/
def startFbCounter (s : State) : State :=
  let (d, s) := s.draw
  { s with fb := { s.fb with zero := 200 * s.fb.n + d % 200 } }

/-- The ports at t0: the node ID is fixed where CAN_EN is 1 (R644); the host address that equals the sampled one (R636). -/
def startPorts (s : State) : State :=
  let s := busTaken s
  let s := if s.isOn O.CAN_EN then { s.setN O.CAN_NODE (canNodeNow s) with can := { s.can with on := true } } else s
  if s.getN O.TW_HOST_ADDR = 0x40 + s.chip.addr then record { s with tw := { s.tw with clash := true } } 0x0907 .chip else s

/-- The effective release t0 (R512): step 1 of start-up. -/
def execResetRelease (early : Bool) (addr : Fin 16) (nid : Fin 8) (slope : Fin 4) (s : State) : Out :=
  if s.chip.aon = false ∨ s.plate.recalled = false ∨ s.chip.main then .next s
  else
    let s := if early then record s 0x0102 .chip else s
    let s := if s.chip.released then s.bump O.LT_RST_CNT else s
    let pref := s.getN O.TW_PREF
    let s := { s with chip := { s.chip with main := true, released := true, hkLock := false, addr := addr.val, nid := nid.val,
                                            slope := slope.val, pref := pref, canNid := s.getN O.CAN_NID }
                      twin := { s.twin with token := pref == 0 }, fb := { s.fb with pll := s.chip.ref } }
    let s := stepDone (clearSteps (s.setN O.LOCK_STAT 0)) 1
    let s := if s.chip.tripDue then shutdownEvent s else s
    .next (startPorts (startFbCounter (startUnits (startTopo (topoDiscard s)))))

/-! ### Steps 2 to 4 (R515, R517, R98, R101) -/

/-- Steps 3 and 4 are complete where every region is (R515; log entry 22). -/
def startRegions (s : State) : State :=
  if s.getN O.START_STEP < 9 ∧ 2 ≤ s.getN O.START_STEP then
    let s := if s.chip.rising.isEmpty ∧ s.getN (O.START_T (2 : Nat)) = 0 then stepDone s 3 else s
    if regionsSettled s ∧ s.getN (O.START_T (3 : Nat)) = 0 then stepDone s 4 else s
  else s

/-- The housekeeping PLL has lock: step 2; the dictionary answers (log entry 22). -/
def execHkPllLock (s : State) : Out :=
  if s.chip.main ∧ s.chip.ref then
    let s := { s with chip := { s.chip with hkLock := true } }
    .next (if s.getN O.START_STEP < 2 then startRegions (stepDone s 2) else s)
  else .next s

/-- The next region is switched on, 40 µs or more after the one before it of the same start-up or commit (R52, R53, R98 step 3). -/
def execRegionSwitchOn (s : State) : Out :=
  match s.chip.rising with
  | [] => .next s
  | r :: rest =>
    if s.chip.main && s.chip.hkLock && quietFor s.chip.switchAt s.uptime 40 then
      let s := { s with chip := { s.chip with rising := rest, switchAt := some s.uptime } }
      .next (startRegions (regionRoles (s.setN (O.RG_STATE r) 1) (regionOf r)))
    else .next s

/-- Every stored bank of the loops that a region masters is checked again as the region powers up (R172). A bank that is INVALID
already stays so and records nothing: the rule does not say whether it records again (log entry 99). -/
def recheckBanks (s : State) (r : RegionId) : State :=
  eachLoop s fun s k =>
    if masterOf s k = r.val ∧ !(blocksOf s k).isEmpty then
      (List.range 4).foldl (fun s m =>
        if bankState s k m ≠ 3 ∧ !(bankImage s k m).isEmpty ∧ !bankCrcOk (bankImage s k m) then
          recordLoop (setBankState s k m 3) 0x040A k (leBytes 1 m)
        else s) s
    else s

/-- The tables of a region's loops and blocks are copied into it (R54, R212). -/
def regionTables (s : State) (r : RegionId) : State :=
  let s := eachLoop s fun s k => if (regionsOf s k).contains r.val && isOff s k then tabExchange (tabExchange s (.rip k)) (.tim k) else s
  [3 * r.val, 3 * r.val + 1, 3 * r.val + 2].foldl (fun s b => tabExchange s (.lsat (blockOf b))) s

/-- The period counters of the loops that a region holds start, and their cells take their slot positions (R87, R284). -/
def regionCounters (s : State) (r : RegionId) : State :=
  (heldBy s r).foldl (fun s k => spaceLoop (startCounter s (loopOf k) r) (loopOf k)) s

/-- The window ADCs of the loops that a region masters have completed their zero calibration, lowest loop number first (R126). -/
def windowZeros (s : State) (r : RegionId) (zs : List (Rat × Rat)) : State :=
  let mast := (heldBy s r).filter fun k => masterOf s (loopOf k) == r.val
  (mast.zip zs).foldl (fun s e => s.modLoop (loopOf e.1) fun l => { l with sn := { l.sn with zero := e.2.1, zeroLocal := e.2.2 } }) s

/-- A region is ready: PLL locked, strobe lanes measured, self-test passed, zero calibrations complete (R84, R126, R127). Its
counters run, and its engine has given its loops no slots yet. -/
def regionUp (s : State) (r : RegionId) (lanes : Nat) (zeros : List Rat) (winZeros : List (Rat × Rat)) : State :=
  let s := recheckBanks (regionTables s r) r
  let s := ((s.setN (O.RG_STATE r) 2).setN (O.RG_FLAGS r) 1).modRegion r fun g => { g with lanes := lanes, slot := none }
  let s := windowZeros (regionCounters s r) r winZeros
  (List.range 12).foldl (fun s i => s.modCell (cellOf (12 * r.val + i)) fun c => { c with zero := zeros.getD i c.zero, zeroDone := true }) s

/-- A region has failed self-test or not locked its PLL (R101, R517, R519): its loops are not burnished (log entry 34). -/
def regionFails (s : State) (r : RegionId) (pll selfTest : Bool) : State :=
  let s := (s.setN (O.RG_STATE r) 3).setN (O.RG_FLAGS r) (b2n pll + 4 * b2n (!selfTest))
  let s := record ({ s with chip := { s.chip with failed := true } }.setBitAt O.REGION_AVAIL r false) 0x0105 (.region r)
  eachLoop s fun s k => if (regionsOf s k).contains r.val ∧ s.getN (O.BUR_STATE k) = 1 then s.setN (O.BUR_STATE k) 0 else s

/-- A region that was switched on is ready, or has failed: step 4 of start-up, or of a commit (R98, R101, R515). -/
def execRegionReady (r : RegionId) (pll selfTest : Bool) (lanes : Nat) (zeros : List Rat) (winZeros : List (Rat × Rat)) (s : State) : Out :=
  if s.getN (O.RG_STATE r) = 1 then
    let s := startRegions (if pll && selfTest then regionUp s r lanes zeros winZeros else regionFails s r pll selfTest)
    .next (if s.chip.applying = some .commit then rearmAll (topoSettle s) else s)
  else .next s

/-! ### Step 9 (R515, R518, R519, R437, R589) -/

/-- A loop's burnish is still to come or under way. -/
def burnishOpen (s : State) (k : LoopId) : Bool :=
  let b := s.getN (O.BUR_STATE k)
  b == 1 || b == 2 || (b == 6 && !s.loops[k].bur.byCmd)

/-- Steps 1 to 8 are complete. -/
def startDone (s : State) : Bool :=
  decide (5 ≤ s.getN O.START_STEP) && decide (s.getN O.START_STEP < 9) && regionsSettled s && fbState s != 2 &&
    (List.finRange 8).all fun k => !burnishOpen s k

/-- TOPO_STATUS at step 9, for the recalled topology; after a failure only the loops that span a failed region count as affected
(R518, R519). After a rejected recall, a commit has its own end (R102). -/
def startStatus (s : State) : State :=
  if s.chip.applying = some .recall then
    if s.chip.failed then
      eachLoop (topoFailed s) fun s k => s.modLoop k fun l =>
        { l with ctl := { l.ctl with affected := (regionsOf s k).any fun r => s.getN (O.RG_STATE r) == 3 } }
    else topoApplied s
  else s

/-- START_REQ sets LOOP_REQ as LOOP_CMD ON does (R542; log entry 74). -/
def startLoops (s : State) : State :=
  eachLoop s fun s k => if s.isOn (O.START_REQ k) ∧ s.getN (O.ON_SRC k) ≠ 1 ∧ passive s = false then s.setN (O.LOOP_REQ k) 1 else s

/-- Step 9: start-up is complete. -/
def execStartupComplete (s : State) : Out :=
  if startDone s then
    let s := stepDone (stepDone (stepDone (stepDone s 6) 7) 8) 9
    let s := record (startStatus s) 0x0101 .chip
    let s := startLoops (s.setN O.LOCK_STAT (Nat.lor (s.getN O.LOCK_STAT) (s.getN O.LOCK_BOOT)))
    let s := [(0 : PortId), 1].foldl (fun s p => if mayTrain s p then linkReset s p else s) s
    .next (rearmAll s)
  else .next s

/-! ### PLLs and the reference (R35, R312, R313, R749) -/

/-- A region's PLL loses lock (R35): its cells go to mid-level; loops outside OFF trip; where there is none the event is
recorded by itself (log entry 35). -/
def pllLoss (s : State) (r : RegionId) : State :=
  if regionReady s r ∧ pllLocked s r then
    let s := (s.setBitAt (O.RG_FLAGS r) 0 false).setBitAt (O.RG_FLAGS r) 3 false
    let s := (List.range 12).foldl (fun s i => stopCell s (cellOf (12 * r.val + i))) s
    let s := eachLoop s fun s k => modTrack s k r fun t => { t with lock := false, good := 0 }
    let hit := (List.finRange 8).filter fun k => (regionsOf s k).contains r.val && !isOff s k
    if hit.isEmpty then record s 0x0420 (.region r)
    else hit.foldl (fun s k => controlTrip s k 11 (some 0x0420) (.region r)) s
  else s

/-- A region PLL loses lock. -/
def execRegionPllLockLoss (r : RegionId) (s : State) : Out := .next (pllLoss s r)

/-- A region PLL has lock again: its strobe lanes are measured, followers align again (R312). -/
def execRegionPllRelock (r : RegionId) (lanes : Nat) (s : State) : Out :=
  if regionReady s r ∧ pllLocked s r = false ∧ s.chip.ref then
    let s := (s.setBitAt (O.RG_FLAGS r) 0 true).modRegion r fun g => { g with lanes := lanes, slot := none }
    let s := (heldBy s r).foldl (fun s k => startCounter s (loopOf k) r) s
    .next (eachLoop s fun s k => modTrack s k r fun t => { t with missing := 0, outSeq := 0, far := 0, num := none })
  else .next s

/-- The CK9 PLL loses lock (R313). -/
def ck9Loss (s : State) : State := if s.fb.pll then fbControl { s with fb := { s.fb with pll := false } } 0x0451 else s

/-- The CK9 PLL loses lock: every front-stage output goes to priority 5. -/
def execCk9PllLockLoss (s : State) : Out := .next (ck9Loss s)

/-- The CK9 PLL has lock again (R313, R782). -/
def execCk9PllRelock (s : State) : Out :=
  .next (if s.chip.ref && !s.fb.pll then startFbCounter { s with fb := { s.fb with pll := true } } else s)

/-- The reference is lost: the region PLLs and that of CK9 lose lock (R749); the twin link's loss follows by R560 (log entry
35). -/
def execRefClockLoss (s : State) : Out :=
  if s.chip.ref then .next (ck9Loss (eachRegion { s with chip := { s.chip with ref := false } } pllLoss)) else .next s

/-- The reference is back (R749). -/
def execRefClockRestore (s : State) : Out := .next { s with chip := { s.chip with ref := true } }

/-! ### The CK0 handshake (R35, R36) -/

/-- The writes that waited for a region's handshake take effect in their order (R311; log entry 76). -/
def landWrites (s : State) (ws : List (Requester × Nat × Int)) : State :=
  ws.foldl (fun s e => match rowOf e.2.1 with
    | some r => (applyWrite s e.1 e.2.1 r e.2.2 {}).1
    | none => s) s

/-- A region has had no CK0 handshake for 100 µs (R35): what the dictionary holds of its status stays as it is (R47; log entry
76). -/
def execCk0HandshakeLoss (r : RegionId) (s : State) : Out :=
  if s.getN (O.RG_STATE r) ≠ 0 ∧ s.regions[r].cut = false then
    let s := s.setBitAt (O.RG_FLAGS r) 1 true
    .next (s.modRegion r fun g => { g with cut := true, stale := staleImage s r })
  else .next s

/-- The handshake returns: held messages in order, then one overflow summary for each cause counted; event 0x0422 with the
time without handshake; then the writes that waited (R36, R311; log entries 36 and 76). -/
def execCk0HandshakeReturn (r : RegionId) (absent : Nat) (s : State) : Out :=
  if s.regions[r].cut then
    let g := s.regions[r]
    let s := (s.setBitAt (O.RG_FLAGS r) 1 false).modRegion r fun g =>
      { g with cut := false, held := [], lost := [], writes := [], stale := [] }
    let s := { s with tree := { s.tree with flight := s.tree.flight ++ g.held ++ g.lost } }
    .next (landWrites (record s 0x0422 (.region r) (leBytes 4 (min absent 0xFFFFFFFF))) g.writes)
  else .next s

/-! ### Regions that a commit leaves without a loop (R98, R54) -/

/-- A region goes off: its status, its trace and what it kept are gone; settings written to it meanwhile stand in the dictionary
(R54, R55). -/
def regionOff (s : State) (r : RegionId) : State :=
  let ws := s.regions[r].writes
  landWrites (((regionBlank s r).modTrace r fun _ => {}).modRegion r fun _ => {}) ws

/-- Steps 2 and 3 of R98: regions left holding no loop go off, and the share-bus schedule is computed afresh (R43); where no region
is to be switched on, the commit is applied. -/
def execTopoRegionOff (s : State) : Out :=
  if s.chip.applying = some .commit then
    let s := eachRegion s fun s r => if (heldBy s r).isEmpty && s.getN (O.RG_STATE r) != 0 then regionOff s r else s
    let s := { s with chip := { s.chip with bus := (activeTopo s).schedule } }
    .next (rearmAll (topoSettle s))
  else .next s

/-! ### JTAG debug freeze (R607, R690) -/

/-- Freeze begins: RO objects keep their values. -/
def execJtagFreezeBegin (s : State) : Out :=
  if s.chip.main ∧ s.chip.freeze = false then .next { s with chip := { s.chip with freeze := true, frozen := freezeImage s } } else .next s

/-- The records a ring held during freeze are written in order, under its policy (log entry 37). -/
def replayHeld (s : State) (r : RingId) : State :=
  s.rings[r].held.foldl (fun s i => offerAsk s r i) (s.modRing r fun g => { g with held := [] })

/-- A telemetry ring's first record after freeze is a gap marker with the intervals that fell in it (R690; log entry 37). -/
def thawGap (s : State) (r : RingId) : State :=
  if ringEn s r ∧ 0 < s.rings[r].gap ∧ 8 ≤ ringFree s r then ringGap s r else s

/-- Freeze ends: events, alerts, journal and diagnostics go on in order; the telemetry rings, the trace unload, the CAN FD
pushes and the twin requester's writes go on. -/
def execJtagFreezeEnd (s : State) : Out :=
  if s.chip.freeze then
    let s := { s with chip := { s.chip with freeze := false, frozen := [] } }
    let s := [(4 : RingId), 5, 6, 7, 8, 9, 10, 11, 13].foldl thawGap s
    let s := copyHeld (replayHeld (replayHeld (replayHeld s 2) 3) 15)
    .next (applyJournal (canDrain (unloadPump s)))
  else .next s

end Sys2Proof.Machine
end

