-- ==== Sys2Proof/Machine/StreamPort.lean ====
section
/-! DEFINITION. The stream port: frames, register window, bit alias, stream and trace memory, and the dictionary requests of
rings 0 and 1 (R659 to R677, R683, R684). -/

namespace Sys2Proof.Machine

/-! ### Addresses (R665, R666, R675) -/

/-- What a word of the 32-bit address space is. -/
inductive SpWord where
  /-- low word, or high word, of an object of the dictionary -/
  | win (a : Addr) (high : Bool)
  /-- one bit of such a word -/
  | bitOf (a : Addr) (high : Bool) (b : Nat)
  /-- stream memory, by offset -/
  | mem (ofs : Nat)
  /-- trace memory, by region and word -/
  | trace (r : RegionId) (w : Nat)
  /-- refused by the port -/
  | bad (code : Nat)
  deriving DecidableEq, Repr

/-- The object at an offset of one half of the window. Subindex 0xFE lies three indices further on, where no object has
subindex 0x3E (R666). -/
def winObj (ofs : Nat) : Addr :=
  let i := ofs / 256
  let b := ofs % 256 / 4
  if b = 0x3E ∧ 3 ≤ i then (match resolve (addrOf (i - 3) 0xFE) with | .slots _ => addrOf (i - 3) 0xFE | _ => addrOf i b) else addrOf i b

/-- Bytes of a region's trace memory (R6, R676). -/
def traceBytes : Nat := if Config.isL then 0x20000 else 0x80000

/-- A window address: half and object. -/
def winAt (addr : Nat) : Addr × Bool :=
  if addr < 0x1800000 then (winObj (addr - 0x1000000), false) else (winObj (addr - 0x1800000), true)

/-- What an address names (R665). -/
def spAt (addr : Nat) : SpWord :=
  if addr % 4 ≠ 0 then .bad 0xA022
  else if 0x1000000 ≤ addr ∧ addr < 0x2000000 then .win (winAt addr).1 (winAt addr).2
  else if 0x20000000 ≤ addr ∧ addr < 0x20080000 then .mem (addr - 0x20000000)
  else if 0x30000000 ≤ addr ∧ addr < 0x30400000 then
    let o := addr - 0x30000000
    if o / traceBytes < 8 then .trace (regionOf (o / traceBytes)) (o % traceBytes / 4) else .bad 0xA001
  else if 0x40000000 ≤ addr ∧ addr < 0x60000000 then
    let x := addr - 0x40000000
    let w := winAt (0x1000000 + x / 128 * 4)
    .bitOf w.1 w.2 (x % 128 / 4)
  else .bad 0xA001

/-- An address in the window or in the alias region (R660, R668). -/
def inWindowRegion (addr : Nat) : Bool :=
  (decide (0x1000000 ≤ addr) && decide (addr < 0x2000000)) || (decide (0x40000000 ≤ addr) && decide (addr < 0x60000000))

/-- The abort of the port for a window word: no object, no high word, or an object outside the window (R666, R668). -/
def winAbort (a : Addr) (high : Bool) : Nat :=
  match resolve a with
  | .bad c => c
  | .slots _ => if high then 0xA002 else 0
  | .home _ => if high then 0xA002 else 0
  | .obj _ r => if r.ty.bytes = 0 then 0xA021 else if high && r.ty != .u64 then 0xA002 else 0

/-! ### Reads (R666 to R669, R674 to R677) -/

/-- A value's low word in the window (R667): S16 sign-extended, every other narrow type zero-extended. -/
def winWord (t : Ty) (bs : List Byte) : Nat := if t = .s16 then twos 32 (signOf 16 (ofLe bs)) else ofLe (bs.take 4)

/-- A window read as one transaction: state, abort, word. -/
def winRead (s : State) (a : Addr) (high : Bool) : State × Nat × Nat :=
  let c := winAbort a high
  if c ≠ 0 then (s, c, 0)
  else
    let t := match resolve a with | .obj _ r => r.ty | .slots _ => .u8 | _ => .u32
    let (u, x) := readWhole s .stream a
    let u := if high ∧ a = O.WALL_S then noteAns s .stream a x.abort else u
    (u, x.abort, if x.abort ≠ 0 then 0 else if high then ofLe (x.data.drop 4) else winWord t x.data)

/-- One word of a read. -/
def readWord (s : State) (addr : Nat) : State × Nat × Nat :=
  match spAt addr with
  | .bad c => (s, c, 0)
  | .win a h => winRead s a h
  | .bitOf a h b => let (s, c, w) := winRead s a h; (s, c, b2n (bit w b))
  | .mem o => (s, 0, ofLe (getBytes s.sp.mem o 4))
  | .trace r w => if s.getN (O.RG_STATE r) = 0 then (s, 0xA030, 0) else (s, 0, (lookupAt s.traces[r].mem w).getD 0)

/-- The words of a read in ascending order: first refusal, words. -/
def readWords (s : State) (addr : Nat) : Nat → State × Nat × List Nat
  | 0 => (s, 0, [])
  | n + 1 =>
    let (s, c, w) := readWord s addr
    let (s, c', ws) := readWords s (addr + 4) n
    (s, if c = 0 then c' else c, w :: ws)

/-- The CRC-16 of the port (R661). -/
def spCrc (bs : List Byte) : Nat := crcBytes 16 0x1021 0xFFFF bs

/-- Bytes most significant first (R660; log entry 45). -/
def beBytes (n v : Nat) : List Byte := (leBytes n v).reverse

/-- The device's phases: data, status byte, status word, device CRC over the frame (R660, R661, R663). The CRC and the
status word go least significant byte first, as R577 has every multi-byte value (log entry 45). -/
def trailer (s : State) (host data : List Byte) (acc crc frame : Bool) (abort : Nat) : State :=
  let st := b2n acc + 2 * b2n crc + 4 * b2n frame + 16 * b2n s.sp.pwerr + 32 * b2n (sintLow s) + 64 * b2n s.chip.freeze
  let own := data ++ leBytes 1 st ++ leBytes 2 abort
  { s with sp := { s.sp with response := own ++ leBytes 2 (spCrc (host ++ own)) } }

/-- Command, address and count of a frame. -/
def frameHead (code addr count : Nat) : List Byte := leBytes 1 code ++ beBytes 4 addr ++ beBytes 2 count

/-- A frame with FRAMEERR: trailer only, counted (R663, R692). -/
def frameError (s : State) (head : List Byte) : State := trailer (s.bump O.SP_ERR_CNT) head [] false false true 0

/-- How a frame ends that takes the port from s to t (R664): one cut before its trailer has been sent applies nothing, and counts
nothing (log entry 101); clocks after the trailer read 0xFF. -/
def frameEnds (fin : FrameEnd) (s t : State) : State :=
  match fin with
  | .whole => t
  | .cut n => { s with free := t.free, sp := { s.sp with response := t.sp.response.take (min n (t.sp.response.length - 1)) } }
  | .over n => { t with sp := { t.sp with response := t.sp.response ++ List.replicate n 0xFF } }

/-- What a READ frame does. -/
def readFrame (s : State) (a count : Nat) : State :=
  let head := frameHead 0x0B a count
  if count = 0 ∨ 65535 < count ∨ (inWindowRegion a ∧ 16 < count) then frameError s head
  else
    let t := s.sp
    let (s, c, ws) := readWords s a count
    let s := trailer { s with sp := { s.sp with pwerr := t.pwerr } } head (ws.flatMap (leBytes 4)) (c != 0) false false c
    { s with sp := { s.sp with pwerr := t.pwerr && !((List.range count).any fun i => a + 4 * i == 0x1000000 + O.SP_WSTAT / 256 * 256 + O.SP_WSTAT % 256 * 4) } }

/-- READ. -/
def execSpRead (addr : BitVec 32) (count : Nat) (fin : FrameEnd) (s : State) : Out :=
  if !serves s then .next s else .next (frameEnds fin s (readFrame s addr.toNat count))

/-- A byte-enable pattern of R669. -/
def lanesOk (e : Nat) : Bool := [1, 2, 4, 8, 3, 12].contains e

/-- The enabled lanes of a word, zero elsewhere. -/
def lanesOf (e w : Nat) : Nat := ((List.range 4).map fun i => if bit e i then bits w (8 * i) 8 * 2 ^ (8 * i) else 0).sum

/-- What a READ_NARROW frame does: one word, the enabled lanes. -/
def readNarrowFrame (s : State) (a e : Nat) : State :=
  let head := frameHead 0x1B a e
  if !lanesOk e then trailer s head [0, 0, 0, 0] true false false 0xA022
  else
    let (s, c, w) := readWord s a
    trailer s head (leBytes 4 (lanesOf e w)) (c != 0) false false c

/-- READ_NARROW. -/
def execSpReadNarrow (addr : BitVec 32) (enables : BitVec 16) (fin : FrameEnd) (s : State) : Out :=
  if !serves s then .next s else .next (frameEnds fin s (readNarrowFrame s addr.toNat enables.toNat))

/-- A read of SP_WSTAT through the window (R692). -/
def execSpWstatRead (s : State) : Out := execSpRead (BitVec.ofNat 32 (0x1000000 + O.SP_WSTAT / 256 * 256 + O.SP_WSTAT % 256 * 4)) 1 .whole s

/-! ### Writes (R662, R667 to R672, R675, R677) -/

/-- The port's own refusal of a word of a write (R668), 0 for none (log entry 46). -/
def portRefusal (s : State) (addr : Nat) (narrow : Bool) : Nat :=
  match spAt addr with
  | .bad c => c
  | .trace r _ => if s.getN (O.RG_STATE r) = 0 then 0xA030 else 0xA010
  | .mem o =>
    if ringEn s 0 && decide (ringBase s 0 ≤ o) && decide (o < ringBase s 0 + ringSize s 0) then 0 else 0xA010
  | .win a h =>
    if winAbort a h ≠ 0 then winAbort a h
    else match resolve a with
      | .obj _ r => if narrow && (r.w1c || r.acc == .wo || r.acc == .rwe) then 0xA021 else 0
      | _ => 0
  | .bitOf a h _ =>
    if winAbort a h ≠ 0 then winAbort a h
    else match resolve a with
      | .obj _ r => if r.acc == .wo || r.acc == .rwe then 0xA021 else 0
      | _ => 0

/-- The held high word of an object (R672). -/
def heldHigh (s : State) (a : Addr) : Nat := (lookupAt s.sp.high a).getD 0

/-- The present word of an object, without a transaction. -/
def presentWord (s : State) (f : Addr) (r : Row) (high : Bool) : Nat :=
  let bs := objBytes s .stream f r
  if high then ofLe (bs.drop 4) else winWord r.ty bs

/-- Bits [31:w] of a written word: zeros, or the sign extension of an S16 (R667). -/
def upperOk (t : Ty) (w : Nat) : Bool :=
  let n := 8 * t.bytes
  decide (32 ≤ n) || w / 2 ^ n == (if t == .s16 && bit w 15 then 2 ^ (32 - n) - 1 else 0)

/-- A whole-word write to a window word, as one dictionary transaction (R667, R672). -/
def winWrite (s : State) (a : Addr) (high : Bool) (w : Nat) (lanes : Nat) : State × Nat :=
  match resolve a with
  | .obj f r =>
    if high then ({ s with sp := { s.sp with high := insertAt s.sp.high f w } }, 0)
    else
      let data := if r.ty = .u64 then leBytes 4 w ++ leBytes 4 (heldHigh s f) else leBytes r.ty.bytes w
      let s := { s with sp := { s.sp with high := eraseAt s.sp.high f } }
      let c := writeCheck s .stream f r data
      if upperOk r.ty w ∨ [0xA010, 0xA040, 0xA012, 0xA013].contains c then
        let (s, x) := writeWhole s .stream a data { pagesOk := logPagesOk s, enables := lanes }
        (s, x.abort)
      else (noteAns s .stream a 0xA022, 0xA022)
  | _ => (noteAns s .stream a 0xA010, 0xA010)

/-- An alias write (R675): one bit, by the field that holds it. -/
def aliasWrite (s : State) (a : Addr) (high : Bool) (b : Nat) (x : Bool) : State × Nat :=
  match resolve a with
  | .obj f r =>
    if r.acc = .ro then winWrite s a high 0 15
    else if r.w1c then
      if x then (if bit (reservedAt f r) b || decide (8 * r.ty.bytes ≤ b) then (noteAns s .stream a 0xA022, 0xA022) else winWrite s a high (2 ^ b) 15)
      else (s, 0)
    else if !high && (bit (reservedAt f r) b || decide (8 * r.ty.bytes ≤ b)) then (if x then (noteAns s .stream a 0xA022, 0xA022) else (s, 0))
    else winWrite s a high (putBit (presentWord s f r high) b x) 15
  | _ => winWrite s a high 0 15

/-- One word of a write frame that the port has passed: the abort of the dictionary. -/
def writeWord (s : State) (addr w : Nat) : State × Nat :=
  match spAt addr with
  | .win a h => winWrite s a h w 15
  | .bitOf a h b => aliasWrite s a h b (bit w 0)
  | .mem o => ({ s with sp := { s.sp with mem := putBytes s.sp.mem o (leBytes 4 w) } }, 0)
  | _ => (s, 0)

/-- The words of a write frame in ascending order, up to the first that the dictionary refuses (R670): abort, words applied. -/
def writeWords (s : State) (addr n : Nat) : List Nat → State × Nat × Nat
  | [] => (s, 0, n)
  | w :: ws =>
    let (s, c) := writeWord s addr w
    if c = 0 then writeWords s (addr + 4) (n + 1) ws else (s, c, n)

/-- SP_WSTAT reports a write frame (R671, R692; log entry 46). -/
def reportWrite (s : State) (abort words : Nat) : State :=
  let n := s.sp.frames + 1
  let s := { s with sp := { s.sp with frames := n, pwerr := s.sp.pwerr || abort != 0 } }
  s.setN O.SP_WSTAT (abort + words * 65536 + n % 256 * 16777216)

/-- A host CRC mismatch (R662). The frame's CRC bytes are not known: the device CRC is a free value (log entry 5). -/
def crcError (s : State) (head : List Byte) : State :=
  let s := s.bump O.SP_ERR_CNT
  let n := s.sp.crcN + 1
  let s := if quietFor s.sp.crcAt s.uptime 10000 then
      record { s with sp := { s.sp with crcAt := some s.uptime, crcN := 0 } } 0x0921 .chip (leBytes 4 n)
    else { s with sp := { s.sp with crcN := n } }
  let (z, s) := s.draw
  trailer s (head ++ leBytes 2 z) [] false true false 0

/-- A write frame whose CRC holds: the port's refusals first, then the trailer, then the dictionary. -/
def writeFrame (s : State) (head : List Byte) (refusal : Nat) (f : State → State × Nat × Nat) : State :=
  let host := head ++ leBytes 2 (spCrc head)
  if refusal ≠ 0 then trailer s host [] true false false refusal
  else
    let s := trailer s host [] false false false 0
    let (s, c, n) := f s
    reportWrite s c n

/-- What a WRITE frame does. -/
def wordsFrame (s : State) (a : Nat) (ws : List Nat) (crcOk : Bool) : State :=
  let head := frameHead 0x02 a ws.length ++ ws.flatMap (leBytes 4)
  if ws.length = 0 ∨ 64 < ws.length ∨ (inWindowRegion a ∧ 16 < ws.length) then frameError s head
  else if !crcOk then crcError s head
  else
    let refusal := (((List.range ws.length).map fun i => portRefusal s (a + 4 * i) false).find? fun c => c != 0).getD 0
    writeFrame s head refusal fun s => writeWords s a 0 ws

/-- WRITE. -/
def execSpWrite (addr : BitVec 32) (words : List (BitVec 32)) (crcOk : Bool) (fin : FrameEnd) (s : State) : Out :=
  if !serves s then .next s else .next (frameEnds fin s (wordsFrame s addr.toNat (words.map BitVec.toNat) crcOk))

/-- A narrow write: the enabled lanes merged into the present word, checked as a whole word (R669). -/
def narrowWrite (s : State) (addr w e : Nat) : State × Nat :=
  let merge (old : Nat) := lanesOf e w + lanesOf (15 - e) old
  match spAt addr with
  | .win a h =>
    match resolve a with
    | .obj f r => winWrite s a h (merge (presentWord s f r h)) e
    | _ => winWrite s a h 0 e
  | .bitOf a h b => aliasWrite s a h b (bit (lanesOf e w) 0)
  | .mem o => writeWord s addr (merge (ofLe (getBytes s.sp.mem o 4)))
  | _ => (s, 0)

/-- What a WRITE_NARROW frame does. -/
def narrowFrame (s : State) (a e w : Nat) (crcOk : Bool) : State :=
  let head := frameHead 0x12 a e ++ leBytes 4 w
  if !crcOk then crcError s head
  else
    let refusal := if !lanesOk e then 0xA022 else portRefusal s a true
    writeFrame s head refusal fun s =>
      let (s, c) := narrowWrite s a w e
      (s, c, b2n (c == 0))

/-- WRITE_NARROW. -/
def execSpWriteNarrow (addr : BitVec 32) (enables : BitVec 16) (word : BitVec 32) (crcOk : Bool) (fin : FrameEnd) (s : State) : Out :=
  if !serves s then .next s else .next (frameEnds fin s (narrowFrame s addr.toNat enables.toNat word.toNat crcOk))

/-- A frame whose command R660 does not list, or whose count lies outside its range (R663). The bytes this command does not
carry leave the device CRC a free value (log entry 5). -/
def execSpFrameError (code : Byte) (count : Nat) (fin : FrameEnd) (s : State) : Out :=
  let c := code.toNat
  let bad := !([0x0B, 0x1B, 0x02, 0x12].contains c) || ((c == 0x0B || c == 0x02) && (count == 0 || decide (65535 < count))) ||
    (c == 0x02 && decide (64 < count))
  if serves s && bad then
    let (z, t) := s.draw
    .next (frameEnds fin s (frameError t (leBytes 4 z)))
  else .next s

/-! ### Rings 0 and 1 (R683, R684) -/

/-- Word i of ring 0 from a byte count on. -/
def ring0Word (s : State) (pos i : Nat) : Nat :=
  ofLe ((List.range 4).map fun j => byteAt s.sp.mem (ringBase s 0 + (pos + 4 * i + j) % ringSize s 0))

/-- A parsed request: header, word 1 and word 2, data. -/
structure Request where
  ty : Nat
  len : Nat
  tag : Nat
  w1 : Nat
  w2 : Nat
  data : List Byte
  deriving DecidableEq, Repr

/-- The request at CI of ring 0. -/
def requestAt (s : State) : Request :=
  let pos := s.getN (O.RING_CI (0 : Nat))
  let h := ring0Word s pos 0
  let len := bits h 8 8
  let w (i : Nat) := if i < len then ring0Word s pos i else 0
  { ty := bits h 0 8, len := len, tag := bits h 16 16, w1 := w 1, w2 := w 2,
    data := ((List.range (len - 3)).flatMap fun i => leBytes 4 (w (3 + i))).take (bits (w 2) 16 8) }

/-- TYPE, LEN, the command and the reserved bits of a request are well formed (log entry 68). -/
def requestOk (q : Request) : Bool :=
  let cmd := bits q.w1 0 8
  let n := bits q.w2 16 8
  q.ty == 1 && bits q.w2 24 8 == 0 && lenOk n &&
    (if cmd = 0x10 ∨ cmd = 0x11 then q.len == 3 + (n + 3) / 4 else (cmd == 0x20 || cmd == 0x21) && q.len == 3)

/-- The transaction of a well-formed request. WRITE and READ are limited to objects of up to 64 bytes. -/
def requestRun (s : State) (q : Request) : State × Ans :=
  let a := q.w1 / 256 % 256 + q.w1 / 65536 * 256
  let cmd := bits q.w1 0 8
  let n := bits q.w2 16 8
  let ofs := bits q.w2 0 16
  if cmd = 0x10 then writeWhole s .stream a q.data { pagesOk := logPagesOk s }
  else if cmd = 0x11 then writeSegment s .stream a ofs q.data
  else if cmd = 0x20 then readLimited s .stream a n
  else readSegment s .stream a ofs n

/-- CI of ring 0 passes a request; its SINT_PEND bit sets where the free space rises to RING_CREDIT (R684, R687). -/
def ring0Take (s : State) (len : Nat) : State :=
  let before := ringFree s 0
  let s := s.setN (O.RING_CI (0 : Nat)) ((s.getN (O.RING_CI (0 : Nat)) + 4 * len) % 2 ^ 32)
  let c := s.getN (O.RING_CREDIT (0 : Nat))
  if before < c ∧ c ≤ ringFree s 0 then s.modRing 0 fun g => { g with aged := true } else s

/-- A response record in ring 1 (R683). -/
def ring1Put (s : State) (q : Request) (stat abort : Nat) (data : List Byte) : State :=
  let words := [q.w1, stat + (data.length % 256) * 256 + abort * 65536] ++ wordsOf data
  ringPut s 1 (ringWords 2 q.tag words) none

/-- The device takes the request at CI of ring 0 where its command is `cmd`, or where it is malformed (R683, R684; log entry
68). -/
def takeRequest (cmd : Nat) (s : State) : Out :=
  if serves s = false ∨ ringEn s 0 = false ∨ ringEn s 1 = false ∨ ringUsed s 0 = 0 ∨ ringFree s 1 < 76 then .next s
  else
    let q := requestAt s
    if q.len = 0 then .next s
    else if !requestOk q then .next (ring1Put (ring0Take s q.len) q 2 0xA021 [])
    else if bits q.w1 0 8 ≠ cmd then .next s
    else
      let (s, x) := requestRun (ring0Take s q.len) q
      .next (ring1Put s q (if x.abort = 0 then 0 else 1) x.abort x.data)

/-- A request with CMD 0x10. -/
def execRingWrite (s : State) : Out := takeRequest 0x10 s
/-- A request with CMD 0x11. -/
def execRingWriteSeg (s : State) : Out := takeRequest 0x11 s
/-- A request with CMD 0x20. -/
def execRingRead (s : State) : Out := takeRequest 0x20 s
/-- A request with CMD 0x21. -/
def execRingReadSeg (s : State) : Out := takeRequest 0x21 s

end Sys2Proof.Machine
end

