-- ==== Sys2Proof/Machine/Dispatch.lean ====
section
/-! DEFINITION. The dispatch: one arm per command of the table of operations and events, each one call of its meaning. -/

namespace Sys2Proof.Machine

/-- The effect of a command on everything but the queue. -/
def exec (i : Instr) (s : State) : Host.Outcome State Fault Refusal :=
  match i with
  | .aonPowerUp => Sys2Proof.Machine.execAonPowerUp s
  | .plateRecall bad0 bad1 badBurn => Sys2Proof.Machine.execPlateRecall bad0 bad1 badBurn s
  | .resetRelease early addr nid slope => Sys2Proof.Machine.execResetRelease early addr nid slope s
  | .rstNFall => Sys2Proof.Machine.execRstNFall s
  | .hkPllLock => Sys2Proof.Machine.execHkPllLock s
  | .regionSwitchOn => Sys2Proof.Machine.execRegionSwitchOn s
  | .regionReady r pllLocked selfTest lanes zeros winZeros => Sys2Proof.Machine.execRegionReady r pllLocked selfTest lanes zeros winZeros s
  | .startupComplete => Sys2Proof.Machine.execStartupComplete s
  | .refClockLoss => Sys2Proof.Machine.execRefClockLoss s
  | .refClockRestore => Sys2Proof.Machine.execRefClockRestore s
  | .jtagFreezeBegin => Sys2Proof.Machine.execJtagFreezeBegin s
  | .jtagFreezeEnd => Sys2Proof.Machine.execJtagFreezeEnd s
  | .ck0HandshakeLoss r => Sys2Proof.Machine.execCk0HandshakeLoss r s
  | .ck0HandshakeReturn r absent => Sys2Proof.Machine.execCk0HandshakeReturn r absent s
  | .regionPllLockLoss r => Sys2Proof.Machine.execRegionPllLockLoss r s
  | .regionPllRelock r lanes => Sys2Proof.Machine.execRegionPllRelock r lanes s
  | .ck9PllLockLoss => Sys2Proof.Machine.execCk9PllLockLoss s
  | .dictWrite rq index sub data => Sys2Proof.Machine.execDictWrite rq index sub data s
  | .topoCommit rq => Sys2Proof.Machine.execTopoCommit rq s
  | .topoDiscard rq => Sys2Proof.Machine.execTopoDiscard rq s
  | .topoRegionOff => Sys2Proof.Machine.execTopoRegionOff s
  | .markerStrobeRx k r strobe stamp num period => Sys2Proof.Machine.execMarkerStrobeRx k r strobe stamp num period s
  | .markerLock k r => Sys2Proof.Machine.execMarkerLock k r s
  | .markerLockTimeout k => Sys2Proof.Machine.execMarkerLockTimeout k s
  | .markerLoss k r => Sys2Proof.Machine.execMarkerLoss k r s
  | .alignError k r => Sys2Proof.Machine.execAlignError k r s
  | .loopSampleTick k inp => Sys2Proof.Machine.execLoopSampleTick k inp s
  | .sampleDeadlineLatch k late => Sys2Proof.Machine.execSampleDeadlineLatch k late s
  | .sharebusTimeout k r d => Sys2Proof.Machine.execSharebusTimeout k r d s
  | .imonConversion n code aperture mv => Sys2Proof.Machine.execImonConversion n code aperture mv s
  | .imonStuck n => Sys2Proof.Machine.execImonStuck n s
  | .imonSaturated n => Sys2Proof.Machine.execImonSaturated n s
  | .imonOutOfRange n => Sys2Proof.Machine.execImonOutOfRange n s
  | .pwmReadbackMismatch n => Sys2Proof.Machine.execPwmReadbackMismatch n s
  | .imrefOutOfWindow b mv => Sys2Proof.Machine.execImrefOutOfWindow b mv s
  | .tmonConversion b code => Sys2Proof.Machine.execTmonConversion b code s
  | .dieSensorConversion x reading selfCheck => Sys2Proof.Machine.execDieSensorConversion x reading selfCheck s
  | .busConversion code => Sys2Proof.Machine.execBusConversion code s
  | .vinConversion code => Sys2Proof.Machine.execVinConversion code s
  | .vlsOffsetLearn k => Sys2Proof.Machine.execVlsOffsetLearn k s
  | .zeroCalDone k cell zero zeroLocal => Sys2Proof.Machine.execZeroCalDone k cell zero zeroLocal s
  | .openSenseDetect k dp dn held => Sys2Proof.Machine.execOpenSenseDetect k dp dn held s
  | .frozenAdcDetect k => Sys2Proof.Machine.execFrozenAdcDetect k s
  | .satRunDetect k => Sys2Proof.Machine.execSatRunDetect k s
  | .divergenceDetect k => Sys2Proof.Machine.execDivergenceDetect k s
  | .fblRecover k => Sys2Proof.Machine.execFblRecover k s
  | .blindMaxExpire k => Sys2Proof.Machine.execBlindMaxExpire k s
  | .ilimRestoreStep k => Sys2Proof.Machine.execIlimRestoreStep k s
  | .vsSrcSelWrite rq k v => Sys2Proof.Machine.execVsSrcSelWrite rq k v s
  | .bankCommit rq k m => Sys2Proof.Machine.execBankCommit rq k m s
  | .bankEmpty rq k m => Sys2Proof.Machine.execBankEmpty rq k m s
  | .bankDiscard rq k m => Sys2Proof.Machine.execBankDiscard rq k m s
  | .bankLoadDone k m => Sys2Proof.Machine.execBankLoadDone k m s
  | .bankForceWrite rq k v => Sys2Proof.Machine.execBankForceWrite rq k v s
  | .bankAutoSwitch k => Sys2Proof.Machine.execBankAutoSwitch k s
  | .eccUncorrectableBank k => Sys2Proof.Machine.execEccUncorrectableBank k s
  | .eccUncorrectableState k => Sys2Proof.Machine.execEccUncorrectableState k s
  | .groundLawEntry k => Sys2Proof.Machine.execGroundLawEntry k s
  | .missFault k => Sys2Proof.Machine.execMissFault k s
  | .groundLawExit k => Sys2Proof.Machine.execGroundLawExit k s
  | .tableCommit rq t => Sys2Proof.Machine.execTableCommit rq t s
  | .tableDiscard rq t => Sys2Proof.Machine.execTableDiscard rq t s
  | .tableExchange t unit => Sys2Proof.Machine.execTableExchange t unit s
  | .lsatCompositeUpdate k => Sys2Proof.Machine.execLsatCompositeUpdate k s
  | .amdinPrenotify p loop payload at_ => Sys2Proof.Machine.execAmdinPrenotify p loop payload at_ s
  | .sketchOpen k => Sys2Proof.Machine.execSketchOpen k s
  | .sketchReplace k => Sys2Proof.Machine.execSketchReplace k s
  | .sketchExpire k => Sys2Proof.Machine.execSketchExpire k s
  | .sketchReturnIdle k => Sys2Proof.Machine.execSketchReturnIdle k s
  | .skEnWrite rq k v => Sys2Proof.Machine.execSkEnWrite rq k v s
  | .periodBoundary k r => Sys2Proof.Machine.execPeriodBoundary k r s
  | .cellSlotPosition n edge => Sys2Proof.Machine.execCellSlotPosition n edge s
  | .cellFallingEdge n => Sys2Proof.Machine.execCellFallingEdge n s
  | .cellResume n => Sys2Proof.Machine.execCellResume n s
  | .cellDisWrite rq n v => Sys2Proof.Machine.execCellDisWrite rq n v s
  | .blkDisWrite rq b v => Sys2Proof.Machine.execBlkDisWrite rq b v s
  | .rgPwmDisWrite rq r v => Sys2Proof.Machine.execRgPwmDisWrite rq r v s
  | .fchDisWrite rq v => Sys2Proof.Machine.execFchDisWrite rq v s
  | .phaseAdd k => Sys2Proof.Machine.execPhaseAdd k s
  | .phaseShed k => Sys2Proof.Machine.execPhaseShed k s
  | .cellWakeRequest k => Sys2Proof.Machine.execCellWakeRequest k s
  | .shedRelease n => Sys2Proof.Machine.execShedRelease n s
  | .shedTimeout n => Sys2Proof.Machine.execShedTimeout n s
  | .rampCellEnable k => Sys2Proof.Machine.execRampCellEnable k s
  | .fbSample codes => Sys2Proof.Machine.execFbSample codes s
  | .fbPeriodBoundary => Sys2Proof.Machine.execFbPeriodBoundary s
  | .fbChannelSlot f => Sys2Proof.Machine.execFbChannelSlot f s
  | .fbCmdOn rq => Sys2Proof.Machine.execFbCmdOn rq s
  | .fbCmdOff rq => Sys2Proof.Machine.execFbCmdOff rq s
  | .fbSoftstartBegin => Sys2Proof.Machine.execFbSoftstartBegin s
  | .fbChannelStart => Sys2Proof.Machine.execFbChannelStart s
  | .fbRegulateEntry => Sys2Proof.Machine.execFbRegulateEntry s
  | .fbSoftstartTimeout => Sys2Proof.Machine.execFbSoftstartTimeout s
  | .fbTrimLimit f => Sys2Proof.Machine.execFbTrimLimit f s
  | .peakU0Report => Sys2Proof.Machine.execPeakU0Report s
  | .busBudgetUpdate => Sys2Proof.Machine.execBusBudgetUpdate s
  | .bsModeWrite rq v => Sys2Proof.Machine.execBsModeWrite rq v s
  | .ocPkTrip n start stop => Sys2Proof.Machine.execOcPkTrip n start stop s
  | .ocNegTrip n start stop => Sys2Proof.Machine.execOcNegTrip n start stop s
  | .bfltTrip b start stop => Sys2Proof.Machine.execBfltTrip b start stop s
  | .ovpAbsTrip k => Sys2Proof.Machine.execOvpAbsTrip k s
  | .ovpSetTrip k => Sys2Proof.Machine.execOvpSetTrip k s
  | .uvpTrip k => Sys2Proof.Machine.execUvpTrip k s
  | .itripTrip k => Sys2Proof.Machine.execItripTrip k s
  | .vbusLoTrip k => Sys2Proof.Machine.execVbusLoTrip k s
  | .vbusHiTrip k => Sys2Proof.Machine.execVbusHiTrip k s
  | .fbOvTrip => Sys2Proof.Machine.execFbOvTrip s
  | .fbUvTrip => Sys2Proof.Machine.execFbUvTrip s
  | .vinOvTrip => Sys2Proof.Machine.execVinOvTrip s
  | .vinUvTrip => Sys2Proof.Machine.execVinUvTrip s
  | .focTrip f start stop => Sys2Proof.Machine.execFocTrip f start stop s
  | .policyApply u => Sys2Proof.Machine.execPolicyApply u s
  | .latchClearWrite rq o mask => Sys2Proof.Machine.execLatchClearWrite rq o mask s
  | .retryTick u => Sys2Proof.Machine.execRetryTick u s
  | .retryLeftReload u => Sys2Proof.Machine.execRetryLeftReload u s
  | .faultReportArrive => Sys2Proof.Machine.execFaultReportArrive s
  | .coalesceWindowClose c cause => Sys2Proof.Machine.execCoalesceWindowClose c cause s
  | .rootRecordForm => Sys2Proof.Machine.execRootRecordForm s
  | .loopCmdOn rq k => Sys2Proof.Machine.execLoopCmdOn rq k s
  | .loopCmdOff rq k => Sys2Proof.Machine.execLoopCmdOff rq k s
  | .loopCmdOffNow rq k => Sys2Proof.Machine.execLoopCmdOffNow rq k s
  | .enRise k => Sys2Proof.Machine.execEnRise k s
  | .enFall k => Sys2Proof.Machine.execEnFall k s
  | .prebiasDone k found => Sys2Proof.Machine.execPrebiasDone k found s
  | .armToRamp k => Sys2Proof.Machine.execArmToRamp k s
  | .armedWaitTimeout k => Sys2Proof.Machine.execArmedWaitTimeout k s
  | .setpointSourceSample k vref => Sys2Proof.Machine.execSetpointSourceSample k vref s
  | .sourceLost k src => Sys2Proof.Machine.execSourceLost k src s
  | .sourceValid k src => Sys2Proof.Machine.execSourceValid k src s
  | .sourceLossTimeout k => Sys2Proof.Machine.execSourceLossTimeout k s
  | .spSrcWrite rq k v => Sys2Proof.Machine.execSpSrcWrite rq k v s
  | .pgoodRelease k => Sys2Proof.Machine.execPgoodRelease k s
  | .pgoodPullLow k => Sys2Proof.Machine.execPgoodPullLow k s
  | .amdinIdle p loop payload => Sys2Proof.Machine.execAmdinIdle p loop payload s
  | .amdinSetv p loop payload => Sys2Proof.Machine.execAmdinSetv p loop payload s
  | .amdinSlew p loop payload => Sys2Proof.Machine.execAmdinSlew p loop payload s
  | .amdinPstate p loop payload => Sys2Proof.Machine.execAmdinPstate p loop payload s
  | .amdinCancel p loop payload => Sys2Proof.Machine.execAmdinCancel p loop payload s
  | .amdinRead p loop payload => Sys2Proof.Machine.execAmdinRead p loop payload s
  | .amdinLoadi p loop payload at_ => Sys2Proof.Machine.execAmdinLoadi p loop payload at_ s
  | .amdinAlack p loop payload => Sys2Proof.Machine.execAmdinAlack p loop payload s
  | .amdinTrain p loop payload => Sys2Proof.Machine.execAmdinTrain p loop payload s
  | .amdinDownstreamWindow p => Sys2Proof.Machine.execAmdinDownstreamWindow p s
  | .amlEnWrite rq p v => Sys2Proof.Machine.execAmlEnWrite rq p v s
  | .linkCmdReset rq p => Sys2Proof.Machine.execLinkCmdReset rq p s
  | .linkRetryExpire p => Sys2Proof.Machine.execLinkRetryExpire p s
  | .trainPhaseComplete p eye => Sys2Proof.Machine.execTrainPhaseComplete p eye s
  | .trainFail p => Sys2Proof.Machine.execTrainFail p s
  | .rateFallback p => Sys2Proof.Machine.execRateFallback p s
  | .linkDown p cause => Sys2Proof.Machine.execLinkDown p cause s
  | .linkUpTimeout p => Sys2Proof.Machine.execLinkUpTimeout p s
  | .thermalShutdown cause sensor level heldNs => Sys2Proof.Machine.execThermalShutdown cause sensor level heldNs s
  | .thermalRestart => Sys2Proof.Machine.execThermalRestart s
  | .rsLatchClear rq => Sys2Proof.Machine.execRsLatchClear rq s
  | .rateOfRiseUpdate => Sys2Proof.Machine.execRateOfRiseUpdate s
  | .bandChange x => Sys2Proof.Machine.execBandChange x s
  | .throttleEval => Sys2Proof.Machine.execThrottleEval s
  | .thermalSwap k => Sys2Proof.Machine.execThermalSwap k s
  | .thermalHoldEnd b => Sys2Proof.Machine.execThermalHoldEnd b s
  | .sensorFail x => Sys2Proof.Machine.execSensorFail x s
  | .sensorRecover x => Sys2Proof.Machine.execSensorRecover x s
  | .burnishStart k => Sys2Proof.Machine.execBurnishStart k s
  | .burnishWaitTimeout k => Sys2Proof.Machine.execBurnishWaitTimeout k s
  | .burnishCellMeasure n m => Sys2Proof.Machine.execBurnishCellMeasure n m s
  | .burnishDone k vb => Sys2Proof.Machine.execBurnishDone k vb s
  | .burCmdRun rq k => Sys2Proof.Machine.execBurCmdRun rq k s
  | .burCmdClear rq k => Sys2Proof.Machine.execBurCmdClear rq k s
  | .tokenClaim high => Sys2Proof.Machine.execTokenClaim high s
  | .ownWatchdogExpire => Sys2Proof.Machine.execOwnWatchdogExpire s
  | .supplyLowRelease => Sys2Proof.Machine.execSupplyLowRelease s
  | .heartbeatTx => Sys2Proof.Machine.execHeartbeatTx s
  | .heartbeatRx crcOk h => Sys2Proof.Machine.execHeartbeatRx crcOk h s
  | .dutyDigestRx crcOk d => Sys2Proof.Machine.execDutyDigestRx crcOk d s
  | .alignmentRecordTx u => Sys2Proof.Machine.execAlignmentRecordTx u s
  | .alignmentRecordRx crcOk r => Sys2Proof.Machine.execAlignmentRecordRx crcOk r s
  | .journalEntryApply crcOk e => Sys2Proof.Machine.execJournalEntryApply crcOk e s
  | .twinLinkLost => Sys2Proof.Machine.execTwinLinkLost s
  | .takeover gap => Sys2Proof.Machine.execTakeover gap s
  | .takeoverTimeout => Sys2Proof.Machine.execTakeoverTimeout s
  | .twCmdAbdicate rq => Sys2Proof.Machine.execTwCmdAbdicate rq s
  | .twCmdDetach rq release => Sys2Proof.Machine.execTwCmdDetach rq release s
  | .twCmdJoin rq => Sys2Proof.Machine.execTwCmdJoin rq s
  | .joinStepComplete j => Sys2Proof.Machine.execJoinStepComplete j s
  | .joinStepFail cause => Sys2Proof.Machine.execJoinStepFail cause s
  | .joinRetry => Sys2Proof.Machine.execJoinRetry s
  | .peerRolePoll role => Sys2Proof.Machine.execPeerRolePoll role s
  | .keyWrite rq v => Sys2Proof.Machine.execKeyWrite rq v s
  | .levelDropWrite rq v => Sys2Proof.Machine.execLevelDropWrite rq v s
  | .levelIdleTimeout rq => Sys2Proof.Machine.execLevelIdleTimeout rq s
  | .lockSetWrite rq v => Sys2Proof.Machine.execLockSetWrite rq v s
  | .etchedWrite rq index sub data => Sys2Proof.Machine.execEtchedWrite rq index sub data s
  | .etchBurnDone => Sys2Proof.Machine.execEtchBurnDone s
  | .descSelWrite rq v => Sys2Proof.Machine.execDescSelWrite rq v s
  | .twWrite index sub len bytes how => Sys2Proof.Machine.execTwWrite index sub len bytes how s
  | .twWriteSeg index sub ofs len bytes how => Sys2Proof.Machine.execTwWriteSeg index sub ofs len bytes how s
  | .twScratchWr ofs len bytes how => Sys2Proof.Machine.execTwScratchWr ofs len bytes how s
  | .twRead index sub len => Sys2Proof.Machine.execTwRead index sub len s
  | .twReadSeg index sub ofs len => Sys2Proof.Machine.execTwReadSeg index sub ofs len s
  | .twStatus => Sys2Proof.Machine.execTwStatus s
  | .twStartStop stop => Sys2Proof.Machine.execTwStartStop stop s
  | .twSclTimeout => Sys2Proof.Machine.execTwSclTimeout s
  | .twStretchTimeout read => Sys2Proof.Machine.execTwStretchTimeout read s
  | .twBusRecovery r => Sys2Proof.Machine.execTwBusRecovery r s
  | .twArbLost ownAddressByte => Sys2Proof.Machine.execTwArbLost ownAddressByte s
  | .twCtrlRetry r => Sys2Proof.Machine.execTwCtrlRetry r s
  | .twAlertSend => Sys2Proof.Machine.execTwAlertSend s
  | .canWrite tid index sub data => Sys2Proof.Machine.execCanWrite tid index sub data s
  | .canWriteSeg tid index sub ofs data => Sys2Proof.Machine.execCanWriteSeg tid index sub ofs data s
  | .canRead tid index sub len => Sys2Proof.Machine.execCanRead tid index sub len s
  | .canReadSeg tid index sub ofs len => Sys2Proof.Machine.execCanReadSeg tid index sub ofs len s
  | .canCompactWrite index sub data => Sys2Proof.Machine.execCanCompactWrite index sub data s
  | .canCompactRead index sub => Sys2Proof.Machine.execCanCompactRead index sub s
  | .canRequestBusy compact cmd tid index sub => Sys2Proof.Machine.execCanRequestBusy compact cmd tid index sub s
  | .canTime node fd data elapsed => Sys2Proof.Machine.execCanTime node fd data elapsed s
  | .canDuplicateNode => Sys2Proof.Machine.execCanDuplicateNode s
  | .canHeartbeat => Sys2Proof.Machine.execCanHeartbeat s
  | .canErrorPassive => Sys2Proof.Machine.execCanErrorPassive s
  | .canBusOff => Sys2Proof.Machine.execCanBusOff s
  | .canBusOffRecovery => Sys2Proof.Machine.execCanBusOffRecovery s
  | .canEnWrite rq v => Sys2Proof.Machine.execCanEnWrite rq v s
  | .spRead addr count fin => Sys2Proof.Machine.execSpRead addr count fin s
  | .spReadNarrow addr enables fin => Sys2Proof.Machine.execSpReadNarrow addr enables fin s
  | .spWrite addr words crcOk fin => Sys2Proof.Machine.execSpWrite addr words crcOk fin s
  | .spWriteNarrow addr enables word crcOk fin => Sys2Proof.Machine.execSpWriteNarrow addr enables word crcOk fin s
  | .spWstatRead => Sys2Proof.Machine.execSpWstatRead s
  | .ringCfgWrite rq r v => Sys2Proof.Machine.execRingCfgWrite rq r v s
  | .ringPiWrite rq r v => Sys2Proof.Machine.execRingPiWrite rq r v s
  | .ringCiWrite rq r v => Sys2Proof.Machine.execRingCiWrite rq r v s
  | .ringWrite => Sys2Proof.Machine.execRingWrite s
  | .ringWriteSeg => Sys2Proof.Machine.execRingWriteSeg s
  | .ringRead => Sys2Proof.Machine.execRingRead s
  | .ringReadSeg => Sys2Proof.Machine.execRingReadSeg s
  | .ringResume r => Sys2Proof.Machine.execRingResume r s
  | .telemetryRecord u => Sys2Proof.Machine.execTelemetryRecord u s
  | .eventRecord code unit vals => Sys2Proof.Machine.execEventRecord code unit vals s
  | .uptimeTick active => Sys2Proof.Machine.execUptimeTick active s
  | .storeCmdStore rq => Sys2Proof.Machine.execStoreCmdStore rq s
  | .storeCmdRestore rq => Sys2Proof.Machine.execStoreCmdRestore rq s
  | .pfailFall => Sys2Proof.Machine.execPfailFall s
  | .vctrlLow => Sys2Proof.Machine.execVctrlLow s
  | .storeComplete verified => Sys2Proof.Machine.execStoreComplete verified s
  | .vholdLow => Sys2Proof.Machine.execVholdLow s
  | .wallSet rq us => Sys2Proof.Machine.execWallSet rq us s
  | .wallSRead rq => Sys2Proof.Machine.execWallSRead rq s
  | .wallUsRead rq => Sys2Proof.Machine.execWallUsRead rq s
  | .logClear rq pagesOk => Sys2Proof.Machine.execLogClear rq pagesOk s
  | .logRecRead rq ofs len => Sys2Proof.Machine.execLogRecRead rq ofs len s
  | .scrDataWrite rq word enables => Sys2Proof.Machine.execScrDataWrite rq word enables s
  | .trArm rq r => Sys2Proof.Machine.execTrArm rq r s
  | .trForce rq r => Sys2Proof.Machine.execTrForce rq r s
  | .trStop rq r => Sys2Proof.Machine.execTrStop rq r s
  | .trIdle rq r => Sys2Proof.Machine.execTrIdle rq r s
  | .traceCaptureDone r => Sys2Proof.Machine.execTraceCaptureDone r s
  | .trUnload rq v => Sys2Proof.Machine.execTrUnload rq v s
  | .traceUnloadDone => Sys2Proof.Machine.execTraceUnloadDone s
  | .ck9PllRelock => Sys2Proof.Machine.execCk9PllRelock s
  | .aonNvPowerDown => Sys2Proof.Machine.execAonNvPowerDown s
  | .amdinUpstreamReject p frame => Sys2Proof.Machine.execAmdinUpstreamReject p frame s
  | .spinEdge k e => Sys2Proof.Machine.execSpinEdge k e s
  | .spFrameError code count fin => Sys2Proof.Machine.execSpFrameError code count fin s
  | .twCommandRefused code => Sys2Proof.Machine.execTwCommandRefused code s
  | .ringTmoElapsed r => Sys2Proof.Machine.execRingTmoElapsed r s

end Sys2Proof.Machine
end

