-- ==== Sys2Proof/Safety.lean ====
section
/-! DEFINITION. What a run keeps, and the conditions and frames that the statements name. -/

namespace Sys2Proof.Machine

/-! ### The canonical form -/

/-- The memories of the plate are in canonical form: the scratch area, both banks' copies of it, and that of a store. -/
def plateWf (p : Plate) : Bool :=
  memWf p.scratch && memWf p.bank[0].scratch && memWf p.bank[1].scratch &&
    (match p.store with | some st => memWf st.image.scratch | none => true)

/-- The state is in canonical form: no object is listed with its default, no byte of a memory with 0, and every list of
them is sorted. Equal contents are equal data. -/
def Canonical (s : State) : Prop := dictWf s.dict = true ∧ memWf s.sp.mem = true ∧ plateWf s.plate = true

/-! ### Frames -/

/-- The objects that forming an event record writes: the recorder's own, the counts of dropped pushes and alerts, and
RING_PI, RING_CI and RING_LOST of the rings that records reach. -/
def recorderObj (a : Addr) : Bool :=
  (decide (O.LOG_STAT ≤ a) && decide (a ≤ O.LOG_REFUSED)) || a == O.PUSH_DROP_CNT || a == O.ALERT_DROP_CNT ||
    (decide (0x1140 ≤ a / 256) && decide (a / 256 < 0x1150) && (a % 256 == 2 || a % 256 == 3 || a % 256 == 6))

/-- The objects of the templates that the addresses of a list name, in every unit (R576). -/
def among (l : List Addr) (a : Addr) : Prop := template a ∈ l.map template

/-- The elements of the array objects, one index each, that the addresses of a list name, in every unit. -/
def arrays (l : List Addr) (a : Addr) : Prop := template a / 256 ∈ l.map fun b => template b / 256

/-- Every object keeps its value but those of the recorder and those that `f` names. -/
def SameObjects (s t : State) (f : Addr → Prop) : Prop := ∀ a, recorderObj a = false → ¬ f a → t.get a = s.get a

/-- Offset `o` of stream memory lies in the area of no enabled ring. -/
def outsideRings (s : State) (o : Nat) : Prop :=
  ∀ r : RingId, ringEn s r = true → o < ringBase s r ∨ ringBase s r + ringSize s r ≤ o

/-- Every byte of memory reads as before: the scratch area, the shadow banks, the trace memories, and stream memory
outside the rings' areas, where event records go. -/
def SameMemory (s t : State) : Prop :=
  t.plate.scratch = s.plate.scratch ∧ t.plate.bank = s.plate.bank ∧ (∀ r : RegionId, t.traces[r].mem = s.traces[r].mem) ∧
    ∀ o, outsideRings s o → byteAt t.sp.mem o = byteAt s.sp.mem o

/-- The state with everything blank that forming an event record writes: the recorder's objects and log, the rings, the two
queues of pushes, the marks of dirty pages. Objects and stream memory, which have frames of their own, are blank as well. -/
def rest (s : State) : State :=
  { s with dict := [], rings := Vector.replicate 16 {}, sp := { s.sp with mem := [] }, tw := { s.tw with alerts := [] },
           can := { s.can with tx := [], push := [], lost := false },
           plate := { s.plate with log := [], dirty0 := [], dirty1 := [], nextSeq := 0 } }

/-- Beside event records, and records in rings, only the objects that `f` names may differ. -/
def Keeps (s t : State) (f : Addr → Prop) : Prop :=
  SameObjects s t f ∧ rest t = rest s ∧ ∀ o, outsideRings s o → byteAt t.sp.mem o = byteAt s.sp.mem o

/-- No event record is formed: only the objects that `f` names, and the marks of dirty pages, may differ. -/
def Still (s t : State) (f : Addr → Prop) : Prop :=
  (∀ a, ¬ f a → t.get a = s.get a) ∧
    { t with dict := s.dict, plate := { t.plate with dirty0 := s.plate.dirty0, dirty1 := s.plate.dirty1 } } = s

/-- Of the loops, only the settings that wait for their effective sample may differ (R50). -/
def LagOnly (s t : State) : Prop :=
  ∀ k : LoopId, t.loops[k] = { s.loops[k] with ph := { s.loops[k].ph with lag := t.loops[k].ph.lag } }

/-- The objects, by template, that the shared transitions of a loop write: its state, its trip counters, its latches, its bank,
its sketch, its feedback, its throttling, the places of its cells. -/
def loopTemplates : List Addr :=
  [O.LOOP_STATE 0, O.RETRY_LEFT 0, O.LOOP_FLT 0, O.TRIP_CNT 0, O.BANK_ACTIVE 0, O.LL_R_NOW 0, O.PG_STAT 0, O.RESPACE 0,
   O.ADD_CNT 0, O.SHED_CNT 0, O.SK_STATE 0, O.SK_LAST_CLOSE 0, O.SK_DRIFT_LAST 0, O.SK_ERASE_CNT 0, O.SK_ERASE_EXP 0,
   O.SK_ERASE_CANCEL 0, O.SK_ERASE_PROT 0, O.MISS_CONSEC 0, O.ENG_FLAGS 0, O.VS_STATE 0, O.FBL_FLAGS 0, O.TH_LEVEL 0,
   O.TH_FACTOR 0, O.TH_BUDGET 0, O.ILIM_SCALE 0, O.BUR_STATE 0, O.SLOT_POS 0]

/-- Beside event records, the second state differs from the first only where a loop moves between its states: the objects of
`loopTemplates` and those that `f` names, the loops, their cells, the alerts of the links, the reports on their way. -/
def Moves (s t : State) (f : Addr → Prop) : Prop :=
  Keeps s { t with loops := s.loops, cells := s.cells, aml := s.aml, tree := s.tree, seen := s.seen,
                   twin := { t.twin with abdDue := s.twin.abdDue } }
    (fun a => among loopTemplates a ∨ f a)

/-! ### Writes -/

/-- A requester's write of `data` to the object at `a` passes and acts at once: the dictionary serves (R37, R512), and the object's
region, where it has one, its handshake with CK0 (R311); orders 4 to 10 of R580
find nothing; the device is no shadow that refuses it (R562); its state and conflict rules hold (order 11); the object is
not etched (R594), and the plate area that holds it has no fault (R608). -/
def Admitted (s : State) (q : Requester) (a : Addr) (data : List Byte) : Prop :=
  serves s = true ∧ cutRegion s a = none ∧ ∃ r, resolve a = .obj a r ∧ r.acc ≠ .rwe ∧ writeCheck s q a r data = 0 ∧
    shadowed s q a r (ofBytes r.ty data) = false ∧ stateRule s a (ofBytes r.ty data) = false ∧
    conflictRule s a (ofBytes r.ty data) = false ∧ plateFaulted s r = false

/-- What a requester has staged of an object before a segment at offset `ofs` (R602). -/
def stagedAt (s : State) (q : Requester) (a : Addr) (ofs : Nat) : List Byte := if ofs = 0 then [] else staged s q a

/-- A requester's segment of `data` at offset `ofs` of the DOM or TAB object at `a` passes the checks of R580, R602 to R604: it
goes on from the staging copy, and lies within the object. -/
def SegAdmitted (s : State) (q : Requester) (a : Addr) (ofs : Nat) (data : List Byte) : Prop :=
  serves s = true ∧ ∃ r, resolve a = .obj a r ∧ r.acc ≠ .ro ∧ (s.chip.freeze && q != .twin) = false ∧
    (r.integrator && levelOf s q == 0) = false ∧ (q != .twin && locked s a r) = false ∧ stagedTy r.ty = true ∧
    ofs = (stagedAt s q a ofs).length ∧ ofs + data.length ≤ r.len ∧ shadowed s q a r 0 = false ∧
    (ofs = 0 → activeBankObj s a = false) ∧ plateFaulted s r = false

/-- Beside what `f` names, the second state differs from the first only by what every accepted write may do: its event record,
DICT_GEN, what the requester has of it, and on a device that sends a journal the entry, which may overflow the journal (R561, R562,
R609, R610). -/
def Written (s t : State) (f : Addr → Prop) : Prop :=
  Keeps s { t with req := s.req, free := s.free, twin := { t.twin with journal := s.twin.journal, jseq := s.twin.jseq } }
    (fun a => a = O.DICT_GEN ∨ a = O.TW_ROLE ∨ f a)

end Sys2Proof.Machine
end

