-- ==== Sys2Proof/Certificates/Slice0/Obligations.lean ====
section
/-! DEFINITION. The statements. Each is about every state and every operand that meet its hypotheses. What a command leaves unchanged stands in `Keeps`,
`Still`, `Written` and `Moves` (Sys2Proof.Safety): a field of the second state that the command may change is given the first state's value, and the
objects that it may write are listed. A docstring names the rules that a statement draws on; what of them it states is what its own words say. -/

open Sys2Proof Sys2Proof.Machine

/-! ### Power, recall, reset and start-up -/

/-- R511, R779: when VCTRL rises, AON-NV is up, LT_VCTRL_UP takes one more count (log entry 2 says when), recall is still to come, and nothing else
changes. R745: when AON-NV falls, the banks with their markers and the antifuse stay and every other object reads its default. R539: when RST_N
falls, MAIN is reset; the plate, uptime, wall time and the antifuse stay, and with them every object that the plate, the antifuse or AON-NV holds,
and LOCK_STAT. Where the spec leaves a point open, this follows log entries 11 and 24. -/
def Obligations.PowerAndReset : Prop :=
  (∀ s : State, s.chip.aon = false → ∃ t, exec .aonPowerUp s = .next t ∧ t.chip.aon = true ∧ t.plate.recalled = false ∧
    t.getN O.LT_VCTRL_UP = (s.getN O.LT_VCTRL_UP + 1) % 2 ^ 32 ∧
    Still s { t with chip := s.chip, plate := { t.plate with recalled := s.plate.recalled } } (· = O.LT_VCTRL_UP) ∧
    t.chip = { s.chip with aon := true }) ∧
  (∀ s : State, s.chip.aon = true → ∃ t, exec .aonNvPowerDown s = .next t ∧
    t.chip.aon = false ∧ t.chip.main = false ∧ t.chip.released = false ∧ t.chip.slots = s.chip.slots ∧
    t.plate.bank = s.plate.bank ∧ t.plate.marker = s.plate.marker ∧ t.plate.log = [] ∧ t.plate.scratch = [] ∧ t.blobs = [] ∧
    ∀ a, isEtched a = false → t.get a = dflt a) ∧
  (∀ s : State, s.chip.main = true → ∃ t, exec .rstNFall s = .next t ∧
    t.chip.main = false ∧ t.chip.hkLock = false ∧ t.chip.aon = s.chip.aon ∧ t.chip.slots = s.chip.slots ∧ t.chip.therm = s.chip.therm ∧
    t.plate = s.plate ∧ t.uptime = s.uptime ∧ t.wall = s.wall ∧ t.blobs = s.blobs ∧ t.twin.token = false ∧
    (∀ a, inPlate a || isEtched a || aonHeld a || a == O.LOCK_STAT → t.get a = s.get a) ∧
    ∀ a, inPlate a = false → isEtched a = false → aonHeld a = false → a ≠ O.LOCK_STAT → t.get a = dflt a)

/-- R709, R711: with no faulted page, recall leaves every persisted object at the value of the recalled bank, or at its default where no bank is
committed; LT_VCTRL_UP adds the counts since power-up, LT_STORE_INT an interrupted store. The banks and their markers stay. R512, R515, R516, R588:
at the effective release t0, MAIN is up, the pins are sampled, LOCK_STAT is 0 and start-up stands at step 1. Where the spec leaves a point open,
this follows log entries 2, 11 and 26. -/
def Obligations.RecallAndRelease : Prop :=
  (∀ s : State, s.chip.aon = true → s.plate.recalled = false →
     let i : Image := match recallBank s.plate [] [] with | some b => s.plate.bank[b] | none => {}
     dictWf i.dict = true →
     ∃ t, exec (.plateRecall [] [] []) s = .next t ∧ t.plate.recalled = true ∧ t.plate.scratch = i.scratch ∧
       t.plate.bank = s.plate.bank ∧ t.plate.marker = s.plate.marker ∧
       (∀ a, inPlate a = true → isEtched a = false → recorderObj a = false → lookupAt s.chip.slots a = none → a ≠ O.LT_VCTRL_UP →
         a ≠ O.LT_STORE_INT → t.get a = dval i.dict a) ∧
       rest { t with blobs := s.blobs, uptime := s.uptime, wall := s.wall, plate := s.plate, chip := { t.chip with slots := s.chip.slots } } =
         rest s) ∧
  (∀ (s : State) (early : Bool) (addr : Fin 16) (nid : Fin 8) (slope : Fin 4),
     s.chip.aon = true → s.plate.recalled = true → s.chip.main = false →
     ∃ t, exec (.resetRelease early addr nid slope) s = .next t ∧ t.chip.main = true ∧ t.chip.released = true ∧ t.chip.hkLock = false ∧
       t.chip.addr = addr.val ∧ t.chip.nid = nid.val ∧ t.chip.slope = slope.val ∧
       t.chip.pref = s.getN O.TW_PREF ∧ t.getN O.LOCK_STAT = 0 ∧ t.getN O.START_STEP = 1 ∧
       Keeps s { t with
           chip := s.chip, twin := s.twin, fb := s.fb, loops := s.loops, blocks := s.blocks, can := s.can, tw := s.tw, aml := s.aml,
           free := s.free }
         (fun a => arrays [O.START_T 0, O.BANK_CRC 0 0, O.BANK_TAG 0 0, O.BLK_LOOP_STG 0, O.LOOP_MASTER_STG 0, O.LOOP_RATE 0] a ∨
           among [O.LOCK_STAT, O.START_STEP, O.LT_RST_CNT, O.BANK_STATE 0, O.BUR_STATE 0, O.CAN_NODE, O.FB_MASK_STG, O.FB_PERIOD_CNT,
             O.LL_R_NOW 0, O.PERIOD_CNT 0, O.RETRY_LEFT 0, O.TOPO_REASON, O.TOPO_REASONS, O.TOPO_STATUS, O.TOPO_UNIT] a))

/-- R515, R517, R518: the steps of start-up. The housekeeping PLL's lock lets the dictionary answer and completes step 2; the regions are switched
on in turn, 40 µs apart (R52, R53), and read POWERING; a region that comes up reads READY with its PLL locked, one that fails reads FAILED and loses
its bit of REGION_AVAIL, in start-up as after a commit; after steps 1 to 8, step 9 completes and locks what LOCK_BOOT names, and TOPO_STATUS of the
recalled topology reads APPLIED, or APPLY-FAILED where a region failed. Where the spec leaves a point open, this follows log entries 22, 23, 34, 96,
97 and 99. -/
def Obligations.StartUpSteps : Prop :=
  (∀ s : State, s.chip.main = true → s.chip.ref = true → s.getN O.START_STEP = 1 → s.chip.rising ≠ [] →
    ∃ t, exec .hkPllLock s = .next t ∧ t.chip = { s.chip with hkLock := true } ∧ t.getN O.START_STEP = 2 ∧
      Still s { t with chip := s.chip } (· ∈ [O.START_STEP, O.START_T (1 : Nat)])) ∧
  (∀ (s : State) (r : RegionId) (l : List Nat), s.chip.rising = r.val :: l → s.chip.main = true → s.chip.hkLock = true →
    (∀ u, s.chip.switchAt = some u → u + 40 ≤ s.uptime) →
    ∃ t, exec .regionSwitchOn s = .next t ∧ t.chip = { s.chip with rising := l, switchAt := some s.uptime } ∧
      t.getN (O.RG_STATE r) = 1 ∧ Still s { t with chip := s.chip }
        (· ∈ [O.RG_STATE r, O.RG_LOOPS r, O.RG_ROLE r, O.START_STEP, O.START_T (2 : Nat)])) ∧
  (∀ (s : State) (u : Nat), s.chip.switchAt = some u → s.uptime < u + 40 → exec .regionSwitchOn s = .next s) ∧
  (∀ (s : State) (r : RegionId) (lanes : Nat) (zeros : List Rat) (win : List (Rat × Rat)), s.getN (O.RG_STATE r) = 1 →
    ∃ t, exec (.regionReady r true true lanes zeros win) s = .next t ∧ t.getN (O.RG_STATE r) = 2 ∧ t.getN (O.RG_FLAGS r) = 1 ∧
      t.regions[r].lanes = lanes ∧
      (s.chip.applying ≠ some .commit →
        Keeps s { t with loops := s.loops, cells := s.cells, blocks := s.blocks, regions := s.regions, free := s.free }
          (fun a => a = O.RG_STATE r ∨ a = O.RG_FLAGS r ∨ among [O.BANK_STATE 0, O.START_STEP, O.START_T (2 : Nat),
            O.START_T (3 : Nat), O.RIP_STAT 0, O.TIM_STAT 0, O.LSAT_STAT 0, O.SLOT_POS 0] a)) ∧
      Moves s { t with blocks := s.blocks, regions := s.regions, free := s.free, fb := { t.fb with affected := s.fb.affected },
                       chip := { t.chip with applying := s.chip.applying } }
        (fun a => a = O.RG_STATE r ∨ a = O.RG_FLAGS r ∨ among [O.BANK_STATE 0, O.START_STEP, O.START_T (2 : Nat),
          O.START_T (3 : Nat), O.RIP_STAT 0, O.TIM_STAT 0, O.LSAT_STAT 0, O.TOPO_STATUS] a)) ∧
  (∀ (s : State) (r : RegionId) (pll : Bool) (lanes : Nat) (zeros : List Rat) (win : List (Rat × Rat)), s.getN (O.RG_STATE r) = 1 →
    ∃ t, exec (.regionReady r pll false lanes zeros win) s = .next t ∧ t.getN (O.RG_STATE r) = 3 ∧ t.getB O.REGION_AVAIL r = false ∧
      t.chip.failed = true ∧
      (s.chip.applying ≠ some .commit → t.chip = { s.chip with failed := true } ∧ Keeps s { t with chip := s.chip }
        (fun a => a = O.RG_STATE r ∨ a = O.RG_FLAGS r ∨ a = O.REGION_AVAIL ∨
          among [O.BUR_STATE 0, O.START_STEP, O.START_T (2 : Nat), O.START_T (3 : Nat)] a)) ∧
      Moves s { t with chip := { t.chip with failed := s.chip.failed, applying := s.chip.applying } }
        (fun a => a = O.RG_STATE r ∨ a = O.RG_FLAGS r ∨ a = O.REGION_AVAIL ∨
          among [O.START_STEP, O.START_T (2 : Nat), O.START_T (3 : Nat), O.TOPO_STATUS] a)) ∧
  (∀ s : State, startDone s = true →
    ∃ t, exec .startupComplete s = .next t ∧ t.getN O.START_STEP = 9 ∧
      t.getN O.LOCK_STAT = Nat.lor (s.getN O.LOCK_STAT) (s.getN O.LOCK_BOOT) ∧ { t.fb with affected := s.fb.affected } = s.fb ∧
      t.chip = { s.chip with applying := if s.chip.applying = some .recall then none else s.chip.applying } ∧
      t.getN O.TOPO_STATUS = (if s.chip.applying = some .recall then if s.chip.failed then 4 else 2 else s.getN O.TOPO_STATUS) ∧
      t.blobs = s.blobs ∧
      (∀ k : LoopId, s.isOn (O.START_REQ k) = true → s.getN (O.ON_SRC k) ≠ 1 → passive s = false → t.getN (O.LOOP_REQ k) = 1) ∧
      SameMemory s t)

/-! ### Clocks and freeze -/

/-- R35, R312, R313, R749: the reference's loss takes every PLL with it; a region PLL's or CK9's loss takes its own lock, and its return gives it
back. A loss may stop loops, and loop FB where CK9's PLL is lost. R35, R36: a region without CK0 handshake shows it in RG_FLAGS bit 1; when the
handshake returns, the bit clears and the messages that the region held go up the tree, in order. R607: JTAG debug freeze keeps the values that the
RO objects have; it ends with the device otherwise as it stands, when no journal entry waits. Where the spec leaves a point open, this follows log
entries 35 to 37. -/
def Obligations.ClocksHandshakeFreeze : Prop :=
  (∀ s : State, s.chip.ref = true → ∃ t, exec .refClockLoss s = .next t ∧ t.chip = { s.chip with ref := false } ∧ t.fb.pll = false ∧
    (∀ r : RegionId, regionReady s r = true → t.getB (O.RG_FLAGS r) 0 = false) ∧
    Moves s { t with chip := s.chip, fb := s.fb } (among [O.RG_FLAGS 0, O.FB_STATE, O.FB_FLT])) ∧
  (∀ s : State, ∃ t, exec .refClockRestore s = .next t ∧ t = { s with chip := { s.chip with ref := true } }) ∧
  (∀ (s : State) (r : RegionId), regionReady s r = true → ∃ t, exec (.regionPllLockLoss r) s = .next t ∧
    t.getB (O.RG_FLAGS r) 0 = false ∧ Moves s t (· = O.RG_FLAGS r)) ∧
  (∀ (s : State) (r : RegionId) (lanes : Nat), regionReady s r = true → pllLocked s r = false → s.chip.ref = true →
    ∃ t, exec (.regionPllRelock r lanes) s = .next t ∧ t.getB (O.RG_FLAGS r) 0 = true ∧ t.regions[r].lanes = lanes ∧
      Still s { t with regions := t.regions.set r s.regions[r], loops := s.loops, free := s.free } (· = O.RG_FLAGS r)) ∧
  (∀ s : State, s.fb.pll = true → ∃ t, exec .ck9PllLockLoss s = .next t ∧ t.fb.pll = false ∧
    Moves s { t with fb := s.fb } (among [O.FB_STATE, O.FB_FLT])) ∧
  (∀ s : State, s.chip.ref = true → s.fb.pll = false → ∃ t, exec .ck9PllRelock s = .next t ∧ t.fb.pll = true ∧
    200 * s.fb.n ≤ t.fb.zero ∧ t.fb.zero < 200 * s.fb.n + 200 ∧
    t = { s with fb := { s.fb with pll := true, zero := t.fb.zero }, free := s.free + 1 }) ∧
  (∀ s : State, s.fb.pll = true → exec .ck9PllRelock s = .next s) ∧
  (∀ (s : State) (r : RegionId), s.getN (O.RG_STATE r) ≠ 0 → s.regions[r].cut = false →
    ∃ t, exec (.ck0HandshakeLoss r) s = .next t ∧ t.getB (O.RG_FLAGS r) 1 = true ∧
      t.regions = s.regions.set r { s.regions[r] with cut := true, stale := t.regions[r].stale } ∧
      Still s { t with regions := s.regions } (· = O.RG_FLAGS r)) ∧
  (∀ (s : State) (r : RegionId) (absent : Nat), s.regions[r].cut = true →
    ∃ t, exec (.ck0HandshakeReturn r absent) s = .next (landWrites t s.regions[r].writes) ∧ t.getB (O.RG_FLAGS r) 1 = false ∧
      t.regions = s.regions.set r { s.regions[r] with cut := false, held := [], lost := [], writes := [], stale := [] } ∧
      t.tree = { s.tree with flight := s.tree.flight ++ s.regions[r].held ++ s.regions[r].lost } ∧
      Keeps s { t with regions := s.regions, tree := s.tree } (· = O.RG_FLAGS r)) ∧
  (∀ s : State, s.chip.main = true → s.chip.freeze = false → ∃ t, exec .jtagFreezeBegin s = .next t ∧
    t = { s with chip := { s.chip with freeze := true, frozen := freezeImage s } }) ∧
  (∀ s : State, s.chip.freeze = true → s.twin.journal = [] → ∃ t, exec .jtagFreezeEnd s = .next t ∧
    t.chip = { s.chip with freeze := false, frozen := [] } ∧ Keeps s { t with chip := s.chip, traces := s.traces } (fun _ => False))

/-! ### Topology and slot markers -/

/-- R96, R98: a commit whose checks all pass makes the staged topology active and TOPO_STATUS APPLYING, and adds 1 to TOPO_GEN; one that fails a
check reads REJECTED with the lowest failing check. R97: a discard copies the active objects to the staging objects. R98: regions that hold no loop
go off. -/
def Obligations.TopologyCommit : Prop :=
  (∀ (s : State) (q : Requester), Admitted s q O.TOPO_CMD [0xC5] →
    topoBad s (activeTopo s) (stagedTopo s) (((List.range 12).map (· + 1)).filter fun c => !((q == .twin) && c == 2)) = [] →
    ∃ t, exec (.topoCommit q) s = .next t ∧ t.getN O.TOPO_STATUS = 1 ∧ t.getN O.TOPO_REASON = 0 ∧
      t.getN O.TOPO_GEN = (s.getN O.TOPO_GEN + 1) % 2 ^ 32 ∧ (∀ b < 24, t.getN (O.BLK_LOOP b) = s.getN (O.BLK_LOOP_STG b)) ∧
      t.getN O.FB_MASK = s.getN O.FB_MASK_STG ∧
      t.chip = { s.chip with rising := regionsToRise t, switchAt := none, failed := false, applying := some .commit } ∧
      Written s { t with chip := s.chip, loops := s.loops, cells := s.cells, fb := { t.fb with affected := s.fb.affected } }
        (fun a => arrays [O.BLK_LOOP 0, O.LOOP_MASTER 0, O.LOOP_RATE 0] a ∨
          among [O.TOPO_STATUS, O.TOPO_REASON, O.TOPO_REASONS, O.TOPO_UNIT, O.TOPO_GEN, O.FB_MASK, O.BUR_VALID 0, O.RG_LOOPS 0,
            O.RG_ROLE 0, O.SLOT_POS 0] a)) ∧
  (∀ (s : State) (q : Requester) (c u : Nat) (l : List (Nat × Nat)), Admitted s q O.TOPO_CMD [0xC5] →
    topoBad s (activeTopo s) (stagedTopo s) (((List.range 12).map (· + 1)).filter fun c => !((q == .twin) && c == 2)) = (c, u) :: l →
    ∃ t, exec (.topoCommit q) s = .next t ∧ t.getN O.TOPO_STATUS = 3 ∧ t.getN O.TOPO_REASON = c ∧ t.getN O.TOPO_UNIT = u ∧
      Written s t (· ∈ [O.TOPO_STATUS, O.TOPO_REASON, O.TOPO_UNIT, O.TOPO_REASONS])) ∧
  (∀ (s : State) (q : Requester), Admitted s q O.TOPO_CMD [0x5C] → ∃ t, exec (.topoDiscard q) s = .next t ∧
    (∀ b < 24, t.get (O.BLK_LOOP_STG b) = s.get (O.BLK_LOOP b)) ∧
    (∀ k < 8, t.get (O.LOOP_MASTER_STG k) = s.get (O.LOOP_MASTER k)) ∧ t.get O.FB_MASK_STG = s.get O.FB_MASK ∧
    Written s t (fun a => arrays [O.BLK_LOOP_STG 0, O.LOOP_MASTER_STG 0] a ∨ a = O.FB_MASK_STG)) ∧
  (∀ s : State, s.chip.applying = some .commit → (∀ r : RegionId, heldBy s r = [] → s.regions[r].writes = []) →
    ∃ t, exec .topoRegionOff s = .next t ∧ t.chip.bus = (activeTopo s).schedule ∧
    (∀ r : RegionId, heldBy s r = [] → t.getN (O.RG_STATE r) = 0) ∧
    (∀ r : RegionId, heldBy s r ≠ [] → t.getN (O.RG_STATE r) = s.getN (O.RG_STATE r)) ∧
    Moves s { t with blocks := s.blocks, regions := s.regions, traces := s.traces, fb := { t.fb with affected := s.fb.affected },
                     chip := { t.chip with bus := s.chip.bus, applying := s.chip.applying } }
      (among [O.TOPO_STATUS, O.RG_STATE 0, O.RG_FLAGS 0, O.DIE_T 0, O.DIE_BAND 0, O.DIE_STAT 0, O.DIE_ROR 0, O.IMREF_MEAS 0,
        O.IMREF_STAT 0, O.TMON_T 0, O.TMON_MV 0, O.TMON_BAND 0, O.TMON_STAT 0, O.TMON_ROR 0, O.IMON_RAW 0, O.IMON_CUR 0, O.IMON_BAND 0,
        O.LEDGER 0, O.TON_LAST 0, O.CS_GT 0, O.RG_LOOPS 0, O.RG_ROLE 0, O.TR_STAT 0, O.BLK_FLT 0, O.LEDGER_DROP 0, O.RUNT_CNT 0, O.CELL_FLT 0]))

/-- R85, R86, R88 to R90: what a marker strobe does to a follower's tracker, when the tracker gets lock, and what its loss and a far marker do: the
latch MARKER stops the loop, also where 64 samples in ARMED have brought no lock; ALIGN_ERROR only starts its count again. Where the spec leaves a
point open, this follows log entry 98. -/
def Obligations.MarkerTracking : Prop :=
  (∀ (s : State) (k : LoopId) (r : RegionId) (strobe : Bool) (stamp num period : Nat), follows s k r = true →
    let e := markerError s k r stamp period
    ∃ t, exec (.markerStrobeRx k r strobe stamp num period) s = .next t ∧
      t.loops[k].track[r].missing = (if strobe then 0 else s.loops[k].track[r].missing + 1) ∧
      t.loops[k].track[r].num = some num ∧ t.loops[k].track[r].outSeq =
        (match s.loops[k].track[r].num with
          | some p => if num % 256 = (p + 1) % 256 then 0 else s.loops[k].track[r].outSeq + 1
          | none => 0) ∧
      t.loops[k].track[r].good = (if strobe = true ∧ e.natAbs ≤ 8 then s.loops[k].track[r].good + 1 else 0) ∧
      t.loops[k].track[r].far = (if strobe then if 16 < e.natAbs then s.loops[k].track[r].far + 1 else 0 else s.loops[k].track[r].far) ∧
      (strobe = true → t.loops[k].track[r].adjust = -(Int.tdiv e 4)) ∧
      t.loops[k].track[r].lock = s.loops[k].track[r].lock ∧
      { t with loops := t.loops.set k { t.loops[k] with track := t.loops[k].track.set r s.loops[k].track[r] } } = s) ∧
  (∀ (s : State) (k : LoopId) (r : RegionId), follows s k r = true → 16 ≤ s.loops[k].track[r].good →
    ∃ t, exec (.markerLock k r) s = .next t ∧ t.loops[k].track[r].lock = true ∧ t.getB (O.RG_FLAGS r) 3 = true ∧
      Still s { t with loops := t.loops.set k { t.loops[k] with track := t.loops[k].track.set r s.loops[k].track[r] } }
        (· = O.RG_FLAGS r)) ∧
  (∀ (s : State) (k : LoopId), s.getN (O.LOOP_STATE k) = 1 → 64 ≤ s.loops[k].ctl.armedSamples →
    (followersOf s k).any (fun r => !s.loops[k].track[regionOf r].lock) = true →
    ∃ t, exec (.markerLockTimeout k) s = .next t ∧ t.getB (O.LOOP_FLT k) 10 = true ∧ Moves s t (fun _ => False)) ∧
  (∀ (s : State) (k : LoopId) (r : RegionId), follows s k r = true →
    16 ≤ s.loops[k].track[r].missing ∨ 16 ≤ s.loops[k].track[r].outSeq → s.getN (O.LOOP_STATE k) ≠ 0 →
    ∃ t, exec (.markerLoss k r) s = .next t ∧ t.getB (O.LOOP_FLT k) 10 = true ∧ t.getB (O.RG_FLAGS r) 3 = false ∧
      Moves s t (· = O.RG_FLAGS r)) ∧
  (∀ (s : State) (k : LoopId) (r : RegionId), follows s k r = true → 8 ≤ s.loops[k].track[r].far →
    ∃ t, exec (.alignError k r) s = .next t ∧ t.loops[k].track[r].far = 0 ∧
      Keeps s { t with loops := t.loops.set k { t.loops[k] with track := t.loops[k].track.set r s.loops[k].track[r] } }
        (fun _ => False))

/-! ### The sample -/

/-- R184, R76, R189, R190, R192, R35, R81: the master's sample tick of a running loop counts a sample; at the deadline a computed result comes into
force and MISS_CONSEC reads 0, while an overrun counts a miss; a follower without the duty keeps the one it has and counts as late (R79); 64 late
samples in a row at a follower set the latch SHAREBUS. R31, R186: a tick outside the loop's slots does nothing. Where the spec leaves a point open,
this follows log entries 6, 16 to 19, 73, 82 and 84 to 90. -/
def Obligations.SampleAndDeadline : Prop :=
  (∀ (s : State) (k : LoopId) (i : SampleIn), masterOf s k ≠ 255 → regionReady s (masterOf s k) = true → pllLocked s (masterOf s k) = true →
    slotOpen s k i.tick = true → running s k = true → ∃ t, exec (.loopSampleTick k i) s = .next t ∧ t.loops[k].eng.sample = s.loops[k].eng.sample + 1 ∧
      t.loops[k].eng.tick = i.tick ∧ (∀ j : LoopId, j ≠ k → t.loops[j].eng.sample = s.loops[j].eng.sample) ∧
      Moves s { t with traces := s.traces, regions := s.regions, free := s.free }
        (among [O.BANK_SW_CNT 0, O.BFF_STAT 0, O.DROOP_NOW 0, O.FBL_COUNT 0, O.VLS_OFFSET 0, O.IMON_CUR 0, O.ISUM_MEAS 0, O.LI_STAT 0, O.LSAT_S 0, O.PS_BUDGET 0,
          O.PS_POWER 0, O.SK_CONF_CNT 0, O.SK_INK_CNT 0, O.SK_TCONF_SUM 0, O.SP_NOW 0, O.SP_TARGET 0, O.SRC_STAT 0,
          O.STSAT_CNT 0, O.TR_STAT 0, O.VOUT_MEAS 0, O.WIN_CENTRE 0])) ∧
  (∀ (s : State) (k : LoopId) (i : SampleIn), slotOpen s k i.tick = false → exec (.loopSampleTick k i) s = .next s) ∧
  (∀ (s : State) (k : LoopId) (late : List RegionId), masterOf s k ≠ 255 → regionReady s (masterOf s k) = true →
    pllLocked s (masterOf s k) = true → running s k = true → s.loops[k].eng.overrun = false → s.loops[k].eng.late = false →
    late.any (fun r => (followersOf s k).contains r.val) = false →
    ∃ t, exec (.sampleDeadlineLatch k late) s = .next t ∧ t.getN (O.MISS_CONSEC k) = 0 ∧
      (∀ f, s.loops[k].eng.result = some f → t.loops[k].eng.duty = f.duty ∧ t.loops[k].eng.result = none) ∧
      Still s { t with loops := t.loops.set k s.loops[k], cells := s.cells, seen := s.seen,
                       twin := { t.twin with digest := s.twin.digest } } (· = O.MISS_CONSEC k)) ∧
  (∀ (s : State) (k : LoopId) (r : RegionId) (late : List RegionId), masterOf s k ≠ 255 → regionReady s (masterOf s k) = true →
    pllLocked s (masterOf s k) = true → running s k = true → (followersOf s k).contains r.val = true → late.contains r = true →
    ∃ t, exec (.sampleDeadlineLatch k late) s = .next t ∧
      t.loops[k].track[r].lateDown = s.loops[k].track[r].lateDown + 1 ∧ t.loops[k].track[r].duty = s.loops[k].track[r].duty ∧
      t.getN (O.MISS_CNT k) = (s.getN (O.MISS_CNT k) + 1) % 2 ^ 32 ∧ t.getB (O.ENG_FLAGS k) 3 = true ∧
      Still s { t with loops := t.loops.set k s.loops[k], cells := s.cells, seen := s.seen,
                       twin := { t.twin with digest := s.twin.digest } }
        (· ∈ [O.MISS_CNT k, O.MISS_TOTAL k, O.MISS_CONSEC k, O.ENG_FLAGS k])) ∧
  (∀ (s : State) (k : LoopId) (late : List RegionId), masterOf s k ≠ 255 → regionReady s (masterOf s k) = true →
    pllLocked s (masterOf s k) = true → running s k = true → s.loops[k].eng.overrun = true →
    ∃ t, exec (.sampleDeadlineLatch k late) s = .next t ∧ t.getN (O.MISS_CNT k) = (s.getN (O.MISS_CNT k) + 1) % 2 ^ 32 ∧
      t.getN (O.MISS_CONSEC k) = min 64 (s.getN (O.MISS_CONSEC k) + 1) ∧ t.getB (O.ENG_FLAGS k) 0 = true ∧
      t.getB (O.ENG_FLAGS k) 2 = true ∧
      Still s { t with loops := t.loops.set k s.loops[k], cells := s.cells, seen := s.seen,
                       twin := { t.twin with digest := s.twin.digest } }
        (· ∈ [O.MISS_CNT k, O.MISS_TOTAL k, O.MISS_CONSEC k, O.ENG_FLAGS k])) ∧
  (∀ (s : State) (k : LoopId) (r : RegionId) (d : BusDir), running s k = true → (followersOf s k).contains r.val = true →
    (match d with | .up => 64 ≤ s.loops[k].track[r].lateUp | .down => 64 ≤ s.loops[k].track[r].lateDown) →
    ∃ t, exec (.sharebusTimeout k r d) s = .next t ∧ t.getB (O.LOOP_FLT k) 9 = true ∧ Moves s t (fun _ => False))

/-! ### Conversions and the cells' own errors -/

/-- R20, R114, R122, R124, R475: a conversion puts its value into its object and its unit's record, and touches no other unit. Where the spec leaves
a point open, this follows log entries 6 and 8. -/
def Obligations.Conversions : Prop :=
  (∀ (s : State) (n : CellId) (code : Fin 1024) (ap : Nat) (mv : Int), regionReady s (n / 12) = true →
    (loopOfCell s n).isSome = true → ∃ t, exec (.imonConversion n code ap mv) s = .next t ∧ t.getN (O.IMON_RAW n) = code ∧
      t.cells[n].conv = ((ap, code.val) :: s.cells[n].conv).take 8 ∧
      Still s { t with cells := t.cells.set n s.cells[n], seen := s.seen } (· = O.IMON_RAW n)) ∧
  (∀ (s : State) (n : CellId) (code : Fin 1024) (ap : Nat) (mv : Int), loopOfCell s n = none →
    exec (.imonConversion n code ap mv) s = .next s) ∧
  (∀ (s : State) (b : BlockId) (code : Fin 1024), regionReady s (b / 3) = true →
    ∃ t, exec (.tmonConversion b code) s = .next t ∧ t.getN (O.TMON_MV b) = (toStep ((code.val : Rat) * 1800 / 1024)).toNat ∧
      (s.blocks[b].sens.failed = false → t.get (O.TMON_T b) = clampI (roundUpTies
        (((code.val : Rat) * 1800 / 1024 - s.get O.TM_V0) * 8000 / (max 1 (s.getN O.TM_SLOPE) : Nat))) (-600) 1200) ∧
      Still s { t with blocks := t.blocks.set b s.blocks[b], cells := s.cells, chip := { t.chip with coolAt := s.chip.coolAt } }
        (· ∈ [O.TMON_MV b, O.TMON_T b, O.TMON_BAND b, O.TMON_STAT b])) ∧
  (∀ (s : State) (i : Fin 9) (v : Int) (ok : Bool), s.chip.main = true →
    ∃ t, exec (.dieSensorConversion i v ok) s = .next t ∧ (sensOf t (dieOf i)).own.head? = some (clampI v (-440) 1400) ∧
      ((sensOf s (dieOf i)).failed = false → sensOn s (dieOf i) = true → t.get (sensT (dieOf i)) = clampI v (-440) 1400) ∧
      Still s { t with regions := s.regions, chip := { t.chip with sens := s.chip.sens, coolAt := s.chip.coolAt } }
        (· ∈ [sensT (dieOf i), sensBand (dieOf i), sensStat (dieOf i)])) ∧
  (∀ (s : State) (code : Fin 4096), s.chip.main = true →
    ∃ t, exec (.busConversion code) s = .next t ∧ t.fb.vbus = dividerVolts code (s.getN O.VBUS_DIV) ∧
      t.getN O.VBUS_MEAS = min 30000 (toStep (dividerVolts code (s.getN O.VBUS_DIV) * 1000)).toNat ∧
      Keeps s { t with fb := { t.fb with vbus := s.fb.vbus, vbusCode := s.fb.vbusCode, vbusLast := s.fb.vbusLast,
                                         fbOv := s.fb.fbOv, fbUv := s.fb.fbUv },
                        loops := s.loops, seen := s.seen }
        (fun a => a = O.VBUS_MEAS ∨ among [O.BUR_STATE 0] a)) ∧
  (∀ (s : State) (code : Fin 4096), s.chip.main = true →
    ∃ t, exec (.vinConversion code) s = .next t ∧ t.fb.vin = dividerVolts code (s.getN O.VIN_DIV) ∧
      t.getN O.VIN_MEAS = min 120000 (toStep (dividerVolts code (s.getN O.VIN_DIV) * 1000)).toNat ∧
      Still s { t with fb := { t.fb with vin := s.fb.vin, vinCode := s.fb.vinCode, vinUv := s.fb.vinUv }, seen := s.seen } (· = O.VIN_MEAS))

/-- R20, R117, R340, R357: a cell's own error sets its latch, counts in CELL_TRIP_CNT, sends one report up the tree and leaves the policy to the
next sample boundary; an IMREF outside its window does so for the four cells of its block with one report, and one inside it clears IMREF_STAT.
R110, R111, R126, R127: a learning step takes the first mean whole and later ones through the filter, and shows the offset in VLS_OFFSET; a zero
calibration of a loop in ARMED is noted for the window ADCs or for one cell. Where the spec leaves a point open, this follows log entries 50 and 57. -/
def Obligations.CellErrorsAndCalibration : Prop :=
  (∀ (s : State) (n : CellId) (k : LoopId), regionReady s (n / 12) = true → loopOfCell s n = some k → isOff s k = false →
    latchSet s (.cell n 3) = false → ∀ c : Instr,
    (c = .imonStuck n ∧ switching s n = true ∧ 256 ≤ s.cells[n].same) ∨ (c = .imonSaturated n ∧ 16 ≤ s.cells[n].sat) ∨
      (c = .imonOutOfRange n ∧ 16 ≤ s.cells[n].oor) →
    ∃ t, exec c s = .next t ∧ t.getB (O.CELL_FLT n) 3 = true ∧
      t.getN (O.CELL_TRIP_CNT n) = (s.getN (O.CELL_TRIP_CNT n) + 1) % 2 ^ 32 ∧ t.loops[k].ctl.trip.isSome = true ∧
      t.tree.flight.length = s.tree.flight.length + 1 ∧ t.cells[n] = { s.cells[n] with shedBy := t.cells[n].shedBy } ∧
      Still s { t with loops := t.loops.set k s.loops[k], cells := t.cells.set n s.cells[n], seen := s.seen,
                       tree := { t.tree with flight := s.tree.flight } }
        (· ∈ [O.CELL_FLT n, O.CELL_TRIP_CNT n])) ∧
  (∀ (s : State) (n : CellId) (k : LoopId), cellWatched s n = true → loopOfCell s n = some k → isOff s k = false →
    latchSet s (.cell n 4) = false →
    ∃ t, exec (.pwmReadbackMismatch n) s = .next t ∧ t.getB (O.CELL_FLT n) 4 = true ∧
      t.getN (O.CELL_TRIP_CNT n) = (s.getN (O.CELL_TRIP_CNT n) + 1) % 2 ^ 32 ∧ t.loops[k].ctl.trip.isSome = true ∧
      t.tree.flight.length = s.tree.flight.length + 1 ∧ t.cells[n] = { s.cells[n] with shedBy := t.cells[n].shedBy } ∧
      Still s { t with loops := t.loops.set k s.loops[k], cells := t.cells.set n s.cells[n], seen := s.seen,
                       tree := { t.tree with flight := s.tree.flight } }
        (· ∈ [O.CELL_FLT n, O.CELL_TRIP_CNT n])) ∧
  (∀ (s : State) (b : BlockId) (mv : Nat), regionReady s (b / 3) = true → 400 ≤ mv → mv ≤ 1600 →
    ∃ t, exec (.imrefOutOfWindow b mv) s = .next t ∧ t.getN (O.IMREF_MEAS b) = mv ∧ t.getN (O.IMREF_STAT b) = 0 ∧
      Still s t (· ∈ [O.IMREF_MEAS b, O.IMREF_STAT b])) ∧
  (∀ (s : State) (b : BlockId) (k : LoopId) (mv : Nat), regionReady s (b / 3) = true → mv < 400 ∨ 1600 < mv →
    loopOfBlock s b = some k → isOff s k = false → (∀ i < 4, latchSet s (.cell (cellOf (4 * b + i)) 3) = false) →
    ∃ t, exec (.imrefOutOfWindow b mv) s = .next t ∧ t.getN (O.IMREF_MEAS b) = min mv 1800 ∧
      t.getN (O.IMREF_STAT b) = (if mv < 400 then 1 else 2) ∧ (∀ i < 4, t.getB (O.CELL_FLT (4 * b + i)) 3 = true) ∧
      t.tree.flight.length = s.tree.flight.length + 1 ∧ t.loops[k].ctl.trip.isSome = true ∧
      (∀ n : CellId, t.cells[n] = { s.cells[n] with shedBy := t.cells[n].shedBy } ∧ (n.val / 4 ≠ b.val → t.cells[n] = s.cells[n])) ∧
      Still s { t with loops := t.loops.set k s.loops[k], cells := s.cells, seen := s.seen, tree := { t.tree with flight := s.tree.flight } }
        (fun a => a = O.IMREF_MEAS b ∨ a = O.IMREF_STAT b ∨ ∃ i < 4, a = O.CELL_FLT (4 * b + i) ∨ a = O.CELL_TRIP_CNT (4 * b + i))) ∧
  (∀ (s : State) (k : LoopId), s.getN (O.LOOP_STATE k) = 3 → s.getN (O.VS_STATE k) = 0 → s.isOn (O.VLS_FIT k) = true →
    bits (s.getN (O.FBL_FLAGS k)) 0 5 = 0 → 0 < s.loops[k].sn.learnN →
    ∃ t, exec (.vlsOffsetLearn k) s = .next t ∧ t.loops[k].sn.updates = s.loops[k].sn.updates + 1 ∧
      (s.loops[k].sn.updates = 0 → t.loops[k].sn.offset = s.loops[k].sn.learnSum / s.loops[k].sn.learnN) ∧
      (s.loops[k].sn.updates ≠ 0 → t.loops[k].sn.offset =
        s.loops[k].sn.offset + (s.loops[k].sn.learnSum / s.loops[k].sn.learnN - s.loops[k].sn.offset) / 1024) ∧
      t.get (O.VLS_OFFSET k) = clampI (toStep (t.loops[k].sn.offset * 1000000)) (-256000) 256000 ∧
      Still s { t with loops := t.loops.set k s.loops[k] } (· ∈ [O.VLS_OFFSET k, O.FBL_FLAGS k])) ∧
  (∀ (s : State) (k : LoopId) (z zl : Rat), s.getN (O.LOOP_STATE k) = 1 ∨ burning s k = true → ∃ t, exec (.zeroCalDone k none z zl) s = .next t ∧
    t.loops[k].ctl.winZero = true ∧ t.loops[k].sn.zero = z ∧ t.loops[k].sn.zeroLocal = zl ∧
    { t with loops := t.loops.set k { t.loops[k] with
                        ctl := { t.loops[k].ctl with winZero := s.loops[k].ctl.winZero }
                        sn := { t.loops[k].sn with zero := s.loops[k].sn.zero, zeroLocal := s.loops[k].sn.zeroLocal } } } = s) ∧
  (∀ (s : State) (k : LoopId) (n : CellId) (z zl : Rat), s.getN (O.LOOP_STATE k) = 1 → loopOfCell s n = some k →
    regionReady s (n / 12) = true → ∃ t, exec (.zeroCalDone k (some n) z zl) s = .next t ∧
      t = { s with cells := s.cells.set n { s.cells[n] with zeroDone := true, zero := z } })

/-! ### Feedback loss -/

/-- R131, R138 to R140: an open sense pin shows in FBL_FLAGS; in REMOTE the loop takes local sense where the learned offset is valid, else it goes
to OBSERVER-ONLY; FBL_COUNT counts the change. R135 to R138: a frozen window ADC, a run of saturated samples and a divergence take the loop to
OBSERVER-ONLY with their own flag. Where the spec leaves a point open, this follows log entries 51 and 52. -/
def Obligations.FeedbackLoss : Prop :=
  (∀ (s : State) (k : LoopId) (dp dn : Int) (held : Nat),
    let p := decide (s.ef k (O.OPEN_TH k) < dp) && (s.getB (O.FBL_FLAGS k) 0 || decide (1000 ≤ held))
    let n := decide (dn < -s.ef k (O.OPEN_TH k)) && (s.getB (O.FBL_FLAGS k) 1 || decide (1000 ≤ held))
    running s k = false ∨ (p || n) = false → ∃ t, exec (.openSenseDetect k dp dn held) s = .next t ∧
      t.getB (O.FBL_FLAGS k) 0 = p ∧ t.getB (O.FBL_FLAGS k) 1 = n ∧ Still s { t with seen := s.seen } (· = O.FBL_FLAGS k)) ∧
  (∀ (s : State) (k : LoopId) (dp dn : Int) (held : Nat),
    let p := decide (s.ef k (O.OPEN_TH k) < dp) && (s.getB (O.FBL_FLAGS k) 0 || decide (1000 ≤ held))
    let n := decide (dn < -s.ef k (O.OPEN_TH k)) && (s.getB (O.FBL_FLAGS k) 1 || decide (1000 ≤ held))
    running s k = true → (p || n) = true → s.getN (O.VS_STATE k) = 0 →
    s.isOn (O.VLS_FIT k) = true → s.getB (O.FBL_FLAGS k) 5 = true → ∃ t, exec (.openSenseDetect k dp dn held) s = .next t ∧
      t.getB (O.FBL_FLAGS k) 0 = p ∧ t.getB (O.FBL_FLAGS k) 1 = n ∧ t.getN (O.VS_STATE k) = 1 ∧
      t.getN (O.FBL_COUNT k) = (s.getN (O.FBL_COUNT k) + 1) % 2 ^ 32 ∧
      Keeps s { t with loops := t.loops.set k s.loops[k], seen := s.seen }
        (· ∈ [O.FBL_FLAGS k, O.VS_STATE k, O.FBL_COUNT k, O.VLS_OFFSET k])) ∧
  (∀ (s : State) (k : LoopId) (dp dn : Int) (held : Nat),
    let p := decide (s.ef k (O.OPEN_TH k) < dp) && (s.getB (O.FBL_FLAGS k) 0 || decide (1000 ≤ held))
    let n := decide (dn < -s.ef k (O.OPEN_TH k)) && (s.getB (O.FBL_FLAGS k) 1 || decide (1000 ≤ held))
    running s k = true → (p || n) = true → s.getN (O.VS_STATE k) = 0 →
    s.getB (O.FBL_FLAGS k) 5 = false → grounded s k = false → ∃ t, exec (.openSenseDetect k dp dn held) s = .next t ∧
      t.getB (O.FBL_FLAGS k) 0 = p ∧ t.getB (O.FBL_FLAGS k) 1 = n ∧
      t.getN (O.VS_STATE k) = 3 ∧ t.getN (O.FBL_COUNT k) = (s.getN (O.FBL_COUNT k) + 1) % 2 ^ 32 ∧ t.loops[k].sn.limit = 50 ∧
      Keeps s { t with loops := t.loops.set k s.loops[k], aml := s.aml, seen := s.seen }
        (· ∈ [O.FBL_FLAGS k, O.VS_STATE k, O.FBL_COUNT k, O.ILIM_SCALE k])) ∧
  (∀ (s : State) (k : LoopId) (c : Instr) (b : Nat), running s k = true → observing s k = false → grounded s k = false →
    (c = .frozenAdcDetect k ∧ b = 2 ∧ frozenNow s k = true) ∨
      (c = .satRunDetect k ∧ b = 4 ∧ s.efN k (O.SAT_RUN k) ≤ s.loops[k].sn.satRun) ∨
      (c = .divergenceDetect k ∧ b = 3 ∧ (16 ≤ s.loops[k].sn.divV ∨ 16 ≤ s.loops[k].sn.divI)) →
    ∃ t, exec c s = .next t ∧ t.getB (O.FBL_FLAGS k) b = true ∧ t.getN (O.VS_STATE k) = 3 ∧
      t.getN (O.FBL_COUNT k) = (s.getN (O.FBL_COUNT k) + 1) % 2 ^ 32 ∧ t.loops[k].sn.limit = 50 ∧
      Keeps s { t with loops := t.loops.set k s.loops[k], aml := s.aml }
        (· ∈ [O.FBL_FLAGS k, O.VS_STATE k, O.FBL_COUNT k, O.ILIM_SCALE k]))

/-- R142, R143, R145, R148, R149: a loop in OBSERVER-ONLY returns to the source that it has after 8 good samples; when BLIND_MAX elapses it stops
softly, or by the latch BLIND in SOFTSTOP, and a STANDBY only records; the current limit returns in steps of 5 percent; VS_SRC_SEL chooses the
source, in OFF at once, and else from the effective sample of R49 and R50. Where the spec leaves a point open, this follows log entries 5, 47, 51 and
53. -/
def Obligations.FeedbackReturn : Prop :=
  (∀ (s : State) (k : LoopId), running s k = true → observing s k = true → 8 ≤ s.loops[k].sn.good → s.loops[k].ctl.blindStop = false →
    s.loops[k].eng.tick < s.loops[k].sn.blindAt + s.efN k (O.BLIND_MAX k) * 2000 →
    ∃ t, exec (.fblRecover k) s = .next t ∧
      t.getN (O.VS_STATE k) = (if s.loops[k].sn.obsLocal then (if s.getN (O.VS_SRC_SEL k) = 1 then 2 else 1) else 0) ∧
      t.loops[k].sn.restoring = true ∧
      Keeps s { t with loops := t.loops.set k s.loops[k] } (· ∈ [O.FBL_FLAGS k, O.VS_STATE k])) ∧
  (∀ (s : State) (k : LoopId), running s k = true → observing s k = true → s.loops[k].ctl.blindStop = false →
    s.loops[k].sn.blindAt + s.efN k (O.BLIND_MAX k) * 2000 ≤ s.loops[k].eng.tick → ∃ t, exec (.blindMaxExpire k) s = .next t ∧
      (standby s = true → Keeps s t (fun _ => False)) ∧
      (standby s = false → s.getN (O.LOOP_STATE k) ≠ 4 → t.getN (O.LOOP_STATE k) = 4 ∧ t.loops[k].ctl.blindStop = true) ∧
      (standby s = false → s.getN (O.LOOP_STATE k) = 4 → t.getB (O.LOOP_FLT k) 12 = true) ∧ Moves s t (fun _ => False)) ∧
  (∀ (s : State) (k : LoopId), s.loops[k].sn.restoring = true → s.loops[k].sn.limit < 100 →
    s.loops[k].sn.backAt + ((s.loops[k].sn.limit - 50) / 5 + 1) * 20000 ≤ s.loops[k].eng.tick →
    ∃ t, exec (.ilimRestoreStep k) s = .next t ∧ t.loops[k].sn.limit = s.loops[k].sn.limit + 5 ∧
      Still s { t with loops := t.loops.set k s.loops[k], aml := s.aml } (· = O.ILIM_SCALE k)) ∧
  (∀ (s : State) (q : Requester) (k : LoopId), Admitted s q (O.VS_SRC_SEL k) [1] → s.isOn (O.VLS_FIT k) = true →
    s.getN (O.LOOP_STATE k) = 0 → ∃ t, exec (.vsSrcSelWrite q k 1) s = .next t ∧ t.getN (O.VS_SRC_SEL k) = 1 ∧ t.getN (O.VS_STATE k) = 2 ∧
      t.getN (O.FBL_COUNT k) = (if s.getN (O.VS_STATE k) = 2 then s.getN (O.FBL_COUNT k) else (s.getN (O.FBL_COUNT k) + 1) % 2 ^ 32) ∧
      Written s t (· ∈ [O.VS_SRC_SEL k, O.VS_STATE k, O.FBL_COUNT k])) ∧
  (∀ (s : State) (q : Requester) (k : LoopId), Admitted s q (O.VS_SRC_SEL k) [0] → s.getB (O.FBL_FLAGS k) 0 = false →
    s.getB (O.FBL_FLAGS k) 1 = false → observing s k = false → s.getN (O.LOOP_STATE k) = 0 →
    ∃ t, exec (.vsSrcSelWrite q k 0) s = .next t ∧ t.getN (O.VS_SRC_SEL k) = 0 ∧ t.getN (O.VS_STATE k) = 0 ∧
      Written s { t with loops := t.loops.set k s.loops[k] } (· ∈ [O.VS_SRC_SEL k, O.VS_STATE k])) ∧
  (∀ (s : State) (q : Requester) (k : LoopId) (v : Nat), v ≤ 1 → Admitted s q (O.VS_SRC_SEL k) [BitVec.ofNat 8 v] →
    (v = 0 → s.getB (O.FBL_FLAGS k) 0 = false ∧ s.getB (O.FBL_FLAGS k) 1 = false ∧ observing s k = false) →
    (v = 1 → s.isOn (O.VLS_FIT k) = true ∧ s.getB (O.FBL_FLAGS k) 5 = true) → s.getN (O.LOOP_STATE k) ≠ 0 →
    ∃ t n, exec (.vsSrcSelWrite q k v) s = .next t ∧ t.getN (O.VS_SRC_SEL k) = v ∧ t.getN (O.VS_STATE k) = s.getN (O.VS_STATE k) ∧
      t.loops[k].sn.srcNext = some (v, n) ∧ s.loops[k].eng.sample + (if (regionsOf s k).length ≤ 1 then 1 else 2) ≤ n ∧
      Written s { t with loops := t.loops.set k s.loops[k] } (· = O.VS_SRC_SEL k))

/-! ### Coefficient banks and tables -/

/-- R168, R170, R171: a commit whose checks pass stores the staged image; the bank reads LOADING while the master region is powered, else VALID at
once, and the staging copy is gone; a failing check is shown in BANK_ERR and changes no bank. Emptying leaves the bank EMPTY without an image, and
is refused of the active bank and of one that is LOADING; a discard drops the staging copy; an image that has arrived makes its bank VALID. -/
def Obligations.BankCommands : Prop :=
  (∀ (s : State) (q : Requester) (k : LoopId) (m : BankId), Admitted s q (O.BANK_CMD k) [BitVec.ofNat 8 (0x10 + m.val)] →
    commitCheck s q k m = 0 → ∃ t, exec (.bankCommit q k m) s = .next t ∧
      bankState t k m = (if masterUp s k then 1 else 2) ∧ t.getN (O.BANK_ERR k) = 0 ∧
      (lookupAt t.blobs (O.BANK k m)).getD [] = staged s q (O.BANK k m) ∧ staged t q (O.BANK k m) = [] ∧
      Written s { t with blobs := s.blobs, loops := s.loops, cells := s.cells, aml := s.aml, tree := s.tree, seen := s.seen,
                         twin := { t.twin with abdDue := s.twin.abdDue } }
        (fun a => a ∈ [O.BANK_STATE k, O.BANK_ERR k, O.BANK_TAG k m, O.BANK_CRC k m] ∨ among loopTemplates a)) ∧
  (∀ (s : State) (q : Requester) (k : LoopId) (m : BankId), Admitted s q (O.BANK_CMD k) [BitVec.ofNat 8 (0x10 + m.val)] →
    commitCheck s q k m ≠ 0 → ∃ t, exec (.bankCommit q k m) s = .next t ∧ t.getN (O.BANK_ERR k) = commitCheck s q k m ∧
      Written s t (· = O.BANK_ERR k)) ∧
  (∀ (s : State) (q : Requester) (k : LoopId) (m : BankId), Admitted s q (O.BANK_CMD k) [BitVec.ofNat 8 (0x20 + m.val)] →
    bankActive s k ≠ m.val → bankState s k m ≠ 1 → ∃ t, exec (.bankEmpty q k m) s = .next t ∧
      bankState t k m = 0 ∧ lookupAt t.blobs (O.BANK k m) = none ∧
      Written s { t with blobs := s.blobs, loops := t.loops.set k s.loops[k] } (· ∈ [O.BANK_STATE k, O.BANK_TAG k m, O.BANK_CRC k m])) ∧
  (∀ (s : State) (q : Requester) (k : LoopId) (m : BankId), Admitted s q (O.BANK_CMD k) [BitVec.ofNat 8 (0x20 + m.val)] →
    bankActive s k = m.val ∨ bankState s k m = 1 → ∃ t, exec (.bankEmpty q k m) s = .next t ∧
      (t.rqOf q).lastAbort = (if bankActive s k = m.val then 0xA032 else 0xA030) ∧ { t with req := s.req } = s) ∧
  (∀ (s : State) (q : Requester) (k : LoopId) (m : BankId), Admitted s q (O.BANK_CMD k) [BitVec.ofNat 8 (0x30 + m.val)] →
    ∃ t, exec (.bankDiscard q k m) s = .next t ∧ staged t q (O.BANK k m) = [] ∧
      (∀ a, a ≠ O.BANK k m → staged t q a = staged s q a) ∧ Written s t (fun _ => False)) ∧
  (∀ (s : State) (k : LoopId) (m : BankId), bankState s k m = 1 → ∃ t, exec (.bankLoadDone k m) s = .next t ∧
    bankState t k m = 2 ∧ Moves s t (· = O.BANK_STATE k))

/-- R181, R182: BANK_FORCE 255 ends a forced bank that waits; in ARMED and while the engine runs, a VALID bank waits for the boundary of R49 or R50,
and in the other states arming reads it. Automatic selection switches to the lowest VALID bank that has been eligible for 16 samples. Where the spec
leaves a point open, this follows log entries 5, 47 and 85. -/
def Obligations.BankSelection : Prop :=
  (∀ (s : State) (q : Requester) (k : LoopId), Admitted s q (O.BANK_FORCE k) [255] → ∃ t, exec (.bankForceWrite q k 255) s = .next t ∧
    t.getN (O.BANK_FORCE k) = 255 ∧ t.loops[k].eng.force = none ∧
    Written s { t with loops := t.loops.set k s.loops[k] } (· = O.BANK_FORCE k)) ∧
  (∀ (s : State) (q : Requester) (k : LoopId) (m : BankId), Admitted s q (O.BANK_FORCE k) [BitVec.ofNat 8 m.val] → bankState s k m = 2 →
    running s k = true ∨ s.getN (O.LOOP_STATE k) = 1 → ∃ t n, exec (.bankForceWrite q k m) s = .next t ∧ t.getN (O.BANK_FORCE k) = m ∧
      t.loops[k].eng.force = some (m.val, n) ∧ s.loops[k].eng.sample + (if (regionsOf s k).length ≤ 1 then 1 else 2) ≤ n ∧
      Written s { t with loops := t.loops.set k s.loops[k] } (· = O.BANK_FORCE k)) ∧
  (∀ (s : State) (q : Requester) (k : LoopId) (m : BankId), Admitted s q (O.BANK_FORCE k) [BitVec.ofNat 8 m.val] → bankState s k m = 2 →
    running s k = false → s.getN (O.LOOP_STATE k) ≠ 1 → ∃ t, exec (.bankForceWrite q k m) s = .next t ∧
      t.getN (O.BANK_FORCE k) = m ∧ Written s t (· = O.BANK_FORCE k)) ∧
  (∀ (s : State) (k : LoopId) (m : Nat), autoRuns s k = true → m < 4 → bankState s k m = 2 →
    16 ≤ s.loops[k].eng.eligible.getD m 0 → (∀ j < m, bankState s k j = 2 → s.loops[k].eng.eligible.getD j 0 < 16) → ∃ t, exec (.bankAutoSwitch k) s = .next t ∧
      t.getN (O.BANK_ACTIVE k) = m ∧ t.getN (O.BANK_SW_CNT k) = (s.getN (O.BANK_SW_CNT k) + 1) % 2 ^ 32 ∧
      Still s { t with loops := t.loops.set k s.loops[k] } (· ∈ [O.BANK_ACTIVE k, O.BANK_SW_CNT k]))

/-- R194 to R197, R199, R201: an uncorrectable ECC error makes the sample an overrun with the estimate that the rule names, marks its bank, and puts
the loop on the ground law, as four misses in a row do; the return needs a VALID bank; the miss fault sets the latch ENGINE, on a STANDBY it is
recorded only. Where the spec leaves a point open, this follows log entries 54, 73 and 88. -/
def Obligations.EccAndGroundLaw : Prop :=
  (∀ (s : State) (k : LoopId), running s k = true → bankActive s k < 4 → ∃ t, exec (.eccUncorrectableBank k) s = .next t ∧
    bankState t k (bankActive s k) = 3 ∧ grounded t k = true ∧ t.getB (O.ENG_FLAGS k) 6 = true ∧ t.loops[k].eng.overrun = true ∧
    t.loops[k].eng.result = none ∧ t.loops[k].eng.x = s.loops[k].eng.xPrev ∧
    Keeps s { t with loops := t.loops.set k s.loops[k], aml := s.aml, twin := { t.twin with abdDue := s.twin.abdDue } }
      (· ∈ [O.BANK_STATE k, O.ENG_FLAGS k, O.GROUND_CNT k])) ∧
  (∀ (s : State) (k : LoopId), running s k = true → ∃ t, exec (.eccUncorrectableState k) s = .next t ∧
    grounded t k = true ∧ t.getB (O.ENG_FLAGS k) 6 = true ∧ t.loops[k].eng.overrun = true ∧ t.loops[k].eng.result = none ∧
    t.loops[k].eng.x = x0Of (activeImage s k) ∧
    Keeps s { t with loops := t.loops.set k s.loops[k], aml := s.aml, twin := { t.twin with abdDue := s.twin.abdDue } }
      (· ∈ [O.ENG_FLAGS k, O.GROUND_CNT k])) ∧
  (∀ (s : State) (k : LoopId), running s k = true → grounded s k = true → s.loops[k].eng.runNoted = false →
    4 ≤ s.getN (O.MISS_CONSEC k) → ∃ t, exec (.groundLawEntry k) s = .next t ∧ t.loops[k].eng.runNoted = true ∧
      Keeps s { t with loops := t.loops.set k s.loops[k] } (fun _ => False)) ∧
  (∀ (s : State) (k : LoopId), running s k = true → grounded s k = false → s.loops[k].eng.runNoted = false →
    4 ≤ s.getN (O.MISS_CONSEC k) → ∃ t, exec (.groundLawEntry k) s = .next t ∧ grounded t k = true ∧
      t.getN (O.GROUND_CNT k) = (s.getN (O.GROUND_CNT k) + 1) % 2 ^ 32 ∧ t.loops[k].eng.gFirst = true ∧
      Keeps s { t with loops := t.loops.set k s.loops[k], aml := s.aml } (· ∈ [O.ENG_FLAGS k, O.GROUND_CNT k])) ∧
  (∀ (s : State) (k : LoopId), running s k = true → 64 ≤ s.getN (O.MISS_CONSEC k) ∨ 1000 ≤ missWin s k →
    ∃ t, exec (.missFault k) s = .next t ∧ (standby s = true → Keeps s t (fun _ => False)) ∧
      (standby s = false → t.getB (O.LOOP_FLT k) 8 = true) ∧ Moves s t (fun _ => False)) ∧
  (∀ (s : State) (k : LoopId), s.loops[k].eng.noBank = true → exec (.groundLawExit k) s = .next s) ∧
  (∀ (s : State) (k : LoopId), running s k = true → grounded s k = true → quietMs s k = true → s.loops[k].eng.noBank = false →
    bankState s k (bankActive s k) = 2 → ∃ t, exec (.groundLawExit k) s = .next t ∧ grounded t k = false ∧ t.loops[k].eng.back = true ∧
      Keeps s { t with loops := t.loops.set k s.loops[k] } (· = O.ENG_FLAGS k)) ∧
  (∀ (s : State) (k : LoopId) (m : Nat), running s k = true → grounded s k = true → quietMs s k = true → s.loops[k].eng.noBank = false →
    bankState s k (bankActive s k) ≠ 2 → bankNamed s k s.fb.vbus = some m → ∃ t, exec (.groundLawExit k) s = .next t ∧
      grounded t k = false ∧ t.getN (O.BANK_ACTIVE k) = m ∧
      Keeps s { t with loops := t.loops.set k s.loops[k] } (· ∈ [O.ENG_FLAGS k, O.BANK_ACTIVE k, O.BANK_SW_CNT k]))

/-- R208 to R210, R212, R215: a table commit whose checks pass replaces the working copy and reads pending, or is in use at once where the using
unit is OFF; a failing check shows its entry and changes no table; a discard drops the staging copy; an exchange puts the working copy in use; the
composite is formed from the tables in use. -/
def Obligations.TableCommands : Prop :=
  (∀ (s : State) (q : Requester) (x : TableId), Admitted s q (tabAddr x + 1) [0xC5] → tabCheck s x (staged s q (tabAddr x)) = none →
    ∃ t, exec (.tableCommit q x) s = .next t ∧ (lookupAt t.blobs (tabAddr x)).getD [] = staged s q (tabAddr x) ∧
      staged t q (tabAddr x) = [] ∧ t.getN (tabAddr x + 3) = 255 ∧ t.getN (tabAddr x + 2) = (if tabIdle s x then 0 else 1) ∧
      (tabIdle s x = true → tabPending t x = false) ∧
      Written s { t with blobs := s.blobs, loops := s.loops, blocks := s.blocks, fb := s.fb }
        (· ∈ [tabAddr x + 2, tabAddr x + 3])) ∧
  (∀ (s : State) (q : Requester) (x : TableId) (code pos : Nat), Admitted s q (tabAddr x + 1) [0xC5] →
    tabCheck s x (staged s q (tabAddr x)) = some (code, pos) →
    ∃ t, exec (.tableCommit q x) s = .next t ∧ t.getN (tabAddr x + 2) = 2 ∧ t.getN (tabAddr x + 3) = pos ∧
      Written s t (· ∈ [tabAddr x + 2, tabAddr x + 3])) ∧
  (∀ (s : State) (q : Requester) (x : TableId), Admitted s q (tabAddr x + 1) [0x5C] →
    ∃ t, exec (.tableDiscard q x) s = .next t ∧ staged t q (tabAddr x) = [] ∧
      (∀ a, a ≠ tabAddr x → staged t q a = staged s q a) ∧ Written s t (fun _ => False)) ∧
  (∀ (s : State) (x : TableId) (r : RegionId),
    (match x with
      | .rip k => masterOf s k = r.val
      | .tim k => (regionsOf s k).contains r.val = true
      | .lsat b => b.val / 3 = r.val
      | _ => True) →
    tabPending s x = true ∨ s.getN (tabAddr x + 2) = 1 →
    ∃ t, exec (.tableExchange x r) s = .next t ∧ tabPending t x = false ∧ t.getN (tabAddr x + 2) ≠ 1 ∧
      Still s { t with loops := s.loops, blocks := s.blocks, fb := s.fb } (· = tabAddr x + 2)) ∧
  (∀ (s : State) (k : LoopId), ∃ t, exec (.lsatCompositeUpdate k) s = .next t ∧ t.loops[k].eng.comp = lsatComposite s k ∧
    { t with loops := t.loops.set k { t.loops[k] with eng := { t.loops[k].eng with comp := s.loops[k].eng.comp } } } = s)

/-! ### Sketch-ahead -/

/-- R246, R248, R250, R251, R273, R275, R278, R282: a waiting notice opens a sketch in REGULATE, or replaces the open one; t_exp erases it with the
close code 0x10, unless a cause of an earlier order holds, which then closes it; the last release brings IDLE, and so does the end of the bus request
after an ink; SK_EN 0 disables the open sketch. Where the spec leaves a point open, this follows log entries 63, 83, 89 and 90. -/
def Obligations.SketchLife : Prop :=
  (∀ (s : State) (k : LoopId) (n : Notice), s.loops[k].sk.pending = some n → s.loops[k].sk.openAt ≤ s.loops[k].eng.sample + 1 →
    skState s k ≠ 1 → loopState s k = 3 →
    observing s k = false → grounded s k = false → standby s = false → ∃ t, exec (.sketchOpen k) s = .next t ∧
      t.getN (O.SK_STATE k) = 1 ∧ t.getN (O.SK_OPEN_CNT k) = (s.getN (O.SK_OPEN_CNT k) + 1) % 2 ^ 32 ∧ t.get (O.SK_DI k) = n.di ∧
      t.getN (O.SK_LEAD k) = n.lead ∧ t.getN (O.SK_CLASS k) = n.cls ∧ t.loops[k].sk.pending = none ∧
      Keeps s { t with loops := t.loops.set k s.loops[k] }
        (· ∈ [O.SK_STATE k, O.SK_OPEN_CNT k, O.SK_DI k, O.SK_LEAD k, O.SK_CLASS k, O.SK_NTARGET k])) ∧
  (∀ (s : State) (k : LoopId) (n : Notice), s.loops[k].sk.pending = some n → s.loops[k].sk.openAt ≤ s.loops[k].eng.sample + 1 →
    skState s k = 1 → closeCause s k (movement s k (s.loops[k].sk.imeas.take 4)) = none → ∃ t, exec (.sketchReplace k) s = .next t ∧
    t.getN (O.SK_REPL_CNT k) = (s.getN (O.SK_REPL_CNT k) + 1) % 2 ^ 32 ∧ t.get (O.SK_DI k) = n.di ∧ t.getN (O.SK_CLASS k) = n.cls ∧
    t.loops[k].sk.pending = none ∧
    Keeps s { t with loops := t.loops.set k s.loops[k] }
      (· ∈ [O.SK_REPL_CNT k, O.SK_DI k, O.SK_LEAD k, O.SK_CLASS k, O.SK_NTARGET k])) ∧
  (∀ (s : State) (k : LoopId) (n : Notice) (c : Nat), s.loops[k].sk.pending = some n →
    s.loops[k].sk.openAt ≤ s.loops[k].eng.sample + 1 → skState s k = 1 →
    closeCause s k (movement s k (s.loops[k].sk.imeas.take 4)) = some c → c ≠ 1 → ∃ t, exec (.sketchReplace k) s = .next t ∧
      t.getN (O.SK_STATE k) = 3 ∧ t.getN (O.SK_LAST_CLOSE k) = c ∧ t.loops[k].sk.pending = none ∧
      Keeps s { t with loops := t.loops.set k s.loops[k], aml := s.aml }
        (· ∈ [O.SK_STATE k, O.SK_LAST_CLOSE k, O.SK_ERASE_CNT k, O.SK_ERASE_EXP k, O.SK_ERASE_CANCEL k, O.SK_ERASE_PROT k,
          O.SK_DRIFT_LAST k])) ∧
  (∀ (s : State) (k : LoopId), skState s k = 1 → sketchEndsAt s k < s.loops[k].eng.tick →
    ∃ t c, closeCause s k (movement s k (s.loops[k].sk.imeas.take 4)) = some c ∧ exec (.sketchExpire k) s = .next t ∧
      t.getN (O.SK_STATE k) = 3 ∧ t.getN (O.SK_LAST_CLOSE k) = c ∧
      t.getN (O.SK_ERASE_CNT k) = (s.getN (O.SK_ERASE_CNT k) + 1) % 2 ^ 32 ∧
      (c = 0x10 → t.getN (O.SK_ERASE_EXP k) = (s.getN (O.SK_ERASE_EXP k) + 1) % 2 ^ 32) ∧
      Keeps s { t with loops := t.loops.set k s.loops[k], aml := s.aml }
        (· ∈ [O.SK_STATE k, O.SK_LAST_CLOSE k, O.SK_ERASE_CNT k, O.SK_ERASE_EXP k, O.SK_ERASE_CANCEL k, O.SK_ERASE_PROT k,
          O.SK_DRIFT_LAST k])) ∧
  (∀ (s : State) (k : LoopId), s.loops[k].sk.bias = 0 → s.loops[k].sk.biasTo = 0 →
    (skState s k = 3 ∧ wokenGone s k = true) ∨ (skState s k = 2 ∧ ∀ u, s.loops[k].sk.hold = some u → u ≤ s.loops[k].eng.tick) →
    ∃ t, exec (.sketchReturnIdle k) s = .next t ∧ t.getN (O.SK_STATE k) = 0 ∧ t.loops[k].sk.woken = [] ∧
      Still s { t with loops := t.loops.set k s.loops[k] } (· = O.SK_STATE k)) ∧
  (∀ (s : State) (q : Requester) (k : LoopId) (v : Nat), v < 2 → Admitted s q (O.SK_EN k) [BitVec.ofNat 8 v] →
    ∃ t, exec (.skEnWrite q k v) s = .next t ∧ t.getN (O.SK_EN k) = v ∧
      (v = 0 → skState s k = 1 → t.loops[k].sk.disabled = true) ∧
      Written s { t with loops := t.loops.set k s.loops[k] } (· = O.SK_EN k))

/-! ### Periods, pulses, phases, disables -/

/-- R229, R284, R86, R291, R324: a period boundary starts the counter's next period, with one count of the correction still to apply, carries the
stipple residual of its region on, starts the cells whose wake requests have come (R318), and in the master moves LL_R_NOW by one step and counts
RESPACE down. R287, R288, R293: at its slot position a cell takes its band (R232, R237) and starts a pulse of the requested on-time and the ledger,
within the minimum widths, keeps a too short one in the ledger, or trips on its valley comparator outside BLANK (R340); the falling edge books the
difference; R18: a cell resumes with an empty ledger. R557: a shadow's counter is to move to the edge that its sampler has timed. Where the spec
leaves a point open, this follows log entries 91, 95 and 103. -/
def Obligations.PulsesAndLedger : Prop :=
  (∀ (s : State) (k : LoopId) (r : RegionId), (regionsOf s k).contains r.val = true → regionReady s r = true → pllLocked s r = true →
    ∃ t, exec (.periodBoundary k r) s = .next t ∧
      t.loops[k].track[r].acc = s.loops[k].track[r].acc + (slotOrder s k r).length * (s.loops[k].track[r].duty % 256) -
        256 * s.loops[k].track[r].k ∧
      t.loops[k].track[r].zero = s.loops[k].track[r].zero + s.loops[k].track[r].len ∧
      (s.loops[k].track[r].adjust = 0 → t.loops[k].track[r].len = periodCnt s k ∧ t.loops[k].track[r].adjust = 0) ∧
      (0 < s.loops[k].track[r].adjust →
        t.loops[k].track[r].len = periodCnt s k - 1 ∧ t.loops[k].track[r].adjust = s.loops[k].track[r].adjust - 1) ∧
      (s.loops[k].track[r].adjust < 0 →
        t.loops[k].track[r].len = periodCnt s k + 1 ∧ t.loops[k].track[r].adjust = s.loops[k].track[r].adjust + 1) ∧
      (∀ n : CellId, loopOfCell s n = some k → n.val / 12 = r.val → s.cells[n].waking = true → cellStop s n = 0 →
        t.cells[n].stopped = false ∧ t.get (O.LEDGER n) = 0) ∧
      (masterOf s k = r.val → t.getN (O.RESPACE k) = s.getN (O.RESPACE k) - 1) ∧
      (masterOf s k = r.val → isOff s k = false →
        t.getN (O.LL_R_NOW k) = stepToward (s.getN (O.LL_R_NOW k)) (s.efN k (O.LL_R k))) ∧
      Keeps s { t with loops := t.loops.set k s.loops[k], cells := s.cells }
        (fun a => a = O.RESPACE k ∨ a = O.LL_R_NOW k ∨ among [O.CS_GT 0, O.IMON_BAND 0, O.LEDGER 0] a)) ∧
  (∀ (s : State) (n : CellId) (k : LoopId) (edge : Option Nat), loopOfCell s n = some k → switching s n = true →
    let e := s.loops[k].eng.tim.getD (s.getN (O.TMON_BAND (n / 4))) 0x505028
    let at_ := s.loops[k].track[regionOf (n / 12)].zero + s.getN (O.SLOT_POS n)
    s.cells[n].onReq + s.get (O.LEDGER n) < tonMin e → ∃ t, exec (.cellSlotPosition n edge) s = .next t ∧
      t.get (O.LEDGER n) = s.cells[n].onReq + s.get (O.LEDGER n) ∧ t.cells[n].inPulse = false ∧
      (0 < s.cells[n].onReq + s.get (O.LEDGER n) → t.getN (O.RUNT_CNT n) = (s.getN (O.RUNT_CNT n) + 1) % 2 ^ 32) ∧
      (∀ x, edge = some x → standby s = true →
        t.loops[k].track[regionOf (n / 12)].adjust = -wrapDiff (s.getN (O.PERIOD_CNT k)) ((x : Int) - at_)) ∧
      (edge = none ∨ standby s = false → t.loops = s.loops) ∧
      Keeps s { t with cells := t.cells.set n s.cells[n], loops := t.loops.set k s.loops[k] }
        (· ∈ [O.LEDGER n, O.RUNT_CNT n, O.SLOT_POS n, O.IMON_BAND n, O.CS_GT n])) ∧
  (∀ (s : State) (n : CellId) (k : LoopId) (edge : Option Nat), loopOfCell s n = some k → switching s n = true →
    let e := s.loops[k].eng.tim.getD (s.getN (O.TMON_BAND (n / 4))) 0x505028
    let at_ := s.loops[k].track[regionOf (n / 12)].zero + s.getN (O.SLOT_POS n)
    let owed := s.cells[n].onReq + s.get (O.LEDGER n)
    (tonMin e : Int) ≤ owed → envInput s (.cell n 1) = false ∨ (blankUntil s.cells[n].edges (blankOf e) (at_ - 1)).isSome = true →
    ∃ t, exec (.cellSlotPosition n edge) s = .next t ∧ t.get (O.LEDGER n) = 0 ∧ t.cells[n].inPulse = true ∧
      t.cells[n].owed = owed ∧ t.cells[n].riseAt = at_ ∧
      t.cells[n].fallAt = (clampI owed (tonMin e) ((t.cells[n].period : Int) - toffMin e)).toNat ∧
      t.getN (O.IMON_BAND n) = s.getN (O.TMON_BAND (n / 4)) ∧
      (∀ x, edge = some x → standby s = true →
        t.loops[k].track[regionOf (n / 12)].adjust = -wrapDiff (s.getN (O.PERIOD_CNT k)) ((x : Int) - at_)) ∧
      (edge = none ∨ standby s = false → t.loops = s.loops) ∧
      Keeps s { t with cells := t.cells.set n s.cells[n], loops := t.loops.set k s.loops[k] }
        (· ∈ [O.LEDGER n, O.SLOT_POS n, O.IMON_BAND n, O.CS_GT n])) ∧
  (∀ (s : State) (n : CellId) (k : LoopId) (edge : Option Nat), loopOfCell s n = some k → switching s n = true → isOff s k = false →
    let e := s.loops[k].eng.tim.getD (s.getN (O.TMON_BAND (n / 4))) 0x505028
    let at_ := s.loops[k].track[regionOf (n / 12)].zero + s.getN (O.SLOT_POS n)
    (tonMin e : Int) ≤ s.cells[n].onReq + s.get (O.LEDGER n) → envInput s (.cell n 1) = true →
    blankUntil s.cells[n].edges (blankOf e) (at_ - 1) = none → ∃ t, exec (.cellSlotPosition n edge) s = .next t ∧ t.getB (O.CELL_FLT n) 1 = true ∧
      t.getN (O.CELL_TRIP_CNT n) = (s.getN (O.CELL_TRIP_CNT n) + 1) % 2 ^ 32 ∧ t.cells[n].stopped = true ∧
      Keeps s { t with loops := t.loops.set k s.loops[k], cells := t.cells.set n s.cells[n], seen := s.seen, tree := s.tree }
        (· ∈ [O.CELL_FLT n, O.CELL_TRIP_CNT n, O.SLOT_POS n, O.IMON_BAND n, O.CS_GT n])) ∧
  (∀ (s : State) (n : CellId), s.cells[n].inPulse = true → ∃ t, exec (.cellFallingEdge n) s = .next t ∧
    t.get (O.LEDGER n) =
      max (-(s.cells[n].period : Int)) (min (s.cells[n].period : Int) (s.get (O.LEDGER n) + s.cells[n].owed - s.cells[n].fallAt)) ∧
    t.getN (O.TON_LAST n) = s.cells[n].fallAt ∧ t.cells[n].inPulse = false ∧
    Keeps s { t with cells := t.cells.set n s.cells[n] } (· ∈ [O.LEDGER n, O.TON_LAST n, O.LEDGER_DROP n])) ∧
  (∀ (s : State) (n : CellId) (k : LoopId), loopOfCell s n = some k → s.cells[n].stopped = true → cellStop s n = 0 → running s k = true →
    s.loops[k].ph.active.contains n.val = true → s.loops[k].ph.wake.contains n.val = false → s.cells[n].waking = false →
    ∃ t, exec (.cellResume n) s = .next t ∧ t.get (O.LEDGER n) = 0 ∧ t.cells[n].stopped = false ∧
      Still s { t with cells := t.cells.set n s.cells[n] } (· = O.LEDGER n))

/-- R306, R308: a disable takes its value, and a set one stops its cells at once. Where the spec leaves a point open, this follows log entry 14. -/
def Obligations.CellDisables : Prop :=
  (∀ (s : State) (q : Requester) (n : CellId), Admitted s q (O.CELL_DIS n) [0] → ∃ t, exec (.cellDisWrite q n 0) s = .next t ∧
    t.getN (O.CELL_DIS n) = 0 ∧ Written s t (· = O.CELL_DIS n)) ∧
  (∀ (s : State) (q : Requester) (b : BlockId), Admitted s q (O.BLK_DIS b) [0] → ∃ t, exec (.blkDisWrite q b 0) s = .next t ∧
    t.getN (O.BLK_DIS b) = 0 ∧ Written s t (· = O.BLK_DIS b)) ∧
  (∀ (s : State) (q : Requester) (r : RegionId), Admitted s q (O.RG_PWM_DIS r) [0] → ∃ t, exec (.rgPwmDisWrite q r 0) s = .next t ∧
    t.getN (O.RG_PWM_DIS r) = 0 ∧ Written s t (· = O.RG_PWM_DIS r)) ∧
  (∀ (s : State) (q : Requester) (c : Instr) (a : Addr) (ns : List Nat), Admitted s q a [1] →
    (∃ n : CellId, c = .cellDisWrite q n 1 ∧ a = O.CELL_DIS n ∧ ns = [n.val]) ∨
      (∃ b : BlockId, c = .blkDisWrite q b 1 ∧ a = O.BLK_DIS b ∧ ns = (List.range 4).map (4 * b.val + ·)) ∨
      (∃ r : RegionId, c = .rgPwmDisWrite q r 1 ∧ a = O.RG_PWM_DIS r ∧ ns = (List.range 12).map (12 * r.val + ·)) →
    ∃ t, exec c s = .next t ∧ t.getN a = 1 ∧ (∀ n : CellId, n.val ∈ ns → t.cells[n].inPulse = false ∧ t.cells[n].stopped = true) ∧
      Written s { t with loops := s.loops, cells := s.cells, aml := s.aml, tree := s.tree, seen := s.seen,
                         twin := { t.twin with abdDue := s.twin.abdDue } } (fun b => b = a ∨ among loopTemplates b))

/-- R254, R316, R318, R320, R322, R327, R331, R332: the phase manager decides to add or to shed cells, which the next sample boundary counts and takes
in the order of R327; a wake request marks its cell, which starts with its next period; a shedding cell is released at its zero crossing after its
last falling edge, the cells of a sketch in their turn (R275), or after four whole periods; staggered enabling starts one cell in a turn, and ends
with n_ramp cells active or none left. Where the spec leaves a point open, this follows log entries 62, 79 and 92. -/
def Obligations.PhaseManagement : Prop :=
  (∀ (s : State) (k : LoopId) (t0 : Nat), s.loops[k].ph.addAt = some t0 → s.efN k (O.PH_ADD_T k) * 200 ≤ s.loops[k].eng.tick - t0 →
    phasesHeld s k = false → ∃ t, exec (.phaseAdd k) s = .next t ∧ t.loops[k].ph.addAt = none ∧
      t.loops[k].ph.changes = s.loops[k].ph.changes ++ [.add] ∧ { t with loops := t.loops.set k s.loops[k] } = s) ∧
  (∀ (s : State) (k : LoopId) (t0 : Nat), s.loops[k].ph.shedAt = some t0 →
    s.efN k (O.PH_SHED_T k) * 2000 ≤ s.loops[k].eng.tick - t0 → shedHolds s k = true → ∃ t, exec (.phaseShed k) s = .next t ∧
      t.loops[k].ph.changes = s.loops[k].ph.changes ++ [.shed] ∧ t.loops[k].ph.shedAt = some s.loops[k].eng.tick ∧
      { t with loops := t.loops.set k s.loops[k] } = s) ∧
  (∀ (s : State) (k : LoopId), shedHolds s k = false → exec (.phaseShed k) s = .next s) ∧
  (∀ (s : State) (k : LoopId) (n : Nat), s.loops[k].ph.changes = [.shed] → shedFits s k (planned s k).length = true →
    (ranked s k (planned s k)).getLast? = some n → n ∈ planned s k →
    (planChanges s k).loops[k].ph.changes = [] ∧ planned (planChanges s k) k = (planned s k).filter (· != n) ∧
      (planChanges s k).getN (O.SHED_CNT k) = (s.getN (O.SHED_CNT k) + 1) % 2 ^ 32) ∧
  (∀ (s : State) (k : LoopId) (n : CellId) (l : List Nat), s.loops[k].ph.wake = n.val :: l → s.loops[k].ph.active.contains n.val = true →
    cellStop s n = 0 → ∃ t, exec (.cellWakeRequest k) s = .next t ∧ t.loops[k].ph.wake = l ∧ t.cells[n].waking = true ∧
      { t with loops := t.loops.set k s.loops[k], cells := t.cells.set n s.cells[n] } = s) ∧
  (∀ (s : State) (n : CellId) (k : LoopId) (e : Nat × Nat) (l : List (Nat × Nat)), loopOfCell s n = some k → s.cells[n].conv = e :: l →
    s.cells[n].shedding = true → s.cells[n].inPulse = false → s.cells[n].edges.headD 0 ≤ e.1 →
    toAmp (imonAmps s n (imonTrimmed s n e.2)) ≤ s.ef k (O.PH_ZC_I k) → releaseTurn s k n e.1 = true →
    ∃ t, exec (.shedRelease n) s = .next t ∧
      t.cells[n].shedding = false ∧ t.cells[n].stopped = true ∧ Moves s t (fun _ => False) ∧
      (s.loops[k].ctl.ending = false → { t with cells := t.cells.set n s.cells[n], loops := t.loops.set k { t.loops[k] with
        sk := { t.loops[k].sk with relAt := s.loops[k].sk.relAt } } } = s)) ∧
  (∀ (s : State) (n : CellId) (k : LoopId), loopOfCell s n = some k → s.cells[n].shedding = true → 5 ≤ s.cells[n].shedPeriods →
    ∃ t, exec (.shedTimeout n) s = .next t ∧ t.getN (O.SHED_TMO_CNT k) = (s.getN (O.SHED_TMO_CNT k) + 1) % 2 ^ 32 ∧
      t.cells[n].shedding = false ∧ t.cells[n].stopped = true ∧ Moves s t (· = O.SHED_TMO_CNT k)) ∧
  (∀ (s : State) (k : LoopId) (n : CellId), s.loops[k].ph.enabling = true → loopState s k = 2 ∨ loopState s k = 3 →
    (if s.loops[k].ph.turns = 0 then 1 else 2) ≤ s.loops[k].ph.gap → s.loops[k].ph.active.length < s.loops[k].ph.rampN →
    (addOrder s k).find? (fun n => available s n && !s.loops[k].ph.started.contains n && !s.loops[k].ph.active.contains n) = some n.val →
    ∃ t, exec (.rampCellEnable k) s = .next t ∧ t.loops[k].ph.turns = s.loops[k].ph.turns + 1 ∧ t.cells[n].stopped = false ∧
      t.loops[k].ph.active.contains n.val = true ∧ t.get (O.LEDGER n) = 0 ∧
      (s.loops[k].ph.turns < s.loops[k].ph.rampN →
        t.getN (O.SLOT_POS n) = slotAt (periodCnt s k) s.loops[k].ph.rampN s.loops[k].ph.turns) ∧
      Still s { t with loops := t.loops.set k s.loops[k], cells := t.cells.set n s.cells[n] } (· ∈ [O.LEDGER n, O.SLOT_POS n])) ∧
  (∀ (s : State) (k : LoopId), s.loops[k].ph.enabling = true → loopState s k = 2 ∨ loopState s k = 3 →
    (if s.loops[k].ph.turns = 0 then 1 else 2) ≤ s.loops[k].ph.gap → s.loops[k].ph.rampN ≤ s.loops[k].ph.active.length ∨
      (addOrder s k).find? (fun n => available s n && !s.loops[k].ph.started.contains n && !s.loops[k].ph.active.contains n) = none →
    ∃ t, exec (.rampCellEnable k) s = .next t ∧ t.loops[k].ph.enabling = false ∧ { t with loops := t.loops.set k s.loops[k] } = s)

/-! ### Loop FB and bus shaping -/

/-- R450, R453, R468: an FB sample takes the currents of its channels and counts; in SOFTSTART v_cmd moves toward FB_VSTART; with FB_MASK = 0 it
shows so in BS_STAT. R458: a period boundary distributes the high intervals. R298 to R301: at its slot position a channel's period begins with its
edges and dead times in order, or keeps a too short pulse in the ledger and counts it; the pulse's end books the difference. R459: a trim that stood
at its limit for 1 ms is recorded. Where the spec leaves a point open, this follows log entries 64, 65 and 93. -/
def Obligations.FbSampleAndPulses : Prop :=
  (∀ (s : State) (codes : List (Fin 1024)), s.chip.main = true → s.fb.pll = true → ∃ t, exec (.fbSample codes) s = .next t ∧
    t.fb.n = s.fb.n + 1 ∧
    (∀ (f : ChannelId) (c : Fin 1024), codes[f.val]? = some c →
      t.fb.chan[f].current = ((c.val : Rat) - 256) * 125 / (s.getN O.FB_GCS : Rat) ∧
        t.get (O.FCH_I f) = clampI (toStep (t.fb.chan[f].current * 256)) (-8192) 24544) ∧
    (s.getN O.FB_MASK = 0 → t.getN O.BS_STAT = 16 ∧ t.get O.BS_VCMD = 0) ∧
    (s.getN O.FB_MASK ≠ 0 → t.getB O.BS_STAT 4 = false) ∧
    (s.getN O.FB_MASK ≠ 0 → s.getN O.FB_STATE = 2 →
      t.fb.vcmd = approach s.fb.vcmd ((s.getN O.FB_VSTART : Rat) / 1000) ((s.getN O.FB_SS_SLEW : Rat) / 100000) ∧
        t.get O.BS_VCMD = trunc (t.fb.vcmd * 1000)) ∧
    Keeps s { t with fb := s.fb, free := s.free, twin := { t.twin with digest := s.twin.digest } }
      (fun a => (∃ f : ChannelId, a = O.FCH_I f) ∨ a ∈ [O.BS_CEIL, O.BS_FLOOR, O.BS_HR, O.BS_STAT, O.BS_TARGET, O.BS_VCMD, O.BS_VEFF,
        O.BS_VNEED, O.FB_STATE, O.FB_LEDGER_DROP])) ∧
  (∀ s : State, s.chip.main = true → s.fb.pll = true → ∃ t, exec .fbPeriodBoundary s = .next t ∧ t.fb.gap = s.fb.gap + 1 ∧
    t.fb.zero = s.fb.zero + fbPeriod s ∧
    (chansOn t ≠ [] → t.fb.frac = toStep (s.fb.h * fbPeriod s * 256) % 256 ∧
      t.fb.acc = (if s.fb.dist = chansOn t then s.fb.acc + (chansOn t).length * s.fb.frac - 256 * s.fb.k else 0) ∧
      t.fb.k = extraCells (chansOn t).length t.fb.frac t.fb.acc) ∧
    Still s { t with fb := s.fb } (fun a => a = O.FB_LEDGER_DROP ∨ ∃ f : ChannelId, a = O.FCH_TRIM f)) ∧
  (∀ (s : State) (f : ChannelId), (chansOn s).contains f.val = true →
    let e := s.fb.tim.getD (s.getN O.DTC_BAND) 0x502828
    let p : Nat := ((fbPeriod s : Int) + respaceStep s.fb.chan[f].delta s.fb.chan[f].steps).toNat
    let at_ := s.fb.zero + s.fb.chan[f].slot
    let v := s.fb.chan[f].onReq + (settleChan s f at_).fb.chan[f].ledger
    ∃ t, exec (.fbChannelSlot f) s = .next t ∧ Still s { t with fb := s.fb } (· ∈ [O.FB_RUNT_CNT, O.FB_LEDGER_DROP]) ∧
      t.fb.chan[f].flFall = at_ ∧ t.fb.chan[f].period = p ∧
      (v < dtLh e + fminPulse e →
        t.fb.chan[f].ledger = v ∧ t.fb.chan[f].withheld = true ∧ t.getN O.FB_RUNT_CNT = (s.getN O.FB_RUNT_CNT + 1) % 2 ^ 32) ∧
      ((dtLh e + fminPulse e : Int) ≤ v →
        t.fb.chan[f].ledger = 0 ∧ t.fb.chan[f].owed = v ∧ t.fb.chan[f].withheld = false ∧ t.fb.chan[f].fhRise = at_ + dtLh e ∧
          t.fb.chan[f].fhFall = at_ + (clampI v (dtLh e + fminPulse e) ((p : Int) - dtHl e - fminPulse e)).toNat ∧
          t.fb.chan[f].flRise = t.fb.chan[f].fhFall + dtHl e)) ∧
  (∀ (s : State) (f : ChannelId) (now : Nat), s.fb.chan[f].inPulse = true → s.fb.chan[f].fhFall ≤ now →
    (settleChan s f now).fb.chan[f].ledger = max (-(s.fb.chan[f].period : Int)) (min (s.fb.chan[f].period : Int)
      (s.fb.chan[f].ledger + s.fb.chan[f].owed - ((s.fb.chan[f].fhFall : Int) - s.fb.chan[f].flFall)))) ∧
  (∀ (s : State) (f : ChannelId) (n : Nat), s.fb.chan[f].limAt = some n → n + 10000 ≤ s.fb.n → s.fb.chan[f].trimAt = none →
    ∃ t, exec (.fbTrimLimit f) s = .next t ∧ t.fb.chan[f].trimAt = some s.uptime ∧ Keeps s { t with fb := s.fb } (fun _ => False))

/-- R451 to R455: ON arms loop FB with its retries; it enters SOFTSTART with v_cmd at the bus voltage, starts one channel at least two periods after
the one before, and enters REGULATE where the bus has come to FB_VSTART or FB_SS_TMO has passed; OFF leads from SOFTSTART and REGULATE to SOFTSTOP,
otherwise to OFF. Start-up completes its steps 6 and 7 with the first two of these. R100: while a commit that affects loop FB is not applied, ON is
refused (log entry 94). -/
def Obligations.LoopFbStates : Prop :=
  (∀ (s : State) (q : Requester), Admitted s q O.FB_CMD [1] → s.getN O.FB_STATE = 0 → s.fb.affected = true →
    ∃ t, exec (.fbCmdOn q) s = .next t ∧ (t.rqOf q).lastAbort = 0xA030 ∧ { t with req := s.req } = s) ∧
  (∀ (s : State) (q : Requester), Admitted s q O.FB_CMD [1] → s.getN O.FB_STATE = 0 → s.getN O.FB_MASK ≠ 0 → s.fb.affected = false →
    ∃ t, exec (.fbCmdOn q) s = .next t ∧ t.getN O.FB_STATE = 1 ∧ t.fb = { s.fb with retryLeft := s.getN O.FB_RETRY_N } ∧
      Written s { t with fb := s.fb } (· = O.FB_STATE)) ∧
  (∀ (s : State) (q : Requester), Admitted s q O.FB_CMD [2] →
    s.getN O.FB_MASK = 0 ∨ (∀ k : LoopId, s.getN (O.LOOP_STATE k) = 0 ∨ 5 ≤ s.getN (O.LOOP_STATE k)) →
    ∃ t, exec (.fbCmdOff q) s = .next t ∧
      t.getN O.FB_STATE = (if 2 ≤ s.getN O.FB_STATE ∧ s.getN O.FB_STATE ≤ 4 then 4 else 0) ∧
      Written s { t with fb := s.fb, loops := s.loops } (fun a => a = O.FB_STATE ∨ among [O.BUR_STATE 0] a)) ∧
  (∀ s : State, s.getN O.START_STEP ≠ 5 → s.getN O.FB_STATE = 1 → fbCanStart s = true → ∃ t, exec .fbSoftstartBegin s = .next t ∧
    t.getN O.FB_STATE = 2 ∧ t.fb.vcmd = s.fb.vbus ∧ t.fb.integ = 0 ∧
    Still s { t with fb := s.fb } (fun a => a = O.FB_STATE ∨ ∃ f : ChannelId, a = O.FCH_TRIM f)) ∧
  (∀ s : State, s.getN O.START_STEP = 5 → s.isOn O.FB_AUTO = true → s.getN O.FB_STATE = 0 → s.getN O.FB_MASK ≠ 0 → passive s = false →
    s.fb.affected = false →
    ∃ t, exec .fbSoftstartBegin s = .next t ∧ t.getN O.START_STEP = 6 ∧ (t.getN O.FB_STATE = 1 ∨ t.getN O.FB_STATE = 2) ∧
      Still s { t with fb := s.fb }
        (fun a => a ∈ [O.FB_STATE, O.START_STEP, O.START_T (5 : Nat)] ∨ ∃ f : ChannelId, a = O.FCH_TRIM f)) ∧
  (∀ (s : State) (f : ChannelId), s.getN O.FB_STATE = 2 ∨ s.getN O.FB_STATE = 3 → 2 ≤ s.fb.gap →
    (chansReady s).find? (fun n => !s.fb.chan[chanOf n].started) = some f.val → ∃ t, exec .fbChannelStart s = .next t ∧
      t.fb = { s.fb with gap := 0, chan := s.fb.chan.set f { s.fb.chan[f] with started := true, joining := false, ledger := 0 } } ∧
      { t with fb := s.fb } = s) ∧
  (∀ s : State, s.getN O.FB_STATE = 2 → s.fb.vcmd = (s.getN O.FB_VSTART : Rat) / 1000 → absR (s.fb.vbus - s.fb.vcmd) ≤ 1 / 5 →
    ∃ t, exec .fbRegulateEntry s = .next t ∧ t.getN O.FB_STATE = 3 ∧ t.fb.regAt = s.uptime ∧
      t.getN O.START_STEP = (if s.getN O.START_STEP = 6 then 7 else s.getN O.START_STEP) ∧
      Keeps s { t with fb := s.fb } (· ∈ [O.FB_STATE, O.START_STEP, O.START_T (6 : Nat)])) ∧
  (∀ s : State, s.getN O.FB_STATE = 2 → s.fb.ssAt + s.getN O.FB_SS_TMO * 1000 ≤ s.uptime →
    ∃ t, exec .fbSoftstartTimeout s = .next t ∧ t.getN O.FB_STATE = 3 ∧
      t.getN O.START_STEP = (if s.getN O.START_STEP = 6 then 7 else s.getN O.START_STEP) ∧
      Keeps s { t with fb := s.fb } (· ∈ [O.FB_STATE, O.START_STEP, O.START_T (6 : Nat)]))

/-- R434, R460, R469: each microsecond P_TOT is the sum of the loops' output powers, at most 65,535, and the bus budget of every loop follows loop
FB's state, its grant with it. R306, R309, R472: FCH_DIS stops the channels that it names; BS_MODE takes its value. -/
def Obligations.BusBudgetAndSettings : Prop :=
  (∀ s : State, ∃ t, exec .peakU0Report s = .next t ∧
    t.getN O.P_TOT = min 65535 ((List.finRange 8).map fun k : LoopId => if isOff s k then 0 else qPout s k).sum ∧
    (∀ k : LoopId, t.loops[k] = { s.loops[k] with th := { s.loops[k].th with peakU0 := 0 } }) ∧
    Still s { t with loops := s.loops, shape := { t.shape with peaks := s.shape.peaks } } (· = O.P_TOT)) ∧
  (∀ s : State, ∃ t, exec .busBudgetUpdate s = .next t ∧
    (∀ k : LoopId, t.getN (O.GRANT k) = (grantOf t k).1 ∧
      (s.getN O.FB_MASK = 0 ∨ s.getN O.FB_STATE = 0 → t.shape.budget[k] = none) ∧
      (s.getN O.FB_MASK ≠ 0 → s.getN O.FB_STATE = 3 → t.shape.budget[k] = some (s.loops[k].th.iMean +
        max 0 (((chansOn s).length : Rat) * s.getN O.FB_ICH_MAX * meanR s.fb.vbusLast - s.getN O.P_TOT) / max s.loops[k].th.vMean (1 / 4))) ∧
      (s.getN O.FB_MASK ≠ 0 → s.getN O.FB_STATE ≠ 0 → s.getN O.FB_STATE ≠ 3 → t.shape.budget[k] = some 0)) ∧
    Still s { t with aml := s.aml, shape := s.shape } (fun a => ∃ k : LoopId, a = O.GRANT k)) ∧
  (∀ (s : State) (q : Requester) (v : Byte), Admitted s q O.FCH_DIS [v] → ∃ t, exec (.fchDisWrite q v.toNat) s = .next t ∧
    t.getN O.FCH_DIS = v.toNat ∧ (∀ f : ChannelId, bit v.toNat f = true → t.fb.chan[f].started = false) ∧
    Written s { t with fb := s.fb, loops := s.loops, seen := s.seen, tree := s.tree, twin := { t.twin with abdDue := s.twin.abdDue } }
      (fun a => a ∈ [O.FCH_DIS, O.FB_FLT, O.FB_STATE] ∨ among [O.BUR_STATE 0] a ∨ ∃ f : ChannelId, a = O.FCH_TRIM f)) ∧
  (∀ (s : State) (q : Requester) (v : Byte), Admitted s q O.BS_MODE [v] → ∃ t, exec (.bsModeWrite q v.toNat) s = .next t ∧
    t.getN O.BS_MODE = v.toNat ∧ Written s t (· = O.BS_MODE))

/-! ### Protection -/

/-- R340, R343, R346, R349: a trip of a cell's comparator, or of BFLT_N of a block, sets its latch, counts the trip at each cell it names, and takes
these cells to mid-level at once; its report enters the hatching tree, its policy waits. Nothing else changes. R23, R24, R348: a crossing or a low
inside the blanking does nothing; R346: a cell that OV_SAFE holds low goes to mid-level at any negative crossing. Where the spec leaves a point open,
this follows log entries 57 and 95. -/
def Obligations.CellAndBlockTrips : Prop :=
  (∀ (s : State) (n : CellId) (start : Nat) (stop : Option Nat), cellBlanked s n start stop = true →
    exec (.ocPkTrip n start stop) s = .next s ∧ (s.cells[n].low = false → exec (.ocNegTrip n start stop) s = .next s)) ∧
  (∀ (s : State) (n : CellId) (k : LoopId) (start : Nat) (stop : Option Nat), loopOfCell s n = some k → cellWatched s n = true →
    s.cells[n].low = true → isOff s k = false → ∃ t, exec (.ocNegTrip n start stop) s = .next t ∧ latchSet t (.cell n 2) = true ∧
      t.cells[n].stopped = true ∧ t.cells[n].low = false ∧
      Still s { t with loops := t.loops.set k s.loops[k], cells := t.cells.set n s.cells[n], seen := s.seen, tree := s.tree }
        (· ∈ [O.CELL_FLT n, O.CELL_TRIP_CNT n])) ∧
  (∀ (s : State) (n : CellId) (k : LoopId) (start : Nat) (stop : Option Nat) (c : Instr) (b : Fin 5) (cls : FaultClass) (e : Nat),
    (c = .ocPkTrip n start stop ∧ b = 0 ∧ cls = .ocPk ∧ e = 0x0201) ∨ (c = .ocNegTrip n start stop ∧ b = 2 ∧ cls = .ocNeg ∧ e = 0x0203) →
    loopOfCell s n = some k → cellWatched s n = true → latchSet s (.cell n b) = false → isOff s k = false →
    cellBlanked s n start stop = false → ∃ t, exec c s = .next t ∧ latchSet t (.cell n b) = true ∧
      t.getN (O.CELL_TRIP_CNT n) = (s.getN (O.CELL_TRIP_CNT n) + 1) % 2 ^ 32 ∧ t.cells[n].stopped = true ∧ t.cells[n].low = false ∧
      t.tree = (report s cls (.loop k) (.cell n) e).tree ∧ t.loops = (tripWaits s k (policyOf s k cls)).loops ∧
      Still s { t with loops := s.loops, cells := t.cells.set n s.cells[n], seen := s.seen, tree := s.tree }
        (· ∈ [O.CELL_FLT n, O.CELL_TRIP_CNT n])) ∧
  (∀ (s : State) (b : BlockId) (k : LoopId) (start : Nat) (stop : Option Nat), loopOfBlock s b = some k →
    bfltIgnored s k b start stop = true → exec (.bfltTrip b start stop) s = .next s) ∧
  (∀ (s : State) (b : BlockId) (k : LoopId) (start : Nat) (stop : Option Nat), loopOfBlock s b = some k →
    latchSet s (.block b) = false → isOff s k = false → bfltIgnored s k b start stop = false →
    ∃ t, exec (.bfltTrip b start stop) s = .next t ∧ latchSet t (.block b) = true ∧
      (∀ n : CellId, n.val / 4 = b.val → t.cells[n].stopped = true ∧ t.cells[n].low = false ∧
        t.getN (O.CELL_TRIP_CNT n) = (s.getN (O.CELL_TRIP_CNT n) + 1) % 2 ^ 32) ∧
      (∀ n : CellId, n.val / 4 ≠ b.val → t.cells[n] = s.cells[n]) ∧
      t.tree = (report s .bflt (.loop k) (.block b) 0x0210).tree ∧ t.loops = (tripWaits s k (policyOf s k .bflt)).loops ∧
      Still s { t with loops := s.loops, cells := s.cells, seen := s.seen, tree := s.tree }
        (fun a => a = O.BLK_FLT b ∨ ∃ n : CellId, n.val / 4 = b.val ∧ a = O.CELL_TRIP_CNT n))

/-- R340, R341, R344, R345: a trip of a loop class sets its latch and counts; every cell of the loop stops, low where the class is an overvoltage
and OV_SAFE asks for it, but for a cell that its OC_NEG latch holds (R346); the policy waits. R303, R340, R341, R349: a trip of a class of loop FB
sets its latch, sends its report, ends the pulses of the channels that it holds, and its policy waits; a blanked crossing of FOC does nothing.
Where the spec leaves a point open, this follows log entry 58. -/
def Obligations.LoopTrips : Prop :=
  (∀ (s : State) (k : LoopId) (c : Instr) (cls : FaultClass),
     (c = .ovpAbsTrip k ∧ cls = .ovpAbs) ∨
       (c = .ovpSetTrip k ∧ cls = .ovpSet ∧ observing s k = false ∧ s.efN k (O.OVP_SET_N k) ≤ s.loops[k].sn.ovSet) ∨
       (c = .uvpTrip k ∧ cls = .uvp ∧ loopState s k = 3 ∧ observing s k = false ∧
         lasted s k s.loops[k].sn.uvSince (s.efN k (O.UVP_T k)) = true) ∨
       (c = .itripTrip k ∧ cls = .itrip ∧ lasted s k s.loops[k].sn.itSince (s.efN k (O.ITRIP_T k)) = true) ∨
       (c = .vbusLoTrip k ∧ cls = .vbusLo ∧ 26 ≤ s.loops[k].sn.busLo) ∨ (c = .vbusHiTrip k ∧ cls = .vbusHi ∧ 26 ≤ s.loops[k].sn.busHi) →
     running s k = true → latchSet s (.loop k (loopBit cls)) = false →
     ∃ t, exec c s = .next t ∧ latchSet t (.loop k (loopBit cls)) = true ∧ t.getN (O.TRIP_CNT k) = (s.getN (O.TRIP_CNT k) + 1) % 2 ^ 32 ∧
       (∀ n : CellId, (cellsOf s k).contains n.val = true → t.cells[n].stopped = true ∧
         t.cells[n].low = ((cls == .ovpAbs || cls == .ovpSet) && s.efN k (O.OV_SAFE k) == 1 && !latchSet s (.cell n 2))) ∧
       (∀ n : CellId, (cellsOf s k).contains n.val = false → t.cells[n] = s.cells[n]) ∧
       t.loops[k].ctl.trip = (tripWaits s k (policyOf s k cls)).loops[k].ctl.trip ∧
       Still s { t with loops := t.loops.set k s.loops[k], cells := s.cells, seen := s.seen, tree := s.tree }
         (· ∈ [O.LOOP_FLT k, O.TRIP_CNT k])) ∧
  (∀ (s : State) (c : Instr) (l : LatchId) (cls : FaultClass) (u : UnitId) (e : Nat),
     (c = .fbOvTrip ∧ l = .fb 0 ∧ cls = .fbOv ∧ u = .fb ∧ e = 0x0228 ∧ 11 ≤ s.fb.fbOv) ∨
       (c = .fbUvTrip ∧ l = .fb 1 ∧ cls = .fbUv ∧ u = .fb ∧ e = 0x0229 ∧ s.getN O.FB_STATE = 3 ∧ 11 ≤ s.fb.fbUv) ∨
       (c = .vinOvTrip ∧ l = .fb 2 ∧ cls = .vinOv ∧ u = .fb ∧ e = 0x022A) ∨
       (c = .vinUvTrip ∧ l = .fb 3 ∧ cls = .vinUv ∧ u = .fb ∧ e = 0x022B ∧ 4 ≤ s.fb.vinUv) ∨
       (∃ (f : ChannelId) (start : Nat) (stop : Option Nat), c = .focTrip f start stop ∧ focBlanked s f start stop = false ∧
         l = .foc f ∧ cls = .foc ∧ u = .channel f ∧ e = 0x022C) →
     s.getN O.FB_STATE ≠ 0 → latchSet s l = false →
     ∃ t, exec c s = .next t ∧ latchSet t l = true ∧ t.tree = (report s cls .fb u e).tree ∧
       t.fb.trip = some (match s.fb.trip with | some p => sterner p (fbPolicyOf s cls) | none => fbPolicyOf s cls) ∧
       (∀ f : ChannelId, { t.fb.chan[f] with inPulse := s.fb.chan[f].inPulse } = s.fb.chan[f] ∧
         (chanBlocked t f ≠ 0 → t.fb.chan[f].inPulse = false)) ∧
       Still s { t with fb := { t.fb with trip := s.fb.trip, chan := s.fb.chan }, seen := s.seen, tree := s.tree }
         (· ∈ [O.FB_FLT, O.FOC_FLT])) ∧
  (∀ (s : State) (f : ChannelId) (start : Nat) (stop : Option Nat), focBlanked s f start stop = true →
    exec (.focTrip f start stop) s = .next s)

/-- R357 to R363, R548, R566: the waiting policy acts: LATCH takes the loop, or loop FB, to LATCHED; HICCUP with retries left to FAULT; SHED removes
cells. An ACTIVE that abdicates gives up the token and enters DETACHED instead. Where the spec leaves a point open, this follows log entry 56. -/
def Obligations.PoliciesAct : Prop :=
  (∀ (s : State) (k : LoopId) (p : Nat), s.twin.abdDue = false → s.loops[k].ctl.trip = some p →
    ∃ t, exec (.policyApply (.loop k)) s = .next t ∧ Moves s t (fun _ => False) ∧
      (p ≠ 2 → t.loops[k].ctl.trip = none) ∧
      (standby s = false → s.getN (O.LOOP_STATE k) ≠ 0 → s.getN (O.LOOP_STATE k) ≠ 6 →
        (p = 1 → t.getN (O.LOOP_STATE k) = 6) ∧
        (p = 0 → t.getN (O.LOOP_STATE k) = (if s.getN (O.RETRY_LEFT k) = 0 then 6 else 5)) ∧
        (p = 1 ∨ p = 0 ∧ s.getN (O.LOOP_STATE k) ≠ 5 →
          ∀ n : CellId, (cellsOf s k).contains n.val = true → t.cells[n].stopped = true))) ∧
  (∀ (s : State) (p : Nat), s.twin.abdDue = false → s.fb.trip = some p →
    ∃ t, exec (.policyApply .fb) s = .next t ∧ t.fb.trip = none ∧ Moves s { t with fb := s.fb } (· = O.FB_STATE) ∧
      (standby s = false → s.getN O.FB_STATE ≠ 0 → s.getN O.FB_STATE ≠ 6 →
        (p = 1 → t.getN O.FB_STATE = 6) ∧
        (p ≠ 1 → s.getN O.FB_STATE ≠ 5 → t.getN O.FB_STATE = (if s.fb.retryLeft = 0 then 6 else 5)) ∧
        (p = 1 ∨ s.getN O.FB_STATE ≠ 5 → ∀ f : ChannelId, t.fb.chan[f].started = false))) ∧
  (∀ (s : State) (u : LoopOrFb), s.twin.abdDue = true → role s = 1 → peerReady s = true →
    ∃ t, exec (.policyApply u) s = .next t ∧ t.getN O.TW_ROLE = 4 ∧ t.twin.token = false ∧
      t.getN O.ABD_CNT = (s.getN O.ABD_CNT + 1) % 2 ^ 32 ∧
      Moves s { t with fb := s.fb, twin := s.twin } (· ∈ [O.ABD_CNT, O.FB_STATE, O.TW_JOIN_STEP, O.TW_ROLE]))

/-- R353, R354, R362: a write of 1s clears every latch field that it names, where the input of each has been inactive long enough; otherwise it
clears none. Loop FB in LATCHED, without a latch left, goes to OFF. -/
def Obligations.LatchClearing : Prop :=
  (∀ (s : State) (q : Requester) (o : LatchObj) (mask : Nat),
    Admitted s q (latchObjAddr o) (leBytes (latchObjBytes o) mask) →
    (∀ b ∈ latchBits o, bit mask b = true → inactiveLong s (latchField o b) = true) →
    ∃ t, exec (.latchClearWrite q o mask) s = .next t ∧
      Written s { t with loops := s.loops, cells := s.cells, aml := s.aml, tree := s.tree, seen := s.seen, fb := s.fb,
                         twin := { t.twin with abdDue := s.twin.abdDue } }
        (fun a => a = latchObjAddr o ∨ a = O.FB_STATE ∨ among loopTemplates a) ∧
      ((∀ k : LoopId, s.getN (O.LOOP_STATE k) ≠ 6) → ∀ b ∈ latchBits o, bit mask b = true → latchSet t (latchField o b) = false) ∧
      (s.getN O.FB_STATE = 6 → t.getN O.FB_FLT = 0 → t.getN O.FOC_FLT = 0 → (o = .fb ∨ o = .foc) → t.getN O.FB_STATE = 0)) ∧
  (∀ (s : State) (q : Requester) (o : LatchObj) (mask b : Nat),
    Admitted s q (latchObjAddr o) (leBytes (latchObjBytes o) mask) →
    b ∈ latchBits o → bit mask b = true → inactiveLong s (latchField o b) = false →
    ∃ t, exec (.latchClearWrite q o mask) s = .next t ∧ (t.rqOf q).lastAbort = 0xA030 ∧
      Keeps s { t with req := s.req } (fun _ => False))

/-- R359 to R361, R379, R382: RETRY_INT after the entry to FAULT, and after each tick, a retry takes one of the retries left (255 counts as no limit); with none left the loop, or loop FB, goes to LATCHED; where
every set latch's input has been inactive long enough the latches clear and it goes to ARMED. RETRY_LEFT is loaded again after RETRY_CLR_T in
REGULATE, loop FB's after 1 s. Where the spec leaves a point open, this follows log entries 55 and 56. -/
def Obligations.Retries : Prop :=
  (∀ s : State, (∀ k : LoopId, s.uptime < s.loops[k].ctl.retryAt + 100 * s.getN (O.RETRY_INT k) →
      exec (.retryTick (.loop k)) s = .next s) ∧
    (s.uptime < s.fb.retryAt + 100 * s.getN O.FB_RETRY_INT → exec (.retryTick .fb) s = .next s)) ∧
  (∀ (s : State) (k : LoopId), s.chip.therm = false → s.getN (O.LOOP_STATE k) = 5 →
    s.loops[k].ctl.retryAt + 100 * s.getN (O.RETRY_INT k) ≤ s.uptime → ∃ t, exec (.retryTick (.loop k)) s = .next t ∧ Moves s t (fun _ => False) ∧
      (s.getN (O.RETRY_LEFT k) = 0 → t.getN (O.LOOP_STATE k) = 6) ∧
      (s.getN (O.RETRY_LEFT k) ≠ 0 → (setLatches s (latchesOf s k)).all (inactiveLong s) = false →
        t.getN (O.LOOP_STATE k) = 5 ∧ t.loops[k].ctl.retryAt = s.loops[k].ctl.retryAt + 100 * s.getN (O.RETRY_INT k) ∧
          Still s { t with loops := t.loops.set k s.loops[k] } (· = O.RETRY_LEFT k)) ∧
      (s.getN (O.RETRY_LEFT k) ≠ 0 → t.getN (O.RETRY_LEFT k) =
        (if s.getN (O.RETRY_N k) = 255 then s.getN (O.RETRY_LEFT k) else s.getN (O.RETRY_LEFT k) - 1)) ∧
      (∀ m, s.getN (O.RETRY_LEFT k) ≠ 0 → (setLatches s (latchesOf s k)).all (inactiveLong s) = true → bankFor s k s.fb.vbus = some m →
        burnishBad s k = false → t.getN (O.LOOP_STATE k) = 1 ∧ t.getN (O.BANK_ACTIVE k) = m ∧ anyLatch t k = false)) ∧
  (∀ s : State, s.chip.therm = false → s.getN O.FB_STATE = 5 → s.fb.retryAt + 100 * s.getN O.FB_RETRY_INT ≤ s.uptime →
    ∃ t, exec (.retryTick .fb) s = .next t ∧ t.fb.retryAt = s.fb.retryAt + 100 * s.getN O.FB_RETRY_INT ∧
      Keeps s { t with fb := { t.fb with retryLeft := s.fb.retryLeft, retryAt := s.fb.retryAt } } (· ∈ [O.FB_STATE, O.FB_FLT, O.FOC_FLT]) ∧
      (s.fb.retryLeft = 0 → t.getN O.FB_STATE = 6) ∧
      (s.fb.retryLeft ≠ 0 → t.fb.retryLeft = (if s.getN O.FB_RETRY_N = 255 then s.fb.retryLeft else s.fb.retryLeft - 1) ∧
        t.getN O.FB_STATE = (if (setLatches s fbLatches).all (inactiveLong s) then 1 else 5)) ∧
      (s.fb.retryLeft ≠ 0 → (setLatches s fbLatches).all (inactiveLong s) = true → ∀ l ∈ fbLatches, latchSet t l = false)) ∧
  (∀ (s : State) (k : LoopId), s.getN (O.LOOP_STATE k) = 3 → s.loops[k].ctl.regAt + s.getN (O.RETRY_CLR_T k) * 1000 ≤ s.uptime →
    ∃ t, exec (.retryLeftReload (.loop k)) s = .next t ∧ t.getN (O.RETRY_LEFT k) = s.getN (O.RETRY_N k) ∧ Still s t (· = O.RETRY_LEFT k)) ∧
  (∀ s : State, s.getN O.FB_STATE = 3 → s.fb.regAt + 1000000 ≤ s.uptime → ∃ t, exec (.retryLeftReload .fb) s = .next t ∧
    t = { s with fb := { s.fb with retryLeft := s.getN O.FB_RETRY_N } })

/-- R371 to R375: the oldest message of the hatching tree arrives at its collector; a first report at the chip joins a root or opens one. A window
closes; a closed root that is owed no summary leaves the list and, the first of its cause, forms the event record of its event. Where the spec
leaves a point open, this follows log entries 32, 36 and 58. -/
def Obligations.HatchingTree : Prop :=
  (∀ (s : State) (m : Msg) (l : List Msg), s.tree.flight = m :: l → ∃ t, exec .faultReportArrive s = .next t ∧
    { t with regions := s.regions, tree := s.tree } = s ∧
    (m.to_ = .chip → t.tree.flight = l ∧ t.regions = s.regions) ∧
    (m.to_ = .chip → m.summary = false → s.tree.roots = [] → ∃ g : Root, t.tree.roots = [g] ∧ g.cause = m.cause ∧ g.event = m.event ∧
      g.unit = m.unit ∧ g.openedAt = s.uptime ∧ g.closed = false)) ∧
  (∀ (s : State) (c : CollectorId) (cause : Cause), ∃ t, exec (.coalesceWindowClose c cause) s = .next t ∧
    { t with regions := s.regions, tree := s.tree } = s ∧
    (c = .chip → t.tree = { s.tree with
      roots := updFirst (fun g => !g.closed && g.cause == cause && decide (g.openedAt + 1 ≤ s.uptime))
        (fun g => { g with closed := true }) s.tree.roots })) ∧
  (∀ (s : State) (g : Root), s.tree.roots.find? (fun g => g.closed && g.owed.isEmpty) = some g →
    s.tree.quiet.find? (fun e => e.1 == g.cause) = none → ∃ t, exec .rootRecordForm s = .next t ∧
      t.tree.roots = s.tree.roots.erase g ∧ t.tree.flight = s.tree.flight ∧ Keeps s { t with tree := s.tree } (fun _ => False) ∧
      t = recordRaw { s with tree := t.tree } g.event (sevOf g.event) false (rootPayload g 0))

/-! ### Loop states, set-point sources, PGOOD -/

/-- R384 to R387, R391 to R394: LOOP_CMD sets LOOP_REQ; ON arms a loop in OFF that meets every check of R387. OFF leads from RAMP and REGULATE to
SOFTSTOP, OFF_NOW and every other state to OFF. ENn does the same by its edges, with EN_OFF in the place of OFF_NOW. Where the spec leaves a point
open, this follows log entries 47 and 59. -/
def Obligations.LoopOnAndOff : Prop :=
  (∀ (s : State) (q : Requester) (k : LoopId), Admitted s q (O.LOOP_CMD k) [1] → s.getN (O.ON_SRC k) ≠ 1 →
    s.getN (O.LOOP_STATE k) ≠ 0 ∨ armReason s k = 0 → ∃ t, exec (.loopCmdOn q k) s = .next t ∧ t.getN (O.LOOP_REQ k) = 1 ∧
      Written s { t with loops := s.loops, cells := s.cells, aml := s.aml, tree := s.tree, seen := s.seen,
                         twin := { t.twin with abdDue := s.twin.abdDue } } (fun a => a = O.LOOP_REQ k ∨ among loopTemplates a) ∧
      (s.getN (O.LOOP_STATE k) ≠ 0 ∨ (s.getN (O.ON_SRC k) ≠ 0 ∧ s.loops[k].ctl.en = false) → Written s t (· = O.LOOP_REQ k)) ∧
      (s.getN (O.LOOP_STATE k) = 0 → s.getN (O.ON_SRC k) = 0 ∨ s.loops[k].ctl.en = true → burnishBad s k = false →
        t.getN (O.LOOP_STATE k) = 1 ∧ t.getN (O.BANK_ACTIVE k) = (bankFor s k s.fb.vbus).getD 0)) ∧
  (∀ (s : State) (q : Requester) (k : LoopId) (now : Bool), Admitted s q (O.LOOP_CMD k) [if now then 3 else 2] → standby s = false →
    ∃ t, exec (if now then .loopCmdOffNow q k else .loopCmdOff q k) s = .next t ∧ t.getN (O.LOOP_REQ k) = 0 ∧
      t.getN (O.LOOP_STATE k) = (if now = false ∧ 2 ≤ s.getN (O.LOOP_STATE k) ∧ s.getN (O.LOOP_STATE k) ≤ 4 then 4 else 0) ∧
      Written s { t with loops := s.loops, cells := s.cells, aml := s.aml, tree := s.tree, seen := s.seen,
                         twin := { t.twin with abdDue := s.twin.abdDue } } (fun a => a = O.LOOP_REQ k ∨ among loopTemplates a)) ∧
  (∀ (s : State) (k : LoopId), ∃ t, exec (.enRise k) s = .next t ∧ t.loops[k].ctl.en = true ∧
    Moves s t (fun _ => False) ∧
    (s.getN (O.LOOP_STATE k) ≠ 0 ∨ s.getN (O.ON_SRC k) = 0 ∧ s.isOn (O.LOOP_REQ k) = false →
      { t with loops := t.loops.set k s.loops[k] } = s) ∧
    (s.chip.main = true → s.getN (O.LOOP_STATE k) = 0 → s.getN (O.ON_SRC k) = 1 → armReason s k = 0 → burnishBad s k = false →
      t.getN (O.LOOP_STATE k) = 1)) ∧
  (∀ (s : State) (k : LoopId), ∃ t, exec (.enFall k) s = .next t ∧ t.loops[k].ctl.en = false ∧
    Moves s t (fun _ => False) ∧
    (s.getN (O.ON_SRC k) = 0 → t = { s with loops := t.loops }) ∧
    (s.chip.main = true → s.getN (O.ON_SRC k) ≠ 0 → standby s = false → t.getN (O.LOOP_STATE k) =
      (if s.isOn (O.EN_OFF k) = false ∧ 2 ≤ s.getN (O.LOOP_STATE k) ∧ s.getN (O.LOOP_STATE k) ≤ 4 then 4 else 0)))

/-- R146, R388 to R390, R405 to R407: in ARMED the pre-bias search ends, the conditions still unmet are recorded once after 10 ms, and with all of
them met the loop enters RAMP, or trips on an open remote pair. PGOODn is released after PG_DLY inside the window, and pulled low outside it. Where
the spec leaves a point open, this follows log entry 47. -/
def Obligations.ArmedRampAndPgood : Prop :=
  (∀ (s : State) (k : LoopId) (x : Option (Fin 8 × Fin 4096)), s.getN (O.LOOP_STATE k) = 1 → ∃ t, exec (.prebiasDone k x) s = .next t ∧
    t.loops[k].ctl.preDone = true ∧ (s.isOn (O.PREBIAS k) = false ∨ x = none → t.loops[k].ctl.vPre = 0) ∧
    { t with loops := t.loops.set k s.loops[k] } = s) ∧
  (∀ (s : State) (k : LoopId), s.getN (O.LOOP_STATE k) = 1 → s.loops[k].ctl.armedNoted = false →
    s.loops[k].ctl.armedAt + 10000 ≤ s.uptime → ∃ t, exec (.armedWaitTimeout k) s = .next t ∧ t.loops[k].ctl.armedNoted = true ∧
      Keeps s { t with loops := t.loops.set k s.loops[k] } (fun _ => False)) ∧
  (∀ (s : State) (k : LoopId), s.getN (O.LOOP_STATE k) = 1 → rampUnmet s k = 0 → standby s = false →
    s.getB (O.FBL_FLAGS k) 0 = false → s.getB (O.FBL_FLAGS k) 1 = false → ∃ t, exec (.armToRamp k) s = .next t ∧
      t.getN (O.LOOP_STATE k) = 2 ∧ t.loops[k].eng.x = x0Of (activeImage s k) ∧ t.loops[k].ph.rampN = rampCells s k ∧
      t.get (O.SP_NOW k) = toStep (t.loops[k].sp.now * 4000) ∧ t.loops[k].sp.now ≤ s.loops[k].ctl.vPre ∧
      Keeps s { t with loops := t.loops.set k s.loops[k], aml := s.aml }
        (· ∈ [O.LOOP_STATE k, O.SP_NOW k, O.SP_TARGET k, O.SRC_STAT k, O.ILIM_SCALE k])) ∧
  (∀ (s : State) (k : LoopId), s.getN (O.LOOP_STATE k) = 1 → rampUnmet s k = 0 → standby s = false →
    s.getB (O.FBL_FLAGS k) 0 = true ∨ s.getB (O.FBL_FLAGS k) 1 = true → ∃ t, exec (.armToRamp k) s = .next t ∧
      latchSet t (.loop k 14) = true ∧ t.getN (O.TRIP_CNT k) = (s.getN (O.TRIP_CNT k) + 1) % 2 ^ 32 ∧ Moves s t (fun _ => False)) ∧
  (∀ (s : State) (k : LoopId) (u : Nat), s.loops[k].ctl.pgSince = some u → s.getN (O.LOOP_STATE k) = 3 → observing s k = false →
    s.isOn (O.PG_STAT k) = false → u + s.efN k (O.PG_DLY k) * 2000 ≤ s.loops[k].eng.tick → ∃ t, exec (.pgoodRelease k) s = .next t ∧
      t.getN (O.PG_STAT k) = 1 ∧ Still s t (· = O.PG_STAT k)) ∧
  (∀ (s : State) (k : LoopId), s.getN (O.LOOP_STATE k) ≠ 3 ∨ observing s k = false ∧ 16 ≤ s.loops[k].ctl.pgOut →
    ∃ t, exec (.pgoodPullLow k) s = .next t ∧ (passive s = false → t.isOn (O.PG_STAT k) = false) ∧ (passive s = true → t = s) ∧
      Still s { t with loops := t.loops.set k s.loops[k], aml := s.aml } (· = O.PG_STAT k))

/-- R395, R397 to R404, R427: both source paths run each microsecond, SRC_VALUE follows the one of SP_SRC, SP_TARGET the source; an edge of SPINn
takes part in its own loop only; a source's loss and return show in SRC_STAT; SRC_LOSS_T after a loss the phase budget and the power state return to
their reset values and the loop keeps a safe set-point or stops softly; SP_SRC takes its value in OFF and REGULATE. Where the spec leaves a point
open, this follows log entries 47, 60 and 61. -/
def Obligations.SetpointSources : Prop :=
  (∀ (s : State) (k : LoopId) (x : Fin 1024), s.chip.main = true → ∃ t, exec (.setpointSourceSample k x) s = .next t ∧
    t.loops[k].sp.vref = ((((x.val : Rat) + 1 / 2) / 1024) :: s.loops[k].sp.vref).take 8 ∧
    t.loops[k].sp.vrefZero = runOf (x.val == 0) s.loops[k].sp.vrefZero ∧
    t.get (O.SRC_VALUE k) = clampI (toStep (t.loops[k].sp.src * 4000)) 0 14400 ∧
    t.get (O.SP_TARGET k) = toStep (t.loops[k].sp.final * 4000) ∧
    Keeps s { t with loops := t.loops.set k s.loops[k], aml := s.aml } (· ∈ [O.SRC_VALUE k, O.SP_TARGET k, O.SRC_STAT k])) ∧
  (∀ (s : State) (k : LoopId) (e : SpinEvent), s.chip.main = true → ∃ t, exec (.spinEdge k e) s = .next t ∧
    { t with loops := t.loops.set k s.loops[k] } = s ∧
    (∀ n, e = .fall n → s.isOn (O.SPIN_MODE k) = false → t.loops[k].sp.fall = some n) ∧
    (∀ n, e = .rise n → s.isOn (O.SPIN_MODE k) = false → t.loops[k].sp.rise = some n ∧ t.loops[k].sp.fall = none) ∧
    (∀ b, e = .bit b → s.isOn (O.SPIN_MODE k) = true → t.loops[k].sp.pdm = (b :: s.loops[k].sp.pdm).take (3 * s.getN (O.PDM_R k) - 2))) ∧
  (∀ (s : State) (k : LoopId) (x : SpSource), s.chip.main = true → lostNow s k x = true →
    ∃ t, exec (.sourceLost k x) s = .next t ∧ t.getB (O.SRC_STAT k) (srcCode x) = true ∧
      (srcLost s k (srcCode x) = false → s.getN (O.SP_SRC k) = srcCode x → onOrArmed s k = true →
        t.loops[k].sp.lostAt = some s.uptime) ∧
      Keeps s { t with loops := t.loops.set k s.loops[k] } (· = O.SRC_STAT k)) ∧
  (∀ (s : State) (k : LoopId) (x : SpSource), s.chip.main = true → lostNow s k x = false →
    64 ≤ quietOf s k x → ∃ t, exec (.sourceValid k x) s = .next t ∧
      t.getB (O.SRC_STAT k) (srcCode x) = false ∧ Moves s t (· = O.SRC_STAT k)) ∧
  (∀ (s : State) (k : LoopId) (u : Nat), s.loops[k].sp.lostAt = some u → onOrArmed s k = true → u + s.efN k (O.SRC_LOSS_T k) ≤ s.uptime →
    ∃ t, exec (.sourceLossTimeout k) s = .next t ∧ t.getN (O.PS_BUDGET k) = 96 ∧ t.getN (O.PS_POWER k) = 0 ∧
      t.getB (O.SRC_STAT k) 3 = true ∧ t.loops[k].sp.lostAt = none ∧
      (s.efN k (O.SRC_LOSS_ACT k) = 0 → t.loops[k].sp.safe = true ∧ t.getN (O.LOOP_STATE k) = s.getN (O.LOOP_STATE k)) ∧
      (s.efN k (O.SRC_LOSS_ACT k) ≠ 0 → standby s = false → s.getN (O.LOOP_STATE k) ≠ 1 → t.getN (O.LOOP_STATE k) = 4) ∧
      Moves s t (· ∈ [O.PS_BUDGET k, O.PS_POWER k, O.SRC_STAT k])) ∧
  (∀ (s : State) (q : Requester) (k : LoopId) (v : Byte), Admitted s q (O.SP_SRC k) [v] → (v.toNat = 0 → ownerOf s k ≠ none) →
    s.getN (O.LOOP_STATE k) = 0 ∨ s.getN (O.LOOP_STATE k) = 3 ∧ srcLost s k v.toNat = false →
    ∃ t, exec (.spSrcWrite q k v.toNat) s = .next t ∧ t.getN (O.SP_SRC k) = v.toNat ∧
      (s.getN (O.LOOP_STATE k) = 3 → s.getN (O.SP_SRC k) ≠ v.toNat → t.getB (O.SRC_STAT k) 3 = false ∧ t.loops[k].sp.lostAt = none) ∧
      Written s { t with loops := s.loops, cells := s.cells, aml := s.aml, tree := s.tree, seen := s.seen,
                         twin := { t.twin with abdDue := s.twin.abdDue } }
        (fun a => a = O.SP_SRC k ∨ a = O.SRC_STAT k ∨ among loopTemplates a))

/-! ### The Amdin links -/

/-- R395, R396, R404, R408, R424 to R429: an upstream frame of a loop that passes its checks takes effect, and is answered in the window two cycles
on (a device in role STANDBY owes none): SETV, SLEW, PSTATE, PRENOTIFY, CANCEL, READ; LOADI is not answered. Where the spec leaves a point open,
this follows log entries 48 and 49. -/
def Obligations.AmdinLoopFrames : Prop :=
  ∀ (s : State) (p : PortId) (loop : BitVec 4) (payload : BitVec 24) (at_ : Fin 2000) (k : LoopId),
    let v := payload.toNat
    let ok (ty : Nat) := linkTakes s p = true ∧ frameCheck s p ty loop.toNat v = 0 ∧ k = loopOf loop.toNat ∧ cutOff s k = false
    let answer (t : State) (ty : Nat) (a : Answer) : Prop := t.aml[p].replies = (owe s p ty loop.toNat a).aml[p].replies
    (ok up.SETV → s.getN (O.SP_SRC k) = 0 → s.getN (O.LOOP_STATE k) < 4 → ∃ t, exec (.amdinSetv p loop payload) s = .next t ∧
      t.loops[k].sp.setv = some (quarter v) ∧ answer t up.SETV (.reply (if s.getN (O.LOOP_STATE k) = 2 then rep.DEFERRED else rep.ACK)) ∧
      Keeps s { t with loops := t.loops.set k s.loops[k], aml := s.aml } (· ∈ [O.SP_TARGET k, O.SRC_STAT k])) ∧
    (ok up.SETV → s.getN (O.SP_SRC k) ≠ 0 ∨ 4 ≤ s.getN (O.LOOP_STATE k) → ∃ t, exec (.amdinSetv p loop payload) s = .next t ∧
      answer t up.SETV (.reply (if s.getN (O.SP_SRC k) ≠ 0 then rep.IGNORED else rep.STATE)) ∧
      Keeps s { t with aml := t.aml.set p s.aml[p] } (fun _ => False)) ∧
    (ok up.SLEW → ∃ t, exec (.amdinSlew p loop payload) s = .next t ∧ t.getN (O.SP_SLEW k) = v ∧ answer t up.SLEW (.reply rep.ACK) ∧
      Still s { t with loops := t.loops.set k s.loops[k], aml := t.aml.set p s.aml[p], free := s.free } (· = O.SP_SLEW k)) ∧
    (ok up.PSTATE → ∃ t, exec (.amdinPstate p loop payload) s = .next t ∧
      Still s { t with loops := t.loops.set k s.loops[k], aml := t.aml.set p s.aml[p], free := s.free }
        (· ∈ [O.PS_BUDGET k, O.PS_POWER k]) ∧
      (s.getN (O.LOOP_STATE k) ≠ 2 → s.getN (O.LOOP_STATE k) ≠ 3 → s.getN (O.LOOP_STATE k) ≠ 4 →
        t.getN (O.PS_BUDGET k) = bits v 0 7 ∧ t.getN (O.PS_POWER k) = bits v 8 2 ∧ answer t up.PSTATE (.reply rep.ACK)) ∧
      (s.getN (O.LOOP_STATE k) = 3 → s.loops[k].ph.enabling = false →
        (∃ n, t.loops[k].ph.pstate = some (bits v 0 7, bits v 8 2, n)) ∧
          answer t up.PSTATE (.reply (if skState s k = 1 ∨ skState s k = 3 then rep.DEFERRED else rep.ACK))) ∧
      (s.getN (O.LOOP_STATE k) = 2 ∨ s.getN (O.LOOP_STATE k) = 4 →
        t.loops = s.loops ∧ answer t up.PSTATE (.reply rep.IGNORED))) ∧
    (ok up.PRENOTIFY → standby s = false → s.getN (O.LOOP_STATE k) = 3 → observing s k = false → grounded s k = false →
      s.isOn (O.SK_EN k) = true → signOf 13 (bits v 0 13) ≠ 0 → s.efN k (O.SK_CONF_MIN k) ≤ bits v 21 2 →
      (skState s k = 1 → s.loops[k].sk.notice.di.natAbs < (signOf 13 (bits v 0 13)).natAbs) →
      ∃ t, exec (.amdinPrenotify p loop payload at_) s = .next t ∧ answer t up.PRENOTIFY (.reply rep.ACK) ∧
        t.loops[k].sk.pending = some ⟨signOf 13 (bits v 0 13), bits v 13 8, bits v 21 2, s.uptime * 2000 + at_.val⟩ ∧
        s.loops[k].eng.sample < t.loops[k].sk.openAt ∧
        { t with loops := t.loops.set k s.loops[k], aml := t.aml.set p s.aml[p], free := s.free } = s) ∧
    (ok up.CANCEL → ∃ t, exec (.amdinCancel p loop payload) s = .next t ∧
      answer t up.CANCEL (.reply (if skState s k = 1 then rep.ACK else rep.IGNORED)) ∧
      (skState s k = 1 → t.loops[k].sk.cancel = true) ∧ { t with loops := t.loops.set k s.loops[k], aml := t.aml.set p s.aml[p] } = s) ∧
    (ok up.READ → ∃ t, exec (.amdinRead p loop payload) s = .next t ∧ answer t up.READ (.data (v * 2 ^ 20 + quantity s k v)) ∧
      { t with aml := t.aml.set p s.aml[p] } = s) ∧
    (ok up.LOADI → ∃ t, exec (.amdinLoadi p loop payload at_) s = .next t ∧ t.get (O.LI_NOW k) = signOf 16 v ∧
      (∃ n, t.loops[k].ph.liNext = some ((signOf 16 v : Rat) / 4, (s.uptime + s.getN (O.LI_VALID k)) * 2000 + at_.val, n)) ∧
      t.aml[p].replies = s.aml[p].replies ∧
      Still s { t with loops := t.loops.set k s.loops[k], aml := t.aml.set p s.aml[p], free := s.free } (· = O.LI_NOW k))

/-- R423, R425: a frame that fails a check of its format, owner or range counts in NAK_CNT and changes nothing else but its port's answers; one
whose loop's master region has lost CK0 is answered so. R423, R441: a frame that fails its CRC counts in CRC_ERR_UP, and in BLK_ERR while UP. Where
the spec leaves a point open, this follows log entry 71. -/
def Obligations.AmdinRefusedFrames : Prop :=
  (∀ (s : State) (p : PortId) (loop : BitVec 4) (payload : BitVec 24) (at_ : Fin 2000) (c : Instr) (ty : Nat),
    (c, ty) ∈ [(.amdinIdle p loop payload, up.IDLE), (.amdinSetv p loop payload, up.SETV), (.amdinSlew p loop payload, up.SLEW),
      (.amdinPstate p loop payload, up.PSTATE), (.amdinPrenotify p loop payload at_, up.PRENOTIFY), (.amdinCancel p loop payload, up.CANCEL),
      (.amdinRead p loop payload, up.READ), (.amdinLoadi p loop payload at_, up.LOADI), (Instr.amdinAlack p loop payload, up.ALACK)] →
    linkTakes s p = true →
    (frameCheck s p ty loop.toNat payload.toNat ≠ 0 → ∃ t, exec c s = .next t ∧
      t.getN (O.NAK_CNT p) = (s.getN (O.NAK_CNT p) + 1) % 2 ^ 32 ∧
      Keeps s { t with aml := t.aml.set p s.aml[p] } (· = O.NAK_CNT p)) ∧
    (1 ≤ ty → ty ≤ 6 → frameCheck s p ty loop.toNat payload.toNat = 0 → cutOff s (loopOf loop.toNat) = true → ∃ t, exec c s = .next t ∧
      t.aml[p].replies = (owe s p ty loop.toNat (.reply 13)).aml[p].replies ∧ { t with aml := t.aml.set p s.aml[p] } = s)) ∧
  (∀ (s : State) (p : PortId) (f : BitVec 40), s.getN (O.LINK_STATE p) = 3 → amlCrc (f.toNat / 256) ≠ f.toNat % 256 →
    ∃ t, exec (.amdinUpstreamReject p f) s = .next t ∧ t.getN (O.CRC_ERR_UP p) = (s.getN (O.CRC_ERR_UP p) + 1) % 2 ^ 32 ∧
      t.getN (O.BLK_ERR p) = min 2 (s.getN (O.BLK_ERR p) + 1) ∧ t.aml[p].winBad = s.aml[p].winBad + 1 ∧
      Keeps s { t with aml := t.aml.set p s.aml[p] } (· ∈ [O.CRC_ERR_UP p, O.BLK_ERR p])) ∧
  (∀ (s : State) (p : PortId) (f : BitVec 40), s.getN (O.LINK_STATE p) ≠ 0 → amlCrc (f.toNat / 256) = f.toNat % 256 →
    9 ≤ bits f.toNat 36 4 → bits f.toNat 36 4 ≠ 14 → linkTakes s p = true → ∃ t, exec (.amdinUpstreamReject p f) s = .next t ∧
      t.getN (O.NAK_CNT p) = (s.getN (O.NAK_CNT p) + 1) % 2 ^ 32 ∧ Keeps s { t with aml := t.aml.set p s.aml[p] } (· = O.NAK_CNT p))

/-- R414, R420, R430, R432, R438, R441: IDLE carries the load's count of errors; ALACK settles the alert that it names and else counts as bad; a
correct TRAIN answer counts; each cycle begins with a downstream window, which sends one frame with its CRC: TRAIN while a phase runs. -/
def Obligations.AmdinPortFrames : Prop :=
  (∀ (s : State) (p : PortId) (loop : BitVec 4) (payload : BitVec 24), linkTakes s p = true →
    frameCheck s p up.IDLE loop.toNat payload.toNat = 0 → ∃ t, exec (.amdinIdle p loop payload) s = .next t ∧
      t.getN (O.CRC_ERR_DN p) = (s.getN (O.CRC_ERR_DN p) + payload.toNat) % 2 ^ 32 ∧
      t.getN (O.BLK_ERR p) = min 2 (s.getN (O.BLK_ERR p) + payload.toNat) ∧
      Still s { t with aml := t.aml.set p s.aml[p] } (· ∈ [O.CRC_ERR_DN p, O.BLK_ERR p])) ∧
  (∀ (s : State) (p : PortId) (loop : BitVec 4) (payload : BitVec 24), linkTakes s p = true →
    frameCheck s p up.ALACK loop.toNat payload.toNat = 0 →
    let i : Fin 9 := Fin.ofNat 9 (min loop.toNat 8)
    ∃ t, exec (.amdinAlack p loop payload) s = .next t ∧ Still s { t with aml := t.aml.set p s.aml[p] } (· = O.ALACK_BAD p) ∧
      (∀ b, s.aml[p].out[i] = some (b, payload.toNat) → t.aml[p].out[i] = none ∧ t.getN (O.ALACK_BAD p) = s.getN (O.ALACK_BAD p)) ∧
      ((∀ b, s.aml[p].out[i] ≠ some (b, payload.toNat)) → t.aml[p].out = s.aml[p].out ∧
        t.getN (O.ALACK_BAD p) = (s.getN (O.ALACK_BAD p) + 1) % 2 ^ 32)) ∧
  (∀ (s : State) (p : PortId) (loop : BitVec 4) (payload : BitVec 24) (ph : TrainPhase), passive s = false →
    s.getN (O.LINK_STATE p) ∈ [1, 2, 4] → frameCheck s p up.TRAIN loop.toNat payload.toNat = 0 → s.aml[p].phase = some ph → ph ≠ .cap →
    bits payload.toNat 20 4 = 2 → bits payload.toNat 0 20 = s.aml[p].content → ∃ t, exec (.amdinTrain p loop payload) s = .next t ∧
      t.aml[p].good = s.aml[p].good + 1 ∧ { t with aml := t.aml.set p s.aml[p] } = s) ∧
  (∀ (s : State) (p : PortId), s.getN (O.LINK_STATE p) ≠ 0 → passive s = false → ∃ t, exec (.amdinDownstreamWindow p) s = .next t ∧
    (∃ d : Down, t.aml[p].line = some (amlFrame d)) ∧ t.aml[p].cycleOn = true ∧
    t.getN (O.CYCLE_CNT p) = (if s.aml[p].cycleOn then (s.getN (O.CYCLE_CNT p) + 1) % 2 ^ 64 else s.getN (O.CYCLE_CNT p)) ∧
    (∀ ph, s.aml[p].phase = some ph → t.aml[p].cycles = s.aml[p].cycles + 1 ∧
      t.aml[p].line = some (amlFrame ⟨14, 15, phaseCode ph * 2 ^ 20 + t.aml[p].content⟩)) ∧
    Keeps s { t with aml := t.aml.set p s.aml[p] } (· ∈ [O.BLK_ERR p, O.CYCLE_CNT p]))

/-- R437: enabling a port, LINK_CMD or LINK_RETRY in DOWN resets the link and starts its training. R438, R439: the phases complete in order, to UP
with DONE. R440 to R443: a phase past its limit, 16 bad windows or disabling leads to DOWN; two frame errors in a block lead to a lower rate. Where
the spec leaves a point open, this follows log entry 71. -/
def Obligations.LinkTraining : Prop :=
  (∀ (s : State) (q : Requester) (p : PortId), Admitted s q (O.LINK_CMD p) [1] → mayTrain s p = true →
    ∃ t, exec (.linkCmdReset q p) s = .next t ∧ t.getN (O.LINK_STATE p) = 1 ∧ t.getN (O.RATE_NOW p) = 0 ∧ t.getN (O.CYCLE_CNT p) = 0 ∧
      t.getN (O.TRAIN_CNT p) = (s.getN (O.TRAIN_CNT p) + 1) % 2 ^ 32 ∧ t.aml[p].phase = some .pattern ∧
      Written s { t with aml := t.aml.set p s.aml[p], loops := s.loops }
        (fun a => a ∈ [O.LINK_STATE p, O.RATE_NOW p, O.CYCLE_CNT p, O.TRAIN_CNT p] ∨ among [O.SRC_STAT 0] a)) ∧
  (∀ (s : State) (q : Requester) (p : PortId) (on : Bool), Admitted s q (O.AML_EN p) [if on then 1 else 0] →
    ∃ t, exec (.amlEnWrite q p (b2n on)) s = .next t ∧ t.getN (O.AML_EN p) = b2n on ∧
      (on = false → t.getN (O.LINK_STATE p) = 0) ∧
      (on = true → s.getN O.START_STEP = 9 → passive s = false → t.getN (O.LINK_STATE p) = 1 ∧ t.aml[p].phase = some .pattern) ∧
      Written s { t with aml := t.aml.set p s.aml[p], loops := s.loops }
        (fun a => a ∈ [O.AML_EN p, O.LINK_STATE p, O.RATE_NOW p, O.CYCLE_CNT p, O.TRAIN_CNT p] ∨ among [O.SRC_STAT 0] a)) ∧
  (∀ (s : State) (p : PortId), mayTrain s p = true → s.getN (O.LINK_STATE p) = 0 →
    s.aml[p].downAt + s.getN (O.LINK_RETRY p) * 1000 ≤ s.uptime → ∃ t, exec (.linkRetryExpire p) s = .next t ∧
      t.getN (O.LINK_STATE p) = 1 ∧ t.aml[p].phase = some .pattern ∧
      Keeps s { t with aml := t.aml.set p s.aml[p], loops := s.loops }
        (fun a => a ∈ [O.LINK_STATE p, O.RATE_NOW p, O.CYCLE_CNT p, O.TRAIN_CNT p] ∨ among [O.SRC_STAT 0] a)) ∧
  (∀ (s : State) (p : PortId) (eye : Fin 1000) (ph : TrainPhase), standby s = false → s.getN (O.LINK_STATE p) ∈ [1, 2, 4] →
    s.aml[p].phase = some ph → ∃ t, exec (.trainPhaseComplete p eye) s = .next t ∧
      Keeps s { t with aml := t.aml.set p s.aml[p] }
        (· ∈ [O.ADLY p, O.BLK_ERR p, O.LINK_STATE p, O.LOAD_CAP p, O.RATE_NOW p]) ∧
      (ph = .pattern → 16 ≤ s.aml[p].good → t.getN (O.ADLY p) = eye.val ∧ t.aml[p].phase =
        some (if s.getN (O.LINK_STATE p) = 4 ∨ s.aml[p].ended = true then .done else if s.aml[p].rateTo = 0 then .cap else .test)) ∧
      (∀ c, ph = .cap → s.aml[p].cap = some c → 2 ≤ s.aml[p].good → bits c 8 4 ≠ 0 → bit c 0 = true →
        t.getN (O.LOAD_CAP p) = c % 65536 ∧ t.aml[p].phase = some (if (nextRate s.aml[p] c 0).isSome then .rate else .done)) ∧
      (ph = .rate → 4 ≤ s.aml[p].cycles → t.getN (O.RATE_NOW p) = s.aml[p].rateTo ∧ t.aml[p].phase = some .pattern) ∧
      (ph = .test → 5000 ≤ s.aml[p].good → t.getN (O.LINK_STATE p) = 1 ∧ t.aml[p].passed = s.aml[p].rateTo) ∧
      (ph = .done → s.aml[p].cycles ≠ 0 → t.getN (O.LINK_STATE p) = 3 ∧ t.aml[p].phase = none)) ∧
  (∀ (s : State) (p : PortId) (c : Instr),
    (c = .trainFail p ∧ s.getN (O.LINK_STATE p) ∈ [1, 2] ∧ s.aml[p].phase = some .pattern ∧ s.aml[p].good < 16 ∧ 1024 ≤ s.aml[p].cycles) ∨
      (c = .trainFail p ∧ s.getN (O.LINK_STATE p) ∈ [1, 2] ∧ s.aml[p].phase = some .cap ∧ s.aml[p].good < 2 ∧ 8 ≤ s.aml[p].cycles) ∨
      (c = .linkDown p .badWindows ∧ s.getN (O.LINK_STATE p) = 3 ∧ 16 ≤ s.aml[p].winBad) ∨
      (c = .linkDown p .reframe ∧ s.getN (O.LINK_STATE p) = 4 ∧ s.aml[p].phase = some .pattern ∧ s.aml[p].good < 16 ∧ 64 ≤ s.aml[p].cycles) ∨
      (c = .linkDown p .disabled ∧ s.isOn (O.AML_EN p) = false) →
    ∃ t, exec c s = .next t ∧ t.getN (O.LINK_STATE p) = 0 ∧
      Keeps s { t with aml := t.aml.set p s.aml[p], loops := s.loops } (fun a => a = O.LINK_STATE p ∨ among [O.SRC_STAT 0] a)) ∧
  (∀ (s : State) (p : PortId), s.getN (O.LINK_STATE p) = 3 → 2 ≤ s.getN (O.BLK_ERR p) → ∃ t, exec (.rateFallback p) s = .next t ∧
    (s.getN (O.RATE_NOW p) = 0 → t.getN (O.LINK_STATE p) = 3 ∧ t.getN (O.BLK_ERR p) = 0) ∧
    (s.getN (O.RATE_NOW p) ≠ 0 → s.aml[p].replies = [] → t.getN (O.LINK_STATE p) = 4 ∧
      t.getN (O.FALLBACK_CNT p) = (s.getN (O.FALLBACK_CNT p) + 1) % 2 ^ 32 ∧ t.aml[p].rateTo = s.getN (O.RATE_NOW p) - 1) ∧
    Keeps s { t with aml := t.aml.set p s.aml[p] } (· ∈ [O.BLK_ERR p, O.LINK_STATE p, O.FALLBACK_CNT p])) ∧
  (∀ (s : State) (p : PortId) (u : Nat), s.aml[p].firstAt = some u → s.aml[p].everUp = false →
    u + s.getN (O.LINK_UP_T p) * 1000 ≤ s.uptime → ∃ t, exec (.linkUpTimeout p) s = .next t ∧ t.aml[p].upLate = true ∧
      Keeps s { t with aml := t.aml.set p s.aml[p], loops := s.loops } (among [O.SRC_STAT 0]))

/-! ### Thermal supervision -/

/-- R477 to R489, R566: a thermal shutdown latches its cause, sensor and time, counts, stops every cell and takes each running loop, and loop FB, to
FAULT; an ACTIVE may abdicate instead. Restart takes THERMTRIP_N high; the restart latch is cleared by a write where it may be. Where the spec
leaves a point open, this follows log entries 55 and 72. -/
def Obligations.ThermalShutdownAndRestart : Prop :=
  (∀ (s : State) (cause : Fin 5) (x : Sensor) (v : Int) (ns : Nat), causeHolds s cause x v ns = false →
    exec (.thermalShutdown cause x v ns) s = .next s) ∧
  (∀ (s : State) (cause : Fin 5) (x : Sensor) (v : Int) (ns : Nat), s.chip.aon = true → s.chip.therm = false →
    causeHolds s cause x v ns = true →
    ∃ t, exec (.thermalShutdown cause x v ns) s = .next t ∧ t.chip = { s.chip with
        therm := true, shutdowns := s.uptime :: s.chip.shutdowns, tripDue := !s.chip.main } ∧
      t.getN O.TSD_CAUSE = cause.val ∧ t.getN O.TSD_SENSOR = sensCode x ∧ t.getN O.TSD_UPTIME = s.uptime ∧
      t.getN O.TSD_CNT = (s.getN O.TSD_CNT + 1) % 2 ^ 32 ∧ (∀ n : CellId, t.cells[n].stopped = true) ∧
      ((cause.val = 1 ∨ cause.val = 3) ∧ abdicates s 3 = true → t.getN O.TW_ROLE = 4 ∧ t.twin.token = false) ∧
      (¬ ((cause.val = 1 ∨ cause.val = 3) ∧ abdicates s 3 = true) →
        (∀ k : LoopId, t.getN (O.LOOP_STATE k) = if 1 ≤ s.getN (O.LOOP_STATE k) ∧ s.getN (O.LOOP_STATE k) ≤ 4 then 5
          else s.getN (O.LOOP_STATE k)) ∧
        t.getN O.FB_STATE = if s.getN O.FB_STATE = 0 ∨ s.getN O.FB_STATE = 6 then s.getN O.FB_STATE else 5) ∧
      Moves s { t with chip := s.chip, fb := s.fb, twin := s.twin }
        (fun a => a ∈ [O.TSD_CAUSE, O.TSD_SENSOR, O.TSD_UPTIME, O.TSD_CNT, O.TH_FLT, O.FB_STATE, O.ABD_CNT, O.TW_JOIN_STEP, O.TW_ROLE] ∨
          among [O.TH_SD 0] a)) ∧
  (∀ s : State, s.chip.therm = true → coolLong s = true → latchSet s .restart = false → ∃ t, exec .thermalRestart s = .next t ∧
    t.chip = { s.chip with therm := false } ∧ (∀ k : LoopId, t.isOn (O.TH_SD k) = false) ∧
    (s.getN O.FB_STATE = 5 → t.getN O.FB_STATE = if s.fb.thSd then 1 else 5) ∧
    Moves s { t with chip := s.chip, fb := s.fb } (fun a => a = O.FB_STATE ∨ among [O.TH_SD 0] a)) ∧
  (∀ (s : State) (q : Requester), Admitted s q O.TH_FLT [1] → inactiveLong s .restart = true → ∃ t, exec (.rsLatchClear q) s = .next t ∧
    latchSet t .restart = false ∧ t.chip = { s.chip with shutdowns := [] } ∧ Written s { t with chip := s.chip } (· = O.TH_FLT)) ∧
  (∀ (s : State) (q : Requester), Admitted s q O.TH_FLT [1] → inactiveLong s .restart = false → ∃ t, exec (.rsLatchClear q) s = .next t ∧
    Keeps s { t with req := s.req } (fun _ => False))

/-- R490 to R493, R500 to R504: every 100 µs each sensor's rate of rise is formed; a band moves by one after three readings that ask for it; a
sensor fails, and recovers, with its reading replaced and the loops above level 0 that it serves frozen. Where the spec leaves a point open, this
follows log entry 72. -/
def Obligations.SensorRatesBandsFailures : Prop :=
  (∀ s : State, ∃ t, exec .rateOfRiseUpdate s = .next t ∧
    (∀ x : Sensor, sensOf t x = { sensOf s x with rate := if sensRead s x then rateOf (sensOf s x) else none }) ∧
    (∀ x : Sensor, sensOn s x = true → t.get (sensRor x) = clampI (toStep (((sensOf t x).rate).getD 0 * 10)) (-1000) 1000) ∧
    Still s { t with blocks := s.blocks, regions := s.regions, chip := { t.chip with sens := s.chip.sens, coolAt := s.chip.coolAt } }
      (fun a => ∃ x : Sensor, a = sensRor x)) ∧
  (∀ (s : State) (x : Sensor), sensRead s x = true → 3 ≤ (sensOf s x).wantN → (sensOf s x).want ≠ 0 →
    quietFor (sensOf s x).bandAt s.uptime 10000 = true → ∃ t, exec (.bandChange x) s = .next t ∧
      sensOf t x = { sensOf s x with
        band := if 0 < (sensOf s x).want then min 4 ((sensOf s x).band + 1) else (sensOf s x).band - 1
        bandAt := some s.uptime, want := 0, wantN := 0 } ∧
      (sensOn s x = true → t.getN (sensBand x) = (sensOf t x).band) ∧ (∀ y, y ≠ x → sensOf t y = sensOf s y) ∧
      Still s { t with blocks := s.blocks, regions := s.regions, chip := { t.chip with sens := s.chip.sens } }
        (· ∈ [sensT x, sensBand x, sensStat x])) ∧
  (∀ (s : State) (x : Sensor), sensRead s x = true → (sensOf s x).failed = false → failing s x = true →
    ∃ t, exec (.sensorFail x) s = .next t ∧ (sensOf t x).failed = true ∧ (sensOf t x).use = (substitute s x).getD (sensOf s x).good ∧
      (sensOf t x).alone = ((sensOf s x).alone || (substitute s x).isNone) ∧
      (∀ k : LoopId, (loopSensors s k).contains x = true → s.getN (O.TH_LEVEL k) ≠ 0 → t.getN (O.TH_FROZEN k) = 1) ∧
      (∀ y, y ≠ x → sensOf t y = sensOf s y ∨ (sensOf s y).failed = true ∧
        sensOf t y = { sensOf s y with alone := true, use := (sensOf s y).good }) ∧
      LagOnly s t ∧ Keeps s { t with blocks := s.blocks, regions := s.regions, aml := s.aml, loops := s.loops, free := s.free
                                     chip := { t.chip with sens := s.chip.sens, coolAt := s.chip.coolAt } }
        (fun a => (∃ y, (y = x ∨ (sensOf s y).failed = true) ∧ a ∈ [sensT y, sensBand y, sensStat y, sensRor y]) ∨
          among [O.ILIM_SCALE 0, O.TH_FACTOR 0, O.TH_BUDGET 0, O.TH_FROZEN 0] a)) ∧
  (∀ (s : State) (x : Sensor) (u : Nat), (sensOf s x).okAt = some u → (sensOf s x).failed = true → u + 100000 ≤ s.uptime →
    ∃ t, exec (.sensorRecover x) s = .next t ∧ (sensOf t x).failed = false ∧ (sensOf t x).alone = false ∧
      (∀ k : LoopId, (∀ y ∈ loopSensors s k, y ≠ x → (sensOf s y).failed = false) → t.getN (O.TH_FROZEN k) = 0) ∧
      (∀ y, y ≠ x → sensOf t y = sensOf s y) ∧
      LagOnly s t ∧ Keeps s { t with blocks := s.blocks, regions := s.regions, aml := s.aml, loops := s.loops, free := s.free
                                     chip := { t.chip with sens := s.chip.sens, coolAt := s.chip.coolAt } }
        (fun a => a ∈ [sensT x, sensBand x, sensStat x] ∨ among [O.ILIM_SCALE 0, O.TH_FACTOR 0, O.TH_BUDGET 0, O.TH_FROZEN 0] a))

/-- R494 to R499, R505: every 10 µs each running loop that has its CK0 handshake is judged; hot for TH_STEP_T raises its level by one, cool for TH_REL_T lowers it. A swap decides
to take a cell of the hottest block out and to add one of the coolest, and holds the first; the hold ends after TH_REL_T of cool. -/
def Obligations.ThrottlingAndSwap : Prop :=
  (∀ s : State, ∃ t, exec .throttleEval s = .next t ∧
    (∀ k : LoopId, running s k = false ∨ cutOff s k = true → t.loops[k] = s.loops[k] ∧ t.getN (O.TH_LEVEL k) = s.getN (O.TH_LEVEL k)) ∧
    (∀ k : LoopId, running s k = true → cutOff s k = false → loopHot s k = true →
      (s.loops[k].th.tUp + 10 < s.getN (O.TH_STEP_T k) →
        t.loops[k].th.tUp = s.loops[k].th.tUp + 10 ∧ t.loops[k].th.tDn = 0 ∧ t.getN (O.TH_LEVEL k) = s.getN (O.TH_LEVEL k)) ∧
      (s.getN (O.TH_STEP_T k) ≤ s.loops[k].th.tUp + 10 →
        t.loops[k].th.tUp = 0 ∧ t.getN (O.TH_LEVEL k) = min (s.getN (O.TH_LEVEL k) + 1) (s.getN (O.TH_BUD_LVLS k) + 10))) ∧
    (∀ k : LoopId, running s k = true → cutOff s k = false → loopHot s k = false → loopCool s k = true → s.getN (O.TH_REL_T k) ≤ s.loops[k].th.tDn + 10 →
      s.isOn (O.TH_FROZEN k) = false → t.getN (O.TH_LEVEL k) = s.getN (O.TH_LEVEL k) - 1) ∧
    Keeps s { t with loops := s.loops, aml := s.aml, shape := s.shape, free := s.free }
      (among [O.GRANT 0, O.ILIM_SCALE 0, O.TH_BUDGET 0, O.TH_FACTOR 0, O.TH_LEVEL 0, O.TH_STEP_CNT 0])) ∧
  (∀ (s : State) (k : LoopId) (h c : Nat), s.getN (O.LOOP_STATE k) = 3 → cutOff s k = false → s.getN (O.TH_SHED_LVL k) ≤ s.getN (O.TH_LEVEL k) →
    quietFor s.loops[k].th.swapAt s.uptime (s.getN (O.TH_SHED_T k)) = true →
    let temp (b : Nat) := (sensOf s (.tmon (blockOf b))).use
    let blocks := (blocksOf s k).filter fun b => sensRead s (.tmon (blockOf b))
    argMax temp (blocks.filter fun b => decide (s.get (O.TH_ON_TM k) * 8 < temp b) && decide (2 ≤ (activeOf s k b).length)) = some h →
    argMax (fun b => -(temp b)) (blocks.filter fun b =>
      decide (temp b + s.get (O.TH_SHED_DT k) * 8 ≤ temp h) && !(swapCells s k b).isEmpty) = some c →
    let out := (activeOf s k h).getLastD 0
    ∃ t, exec (.thermalSwap k) s = .next t ∧ t.loops[k].th.swapAt = some s.uptime ∧
      t.loops[k].ph.changes = s.loops[k].ph.changes ++ [.swap out (some ((swapCells s k c).headD 0))] ∧
      t.getN (O.TH_SWAP_CNT k) = (s.getN (O.TH_SWAP_CNT k) + 1) % 2 ^ 32 ∧
      t.cells = s.cells.set (cellOf out) { s.cells[cellOf out] with held := true } ∧
      Keeps s { t with loops := t.loops.set k s.loops[k], cells := s.cells }
        (· = O.TH_SWAP_CNT k)) ∧
  (∀ (s : State) (b : BlockId) (k : LoopId) (u : Nat), loopOfBlock s b = some k → cutOff s k = false → s.blocks[b].coolAt = some u →
    u + s.getN (O.TH_REL_T k) ≤ s.uptime → ∃ t, exec (.thermalHoldEnd b) s = .next t ∧
      (∀ n : CellId, t.cells[n] = if n.val / 4 = b.val then { s.cells[n] with held := false } else s.cells[n]) ∧
      { t with cells := s.cells } = s)

/-! ### Burnish -/

/-- R522 to R537: during start-up a loop whose start conditions hold burnishes, or by BUR_MODE takes its stored results or none; BUR_WAIT without
them ends in NOT_POSSIBLE. The cells are measured one at a time, in order; the last one completes the burnish: BUR_STATE is DONE, BUR_VALID 1, the
result of each cell stands in BUR_RES, and a cell that passes has its trim set valid. BUR_CMD starts a burnish of a loop in OFF, or clears its
results. A burnish abandoned in start-up (BUR_STATE 6) begins again, or ends in NOT_POSSIBLE, as one that waits does. -/
def Obligations.BurnishSteps : Prop :=
  (∀ (s : State) (k : LoopId), burnishReady s k = true → s.getN O.START_STEP < 9 → isOff s k = true →
    s.getN (O.BUR_STATE k) = 0 ∨ s.getN (O.BUR_STATE k) = 1 ∨ (s.getN (O.BUR_STATE k) = 6 ∧ s.loops[k].bur.byCmd = false) →
    ∃ t, exec (.burnishStart k) s = .next t ∧
      (s.getN (O.BUR_MODE k) = 2 ∨ s.getN (O.BUR_MODE k) = 1 ∧ s.isOn (O.BUR_VALID k) = true → t.getN (O.BUR_STATE k) = 4) ∧
      (s.getN (O.BUR_MODE k) ≠ 2 → s.getN (O.BUR_MODE k) ≠ 1 ∨ s.isOn (O.BUR_VALID k) = false →
        t.getN (O.BUR_STATE k) = 2 ∧ t.loops[k].bur.cells = cellsOf s k ∧ t.loops[k].bur.slots = [] ∧ t.loops[k].bur.tb = s.uptime) ∧
      Keeps s { t with loops := t.loops.set k s.loops[k], free := s.free } (· = O.BUR_STATE k)) ∧
  (∀ (s : State) (k : LoopId), s.getN O.START_STEP < 9 → s.getN (O.START_T (3 : Nat)) ≠ 0 →
    s.getN (O.BUR_STATE k) = 1 ∨ (s.getN (O.BUR_STATE k) = 6 ∧ s.loops[k].bur.byCmd = false) →
    s.getN (O.START_T (3 : Nat)) + s.getN O.BUR_WAIT * 1000 ≤ s.uptime → ∃ t, exec (.burnishWaitTimeout k) s = .next t ∧
      t.getN (O.BUR_STATE k) = 5 ∧ Keeps s t (· = O.BUR_STATE k)) ∧
  (∀ (s : State) (n : CellId) (m : BurnishSlot) (k : LoopId) (l : List Nat), loopOfCell s n = some k → burning s k = true →
    s.loops[k].bur.cells = n.val :: l → s.loops[k].bur.tb + 60 + 20 * s.loops[k].bur.slots.length ≤ s.uptime → ∃ t, exec (.burnishCellMeasure n m) s = .next t ∧ t.loops[k].bur.cells = l ∧
      (∃ hit, t.loops[k].bur.slots = s.loops[k].bur.slots ++ [(n.val, m, hit)]) ∧
      (∀ x, l.head? = some x → s.fb.vbus ≠ 0 → t.loops[k].bur.ton = (toStep (min (s.getN (O.BUR_IPK k) : Rat) ((ocPkOf s k (cellOf x) : Rat) / 2) *
        s.getN (O.ILIM_LCELL k) / s.fb.vbus * 2)).toNat) ∧
      { t with loops := t.loops.set k s.loops[k], free := s.free } = s) ∧
  (∀ (s : State) (k : LoopId) (vb : Rat), burning s k = true → s.loops[k].bur.cells = [] →
    s.loops[k].bur.tb + 60 + 20 * s.loops[k].bur.slots.length ≤ s.uptime → ∃ t, exec (.burnishDone k vb) s = .next t ∧
    t.getN (O.BUR_STATE k) = 3 ∧ t.getN (O.BUR_VALID k) = 1 ∧ t.loops[k].bur.slots = [] ∧
    ((s.loops[k].bur.slots.map fun e => cellOf e.1).Nodup → ∀ r ∈ burnResults s k vb, t.getN (O.BUR_RES (cellOf r.cell)) = r.res ∧
      (r.res = 1 → t.getB (O.IMTRIM_VALID (cellOf r.cell)) (min 4 (s.getN (O.IMON_BAND (cellOf r.cell)))) = true)) ∧
    Keeps s { t with loops := t.loops.set k s.loops[k], free := s.free }
      (fun a => a ∈ [O.BUR_STATE k, O.BUR_VALID k] ∨ among [O.BUR_RES 0, O.BUR_L 0, O.BUR_DCR 0, O.BUR_KREL 0, O.BUR_DLY 0,
        O.IMTRIM_VALID 0] a ∨ arrays [O.IMTRIM_GAIN 0 0, O.IMTRIM_OFS 0 0, O.IMTRIM_DLY 0 0] a)) ∧
  (∀ (s : State) (q : Requester) (k : LoopId), Admitted s q O.BUR_CMD [BitVec.ofNat 8 (0x10 + k.val)] → isOff s k = true →
    onRequest s k = false → passive s = false → burnishReady s k = true → burning s k = false → ∃ t, exec (.burCmdRun q k) s = .next t ∧
      t.getN (O.BUR_STATE k) = 2 ∧ t.loops[k].bur.byCmd = true ∧ t.loops[k].bur.cells = cellsOf s k ∧
      Written s { t with loops := t.loops.set k s.loops[k], free := s.free } (· = O.BUR_STATE k)) ∧
  (∀ (s : State) (q : Requester) (k : LoopId), Admitted s q O.BUR_CMD [BitVec.ofNat 8 (0x20 + k.val)] →
    ∃ t, exec (.burCmdClear q k) s = .next t ∧ t.getN (O.BUR_VALID k) = 0 ∧ ((cellsOf t k).filter fun n => excluded t n) = [] ∧
      (∀ n ∈ cellsOf s k, t.getN (O.BUR_RES n) = 0) ∧
      Written s t (fun a => a = O.BUR_VALID k ∨ ∃ n ∈ cellsOf s k, a = O.BUR_RES n))

/-! ### Twin operation -/

/-- R515, R549 to R554, R565 to R567: step 5 of start-up claims the token where TWTOKEN has been high, else the device joins; a watchdog, a low
supply, a preference conflict release it; the STANDBY takes it over as SOLO with empty ledgers, PGOODn by its loops' states. Where the spec leaves a
point open, this follows log entries 22 and 69. -/
def Obligations.TokenAndTakeover : Prop :=
  (∀ (s : State) (high : Bool), s.chip.hkLock = true → 2 ≤ s.getN O.START_STEP → s.getN O.START_STEP < 5 →
    ∃ t, exec (.tokenClaim high) s = .next t ∧
      (twinCfg s = false → t.getN O.START_STEP = 5 ∧ Still s t (· ∈ [O.START_STEP, O.START_T (4 : Nat)])) ∧
      (s.chip.pref = 2 → s.uptime < s.getN (O.START_T (0 : Nat)) + 1200 → t = s) ∧
      (twinCfg s = true → (s.chip.pref = 2 → s.getN (O.START_T (0 : Nat)) + 1200 ≤ s.uptime) → high = true → t.getN O.START_STEP = 5 ∧ t.getN O.TW_ROLE = 0 ∧ t.twin.token = true ∧
        Keeps s { t with twin := s.twin } (· ∈ [O.TW_ROLE, O.TW_JOIN_STEP, O.START_STEP, O.START_T (4 : Nat)])) ∧
      (twinCfg s = true → (s.chip.pref = 2 → s.getN (O.START_T (0 : Nat)) + 1200 ≤ s.uptime) → high = false → t.getN O.START_STEP = 8 ∧ t.getN O.TW_ROLE = 3 ∧ t.twin.token = false ∧
        Moves s { t with fb := s.fb, twin := s.twin }
          (· ∈ [O.TW_ROLE, O.TW_JOIN_STEP, O.FB_STATE, O.START_STEP, O.START_T (4 : Nat), O.START_T (5 : Nat), O.START_T (6 : Nat),
            O.START_T (7 : Nat)]))) ∧
  (∀ s : State, role s = 1 → s.twin.sentAt + 2 ≤ s.uptime → ∃ t, exec .ownWatchdogExpire s = .next t ∧ t.getN O.TW_ROLE = 4 ∧ t.twin.token = false ∧ t.twin.wdOk = false ∧
    (∀ k : LoopId, t.getN (O.LOOP_STATE k) = 0) ∧ t.getN O.FB_STATE = 0 ∧
    Moves s { t with fb := s.fb, twin := s.twin } (· ∈ [O.TW_ROLE, O.TW_JOIN_STEP, O.FB_STATE])) ∧
  (∀ s : State, role s ≠ 1 → ∃ t, exec .ownWatchdogExpire s = .next t ∧
    t = { s with twin := { s.twin with wdOk := if role s = 2 ∧ s.twin.sentAt + 2 ≤ s.uptime then false else s.twin.wdOk } }) ∧
  (∀ s : State, ∃ t, exec .supplyLowRelease s = .next t ∧
    (twinCfg s = false → t = s) ∧
    (twinCfg s = true →
      (∀ n : CellId, t.cells[n] =
        { s.cells[n] with inPulse := false, stopped := true, waking := false, shedding := false, shedPeriods := 0 }) ∧
      (∀ f : ChannelId, t.fb.chan[f] = { s.fb.chan[f] with inPulse := false }) ∧
      { t with cells := s.cells, fb := { t.fb with chan := s.fb.chan } } =
        { s with twin := { s.twin with token := false, level := true } })) ∧
  (∀ s : State, twinCfg s = true → s.twin.linkUp = true → s.twin.heardAt + 3 ≤ s.uptime → ∃ t, exec .twinLinkLost s = .next t ∧ t.twin.linkUp = false ∧
    t.getN O.TW_ROLE = (if role s = 1 then 0 else role s) ∧ t.twin.token = s.twin.token ∧
    Keeps s { t with twin := s.twin } (· = O.TW_ROLE)) ∧
  (∀ (s : State) (gap : Nat), role s = 2 → s.twin.linkUp = false ∨ s.twin.abdSeen = true → s.chip.therm = false →
    ∃ t, exec (.takeover gap) s = .next t ∧ t.getN O.TW_ROLE = 0 ∧ t.twin.token = true ∧
      t.getN O.TKO_CNT = (s.getN O.TKO_CNT + 1) % 2 ^ 32 ∧ t.getN O.TKO_GAP_LAST = gap % 2 ^ 32 ∧
      (∀ n : CellId, t.get (O.LEDGER n) = 0) ∧ (∀ k : LoopId, t.getN (O.PG_STAT k) = b2n (s.getN (O.LOOP_STATE k) == 3)) ∧
      Keeps s { t with aml := s.aml, cells := s.cells, fb := s.fb, loops := s.loops, twin := s.twin }
        (fun a => a ∈ [O.TW_ROLE, O.TKO_CNT, O.TKO_GAP_LAST] ∨
          among [O.LEDGER 0, O.PG_STAT 0, O.LINK_STATE 0, O.RATE_NOW 0, O.CYCLE_CNT 0, O.TRAIN_CNT 0, O.SRC_STAT 0] a)) ∧
  (∀ s : State, role s = 2 → s.twin.linkUp = false → s.twin.lostAt + 10 ≤ s.uptime → ∃ t, exec .takeoverTimeout s = .next t ∧ t.getN O.TW_ROLE = 4 ∧
    Moves s { t with fb := s.fb, twin := s.twin } (· ∈ [O.TW_ROLE, O.TW_JOIN_STEP, O.FB_STATE]))

/-- R551, R555 to R559, R563, R564: a heartbeat carries the present role and token; a received one with a bad CRC only counts, a good one tells of
the peer, moves the roles, and takes its shadow along. Digests are compared by a shadow only; an alignment record is sent by a holder, and applied
by a shadow as sent. Where the spec leaves a point open, this follows log entries 41 and 70. -/
def Obligations.TwinLinkFrames : Prop :=
  (∀ s : State, twinCfg s = true → ∃ t, exec .heartbeatTx s = .next t ∧ { t with twin := s.twin } = s ∧
    t.twin.seq = (s.twin.seq + 1) % 256 ∧ t.twin.wdOk = true ∧ t.twin.sentAt = s.uptime ∧
    ∃ h, t.twin.sent = some h ∧ h.seq.val = s.twin.seq % 256 ∧ h.hold = s.twin.token ∧ h.role.val = role s % 8) ∧
  (∀ (s : State) (h : Heartbeat) (d : Digest) (r : AlignRecord) (e : JournalEntry) (c : Instr), twinCfg s = true →
    c ∈ [.heartbeatRx false h, .dutyDigestRx false d, .alignmentRecordRx false r, .journalEntryApply false e] →
    ∃ t, exec c s = .next t ∧ t.getN O.TW_CRC_ERR = (s.getN O.TW_CRC_ERR + 1) % 2 ^ 32 ∧ Still s t (· = O.TW_CRC_ERR)) ∧
  (∀ (s : State) (h : Heartbeat), twinCfg s = true → ∃ t, exec (.heartbeatRx true h) s = .next t ∧
    t.twin.peer = some h ∧ t.twin.linkUp = true ∧ t.twin.heardAt = s.uptime ∧
    (h.hold = true → s.twin.token = true → s.chip.pref = 2 → t.getN O.TW_ROLE = 4 ∧ t.twin.token = false) ∧
    (h.hold = false ∨ s.twin.token = false ∨ s.chip.pref ≠ 2 → t.twin.token = s.twin.token ∧ (role s ≤ 1 → t.getN O.TW_ROLE = if h.role.val = 2 then 1 else 0) ∧
      (role s = 2 → h.role.val = 0 → t.getN O.TW_ROLE = 4)) ∧
    Moves s { t with fb := s.fb, twin := s.twin }
      (fun a => a ∈ [O.TW_ROLE, O.TW_JOIN_STEP, O.FB_STATE] ∨ (∃ f : ChannelId, a = O.FCH_TRIM f) ∨
        among [O.SP_NOW 0, O.SP_TARGET 0, O.SRC_STAT 0] a)) ∧
  (∀ (s : State) (d : Digest), twinCfg s = true → ∃ t, exec (.dutyDigestRx true d) s = .next t ∧ (standby s = false → t = s) ∧
    (standby s = true → 0 < s.twin.skip[unitIdx d.unit] → t.twin.skip[unitIdx d.unit] = s.twin.skip[unitIdx d.unit] - 1 ∧
      t.twin.div = s.twin.div) ∧
    Keeps s { t with twin := s.twin } (· = O.DIV_CNT)) ∧
  (∀ (s : State) (u : LoopOrFb), twinCfg s = true → role s ≤ 1 → s.twin.linkUp = true → (∀ k, u = .loop k → isOff s k = false) →
    ∃ t, exec (.alignmentRecordTx u) s = .next t ∧
      t = { s with twin := { s.twin with
        sentRec := some (match u with | .loop k => .loop (loopRecord s k) | .fb => .fb (fbRecord s)) } }) ∧
  (∀ (s : State) (r : AlignRecord), twinCfg s = true → standby s = true → ∃ t, exec (.alignmentRecordRx true r) s = .next t ∧
    (∀ x, r = .loop x → t.get (O.SP_NOW x.loop) = toStep (x.setPoint * 4000) ∧ t.getN (O.RETRY_LEFT x.loop) = x.retryLeft ∧
      (bankState s x.loop x.bankActive = 2 → t.getN (O.BANK_ACTIVE x.loop) = x.bankActive) ∧ t.loops[x.loop].sp.now = x.setPoint ∧
      t.twin.recAt[unitIdx (.loop x.loop)] = some s.uptime) ∧
    (∀ x, r = .fb x → t.fb.vcmd = x.vCmd ∧ t.fb.integ = x.integ ∧ t.twin.recAt[unitIdx .fb] = some s.uptime) ∧
    Moves s { t with fb := s.fb, twin := s.twin }
      (fun a => a = O.FB_STATE ∨ (∃ f : ChannelId, a = O.FCH_TRIM f) ∨ among [O.SP_NOW 0, O.SP_TARGET 0, O.SRC_STAT 0] a)) ∧
  (∀ (s : State) (e : JournalEntry), twinCfg s = true → s.twin.journal.length < 512 →
    (role s = 3 ∧ s.getN O.TW_JOIN_STEP = 1) ∨ (standby s = true ∧ s.chip.freeze = true) →
    ∃ t, exec (.journalEntryApply true e) s = .next t ∧
      t = { s with twin := { s.twin with journal := s.twin.journal ++ [e] } }) ∧
  (∀ (s : State) (e : JournalEntry), twinCfg s = true → standby s = true → s.chip.freeze = false → s.twin.journal = [] →
    ∃ t, exec (.journalEntryApply true e) s = .next t ∧ t = applyEntry s e)

/-- R566, R569 to R571: TW_CMD abdicates, detaches or joins, by the role; the steps of a join complete in order, to role STANDBY; a failed step
counts and waits, a third one detaches; the wait over, the join begins again. The twin's role is read over the two-wire bus while the link is lost.
Where the spec leaves a point open, this follows log entries 41 and 70. -/
def Obligations.TwinCommandsAndJoin : Prop :=
  (∀ (s : State) (q : Requester), Admitted s q O.TW_CMD [3] → role s = 1 → peerReady s = true → ∃ t, exec (.twCmdAbdicate q) s = .next t ∧
    t.getN O.TW_ROLE = 4 ∧ t.twin.token = false ∧ t.getN O.ABD_CNT = (s.getN O.ABD_CNT + 1) % 2 ^ 32 ∧
    Written s { t with loops := s.loops, cells := s.cells, aml := s.aml, tree := s.tree, seen := s.seen, fb := s.fb, twin := s.twin }
      (fun a => a ∈ [O.ABD_CNT, O.FB_STATE, O.TW_JOIN_STEP] ∨ among loopTemplates a)) ∧
  (∀ (s : State) (q : Requester) (rel : Bool), Admitted s q O.TW_CMD [if rel then 0x82 else 2] → 1 ≤ role s → role s ≤ 3 →
    (role s = 1 → rel = true → peerReady s = true) → ∃ t, exec (.twCmdDetach q rel) s = .next t ∧
      t.getN O.TW_ROLE = (if role s = 1 ∧ rel = false then 0 else 4) ∧ (role s = 1 → t.twin.token = if rel then false else s.twin.token) ∧
      Written s { t with loops := s.loops, cells := s.cells, aml := s.aml, tree := s.tree, seen := s.seen, fb := s.fb, twin := s.twin }
        (fun a => a ∈ [O.FB_STATE, O.TW_JOIN_STEP] ∨ among loopTemplates a)) ∧
  (∀ (s : State) (q : Requester), Admitted s q O.TW_CMD [1] → role s = 4 → twinCfg s = true → ∃ t, exec (.twCmdJoin q) s = .next t ∧
    t.getN O.TW_ROLE = 3 ∧ t.getN O.TW_JOIN_STEP = 0 ∧ t.twin.waitAt = none ∧ t.twin.fails = 0 ∧
    Written s { t with loops := s.loops, cells := s.cells, aml := s.aml, tree := s.tree, seen := s.seen, fb := s.fb, twin := s.twin }
      (fun a => a ∈ [O.FB_STATE, O.TW_JOIN_STEP] ∨ among loopTemplates a)) ∧
  (∀ (s : State) (pref : Nat), joining s = true → s.getN O.TW_JOIN_STEP = 0 → pref ≠ s.chip.pref → s.uptime ≤ s.twin.due →
    ∃ t, exec (.joinStepComplete (.trained pref)) s = .next t ∧ t.getN O.TW_JOIN_STEP = 1 ∧
      t.twin = { s.twin with linkUp := true, due := s.uptime + 2000 } ∧
      Still s { t with twin := s.twin } (· = O.TW_JOIN_STEP)) ∧
  (∀ (s : State) (i : JoinImage) (h : Heartbeat), joining s = true → s.getN O.TW_JOIN_STEP = 1 → s.uptime ≤ s.twin.due → s.twin.journal = [] →
    s.twin.peer = some h → h.startStep.val = 9 → i.etchedEqual = true → i.crcOk = true →
    ∃ t, exec (.joinStepComplete (.image i)) s = .next t ∧ t.getN O.TW_JOIN_STEP = 2 ∧ t.getN O.TOPO_STATUS = 1 ∧
      t.twin.applied = h.jseq.val ∧ t.plate.bank = s.plate.bank ∧ t.plate.scratch = s.plate.scratch) ∧
  (∀ s : State, joining s = true → s.getN O.TW_JOIN_STEP = 3 → s.twin.linkUp = true →
    s.twin.due ≤ s.uptime → (∀ u, s.twin.countAt = some u → u + 10000 < s.twin.due) →
    (∀ h, s.twin.peer = some h → s.twin.applied % 65536 = h.jseq.val) → s.twin.peer ≠ none → s.twin.journal = [] →
    ∃ t, exec (.joinStepComplete .shadowRun) s = .next t ∧ t.getN O.TW_JOIN_STEP = 4 ∧ t.twin = { s.twin with due := s.uptime + 1 } ∧
      Still s { t with twin := s.twin } (· = O.TW_JOIN_STEP)) ∧
  (∀ s : State, joining s = true → s.getN O.TW_JOIN_STEP = 4 → s.uptime ≤ s.twin.due → s.twin.journal = [] →
    ∃ t, exec (.joinStepComplete .declare) s = .next t ∧ t.getN O.TW_ROLE = 2 ∧ t.getN O.JOIN_CNT = (s.getN O.JOIN_CNT + 1) % 2 ^ 32 ∧
      Keeps s { t with twin := s.twin } (· ∈ [O.TW_ROLE, O.TW_JOIN_STEP, O.JOIN_CNT])) ∧
  (∀ (s : State) (cause : Nat), joining s = true → cause ≠ 0 ∨ joinLate s = true → ∃ t, exec (.joinStepFail cause) s = .next t ∧
    t.getN O.JOIN_FAIL_CNT = (s.getN O.JOIN_FAIL_CNT + 1) % 2 ^ 32 ∧ t.getN O.TW_ROLE = (if 2 ≤ s.twin.fails then 4 else 3) ∧
    t.twin.waitAt = some s.uptime ∧
    Moves s { t with fb := s.fb, twin := s.twin } (· ∈ [O.JOIN_FAIL_CNT, O.TW_ROLE, O.TW_JOIN_STEP, O.FB_STATE])) ∧
  (∀ (s : State) (u : Nat), s.twin.waitAt = some u → u + s.getN O.TW_REJOIN_T * 1000 ≤ s.uptime →
    role s = 3 ∨ (role s = 4 ∧ s.isOn O.TW_AUTOJOIN = true ∧ s.twin.linkUp = true) → ∃ t, exec .joinRetry s = .next t ∧
      t.getN O.TW_ROLE = 3 ∧ t.getN O.TW_JOIN_STEP = 0 ∧ t.twin.waitAt = none ∧
      Moves s { t with fb := s.fb, twin := s.twin } (· ∈ [O.TW_ROLE, O.TW_JOIN_STEP, O.FB_STATE])) ∧
  (∀ (s : State) (x : Option (Fin 5)), twinCfg s = true → s.twin.linkUp = false → s.getN O.TW_PEER_ADDR ≠ 0 → (busFree s).isSome = true →
    (∀ u, s.twin.polledAt = some u → u + 10000 ≤ s.uptime) → ∃ t, exec (.peerRolePoll x) s = .next t ∧ t.getN O.TW_PEER_ROLE = (match x with | some r => r.val | none => 0xFF) ∧
      t.tw = { s.tw with busAt := s.uptime, stopAt := some s.uptime } ∧ t.twin = { s.twin with polledAt := some s.uptime } ∧
      Still s { t with tw := s.tw, twin := s.twin } (· = O.TW_PEER_ROLE))

/-! ### The dictionary: levels, locks, etched objects, plain writes -/

/-- R311, R580, R601, R609, R610: an admitted write of a setting gives it the value that was sent; nothing else changes but what follows from the setting
itself. A write that a check refuses changes nothing but the requester's abort record. R311: an accepted write to a
region without CK0 handshake waits in that region.
Where the spec leaves a point open, this follows log entries 27, 30, 32 and 76. -/
def Obligations.PlainWrites : Prop :=
  (∀ (s : State) (q : Requester) (index sub : Nat) (data : List Byte) (r : Row), Admitted s q (addrOf index sub) data →
    resolve (addrOf index sub) = .obj (addrOf index sub) r →
    ownChip s q (addrOf index sub) (ofBytes r.ty data).toNat {} = none → ownUnit s q (addrOf index sub) (ofBytes r.ty data).toNat = none →
    ∃ t, exec (.dictWrite q index sub data) s = .next t ∧ t.get (addrOf index sub) = ofBytes r.ty data ∧
      Written s { t with loops := s.loops, cells := s.cells, aml := s.aml, tree := s.tree, seen := s.seen,
                         tw := { t.tw with clash := s.tw.clash }, twin := { t.twin with abdDue := s.twin.abdDue } }
        (fun a => a = addrOf index sub ∨ a = O.FB_PERIOD_CNT ∨ among [O.PERIOD_CNT 0, O.BUR_VALID 0] a ∨ among loopTemplates a)) ∧
  (∀ (s : State) (q : Requester) (index sub : Nat) (data : List Byte) (r : Row), serves s = true →
    resolve (addrOf index sub) = .obj (addrOf index sub) r →
    writeCheck s q (addrOf index sub) r data ≠ 0 → writeCheck s q (addrOf index sub) r data ≠ 0xA013 →
    ∃ t, exec (.dictWrite q index sub data) s = .next t ∧
      t = s.modReq q fun x => { x with served := s.uptime, lastAbort := writeCheck s q (addrOf index sub) r data,
                                       lastAbortObj := addrOf index sub % 2 ^ 24 }) ∧
  (∀ (s : State) (q : Requester) (index sub : Nat) (data : List Byte) (r : Row) (g : RegionId), serves s = true →
    cutRegion s (addrOf index sub) = some g → resolve (addrOf index sub) = .obj (addrOf index sub) r → r.acc ≠ .rwe →
    writeCheck s q (addrOf index sub) r data = 0 → shadowed s q (addrOf index sub) r (ofBytes r.ty data) = false →
    stateRule s (addrOf index sub) (ofBytes r.ty data) = false → conflictRule s (addrOf index sub) (ofBytes r.ty data) = false →
    plateFaulted s r = false → ownChip s q (addrOf index sub) (ofBytes r.ty data).toNat {} = none →
    ownUnit s q (addrOf index sub) (ofBytes r.ty data).toNat = none → ∃ t, exec (.dictWrite q index sub data) s = .next t ∧
      t.regions = s.regions.set g { s.regions[g] with writes := s.regions[g].writes ++ [(q, addrOf index sub, ofBytes r.ty data)] } ∧
      Written s { t with regions := s.regions } (fun _ => False)) ∧
  (∀ (s : State) (q : Requester) (index sub : Nat) (data : List Byte) (r : Row), serves s = true →
    resolve (addrOf index sub) = .obj (addrOf index sub) r → writeCheck s q (addrOf index sub) r data = 0xA013 →
    ∃ t, exec (.dictWrite q index sub data) s = .next t ∧ (t.rqOf q).lastAbort = 0xA013 ∧ Keeps s { t with req := s.req } (fun _ => False)) ∧
  (∀ s : State, serves s = false → ∀ (q : Requester) (index sub : Nat) (data : List Byte), exec (.dictWrite q index sub data) s = .next s)

/-- R585 to R591, R593, R612: the key raises the requester's level, any other value counts and is refused; LEVEL_DROP and LEVEL_IDLE_T without a
transaction return it to OPEN; LOCK_SET only adds bits to LOCK_STAT; DESC_SEL is the requester's own. R594 to R597, R600: a write of a new value to
an etched object takes force at once and starts its burn, where a slot is left and no burn runs; with no slot left it is refused. The burn's end
changes nothing else. Where the spec leaves a point open, this follows log entries 38 to 40. -/
def Obligations.LevelsLocksEtched : Prop :=
  (∀ (s : State) (q : Requester) (v : BitVec 32), Admitted s q O.KEY (leBytes 4 v.toNat) → q ≠ .twin → (s.rqOf q).keyHold ≤ s.uptime →
    ∃ t, exec (.keyWrite q v) s = .next t ∧
      (v.toNat = s.getN O.INT_KEY → (t.rqOf q).level = 1 ∧ (t.rqOf q).keyFails = 0 ∧ Written s t (fun _ => False)) ∧
      (v.toNat ≠ s.getN O.INT_KEY → (t.rqOf q).level = (s.rqOf q).level ∧ (t.rqOf q).lastAbort = 0xA012 ∧
        t.getN O.KEY_FAIL_CNT = (s.getN O.KEY_FAIL_CNT + 1) % 2 ^ 32 ∧ Keeps s { t with req := s.req } (· = O.KEY_FAIL_CNT))) ∧
  (∀ (s : State) (q : Requester) (v : Byte), Admitted s q O.LEVEL_DROP [v] → q ≠ .twin → ∃ t, exec (.levelDropWrite q v.toNat) s = .next t ∧
    (t.rqOf q).level = 0 ∧ Written s t (fun _ => False)) ∧
  (∀ (s : State) (q : Requester), q ≠ .twin → s.getN O.LEVEL_IDLE_T ≠ 0 →
    (s.rqOf q).served + s.getN O.LEVEL_IDLE_T * 1000000 ≤ s.uptime → ∃ t, exec (.levelIdleTimeout q) s = .next t ∧
      t = s.modReq q fun r => { r with level := 0 }) ∧
  (∀ (s : State) (q : Requester) (v : BitVec 16), Admitted s q O.LOCK_SET (leBytes 2 v.toNat) →
    ∃ t, exec (.lockSetWrite q v.toNat) s = .next t ∧ t.getN O.LOCK_STAT = Nat.lor (s.getN O.LOCK_STAT) v.toNat ∧
      Written s t (· = O.LOCK_STAT)) ∧
  (∀ (s : State) (q : Requester) (v : BitVec 32), Admitted s q O.DESC_SEL (leBytes 4 v.toNat) →
    ∃ t, exec (.descSelWrite q v) s = .next t ∧ (t.rqOf q).descSel = v.toNat ∧ Written s t (fun _ => False)) ∧
  (∀ (s : State) (q : Requester) (index sub : Nat) (data : List Byte) (r : Row), serves s = true →
    resolve (addrOf index sub) = .obj (addrOf index sub) r → r.acc = .rwe → writeCheck s q (addrOf index sub) r data = 0 →
    shadowed s q (addrOf index sub) r (ofBytes r.ty data) = false → stateRule s (addrOf index sub) (ofBytes r.ty data) = false →
    conflictRule s (addrOf index sub) (ofBytes r.ty data) = false → plateFaulted s r = false →
    etchedRule s (addrOf index sub) (ofBytes r.ty data).toNat = 0 → s.get (addrOf index sub) ≠ ofBytes r.ty data → s.chip.etchAt = none →
    ∃ t, exec (.etchedWrite q index sub data) s = .next t ∧
      (slotsLeft s (addrOf index sub) ≠ 0 → t.get (addrOf index sub) = ofBytes r.ty data ∧ t.chip.etchAt = some s.uptime ∧
        lookupAt t.chip.slots (addrOf index sub) =
          some (some (ofBytes r.ty data) :: (lookupAt s.chip.slots (addrOf index sub)).getD []) ∧
        Written s { t with chip := { t.chip with slots := s.chip.slots, etchAt := s.chip.etchAt } } (· = addrOf index sub)) ∧
      (slotsLeft s (addrOf index sub) = 0 → (t.rqOf q).lastAbort = 0xA014 ∧ Keeps s { t with req := s.req } (fun _ => False))) ∧
  (∀ s : State, ∃ t, exec .etchBurnDone s = .next t ∧ t = { s with chip := { s.chip with etchAt := none } })

/-! ### The two-wire port -/

/-- R617 to R621, R625: a write transaction is complete with its data and their PEC, or, where TW_PEC_REQ is 0, with its data alone. It acts as the dictionary's write by the two-wire requester, and its result waits for STATUS; a
segment extends the staging copy; a length, PEC or byte that is refused, and a transaction that is cut, leave the dictionary alone. SCRATCH_WR
stores its bytes in the scratch area. Where the spec leaves a point open, this follows log entry 43. -/
def Obligations.TwoWireWrites : Prop :=
  (∀ (s : State) (index sub len : Nat) (data bytes : List Byte), twUp s = true → lenOk len = true → data.length = len →
    bytes = data ++ [pec (twHead s 0x10 (leBytes 2 index ++ leBytes 1 sub) len ++ data)] ∨ (bytes = data ∧ s.isOn O.TW_PEC_REQ = false) →
    ∃ t u, exec (.twWrite index sub len bytes .stop) s = .next t ∧
      exec (.dictWrite .twoWire index sub data)
        { s with tw := { s.tw with deaf := false, busAt := s.uptime, stopAt := none } } = .next u ∧
      t = { u with tw := { u.tw with result := t.tw.result, code := t.tw.code, idx := index % 65536, sub := sub % 256,
                                     tag := (u.tw.tag + 1) % 256 } } ∧
      (∀ r, Admitted s .twoWire (addrOf index sub) data → resolve (addrOf index sub) = .obj (addrOf index sub) r →
        ownChip s .twoWire (addrOf index sub) (ofBytes r.ty data).toNat {} = none →
        ownUnit s .twoWire (addrOf index sub) (ofBytes r.ty data).toNat = none → t.tw.result = 0 ∧ t.tw.code = 0 ∧
          t.get (addrOf index sub) = ofBytes r.ty data)) ∧
  (∀ (s : State) (index sub ofs len : Nat) (data bytes : List Byte), twUp s = true → lenOk len = true → data.length = len → ofs < 65536 →
    bytes = data ++ [pec (twHead s 0x11 (leBytes 2 index ++ leBytes 1 sub ++ leBytes 2 ofs) len ++ data)] ∨
      (bytes = data ∧ s.isOn O.TW_PEC_REQ = false) →
    SegAdmitted s .twoWire (addrOf index sub) ofs data → ∃ t, exec (.twWriteSeg index sub ofs len bytes .stop) s = .next t ∧
      t.tw.result = 0 ∧ (t.rqOf .twoWire).staging =
        insertAt (s.rqOf .twoWire).staging (addrOf index sub) (stagedAt s .twoWire (addrOf index sub) ofs ++ data) ∧
      Written s { t with tw := s.tw } (fun _ => False)) ∧
  (∀ (s : State) (index sub ofs len : Nat) (bytes head : List Byte) (how : WriteEnd) (c : Instr), twUp s = true →
    (c = .twWrite index sub len bytes how ∧ head = twHead s 0x10 (leBytes 2 index ++ leBytes 1 sub) len) ∨
      (c = .twWriteSeg index sub ofs len bytes how ∧ head = twHead s 0x11 (leBytes 2 index ++ leBytes 1 sub ++ leBytes 2 ofs) len) →
    let cut := how = .early ∨ (lenOk len = true ∧ (bytes.length < len ∨ (bytes.length = len ∧ s.isOn O.TW_PEC_REQ = true)))
    let wrong := how = .stop ∧ lenOk len = true ∧ len < bytes.length ∧ bytes[len]? ≠ some (pec (head ++ bytes.take len))
    let extra := how = .stop ∧ (lenOk len = false ∨ (len + 1 < bytes.length ∧ bytes[len]? = some (pec (head ++ bytes.take len))))
    cut ∨ wrong ∨ extra → ∃ t, exec c s = .next t ∧ t.tw.tag = (s.tw.tag + 1) % 256 ∧
      (cut → t.tw.result = 3 ∧ t.tw.deaf = false ∧ t.getN O.NACK_CNT = s.getN O.NACK_CNT) ∧
      (wrong ∨ extra → t.tw.result = 2 ∧ t.tw.deaf = true ∧ t.getN O.NACK_CNT = (s.getN O.NACK_CNT + 1) % 2 ^ 32) ∧
      (wrong → t.getN O.PEC_ERR_CNT = (s.getN O.PEC_ERR_CNT + 1) % 2 ^ 32) ∧ (¬wrong → t.getN O.PEC_ERR_CNT = s.getN O.PEC_ERR_CNT) ∧
      Keeps s { t with tw := s.tw } (· ∈ [O.NACK_CNT, O.PEC_ERR_CNT])) ∧
  (∀ (s : State) (ofs len : Nat) (data bytes : List Byte), twUp s = true → lenOk len = true → data.length = len → ofs + len ≤ 57344 →
    bytes = data ++ [pec (twHead s 0x16 (leBytes 2 ofs) len ++ data)] ∨ (bytes = data ∧ s.isOn O.TW_PEC_REQ = false) →
    s.chip.freeze = false → ∃ t, exec (.twScratchWr ofs len bytes .stop) s = .next t ∧ t.tw.result = 0 ∧
      (∀ i (h : i < data.length), byteAt t.plate.scratch (ofs + i) = data[i]) ∧
      (∀ a, a < ofs ∨ ofs + len ≤ a → byteAt t.plate.scratch a = byteAt s.plate.scratch a) ∧
      Still s { t with plate := { t.plate with scratch := s.plate.scratch }, req := s.req, tw := s.tw } (fun _ => False))

/-- R617, R622 to R626, R629: READ and READ_SEG answer the object's bytes with their PEC, STATUS the result of the last write, none of them with
another effect; a time-out counts and leaves the port deaf until the next START or STOP, as an unlisted command byte does; a stretch limit is
answered BUSY. Where the spec leaves a point open, this follows log entries 5 and 43. -/
def Obligations.TwoWireReadsAndErrors : Prop :=
  (∀ (s : State) (index sub len : Nat), twUp s = true → lenOk len = true → ∃ t, exec (.twRead index sub len) s = .next t ∧
    (∃ stat data, t.tw.response.take (2 + data.length) = stat :: BitVec.ofNat 8 data.length :: data ∧
      t.tw.response.length = 3 + data.length ∧ (∀ i, 3 + data.length ≤ i → twOut t i = 0xFF) ∧
      ((readLimited s .twoWire (addrOf index sub) len).2.abort = 0 → stat = 0 ∧
        data = (readLimited s .twoWire (addrOf index sub) len).2.data) ∧
      ((readLimited s .twoWire (addrOf index sub) len).2.abort ≠ 0 → stat = 1 ∧
        data = leBytes 2 (readLimited s .twoWire (addrOf index sub) len).2.abort)) ∧
    { t with req := s.req, sp := { t.sp with pwerr := s.sp.pwerr }, tw := s.tw } = s) ∧
  (∀ (s : State) (index sub ofs len : Nat), twUp s = true → lenOk len = true → ofs < 65536 →
    ∃ t, exec (.twReadSeg index sub ofs len) s = .next t ∧
      ((readSegment s .twoWire (addrOf index sub) ofs len).2.abort = 0 →
        t.tw.response.head? = some 0 ∧ (t.tw.response.drop 2).dropLast = (readSegment s .twoWire (addrOf index sub) ofs len).2.data) ∧
      { t with req := s.req, sp := { t.sp with pwerr := s.sp.pwerr }, tw := s.tw } = s) ∧
  (∀ s : State, twUp s = true → ∃ t, exec .twStatus s = .next t ∧ { t with tw := s.tw } = s ∧
    t.tw.response.take 9 = [0, 7] ++ leBytes 1 s.tw.result ++ leBytes 2 s.tw.code ++ leBytes 2 s.tw.idx ++ leBytes 1 s.tw.sub ++
      leBytes 1 s.tw.tag) ∧
  (∀ (s : State) (stop : Bool), ∃ t, exec (.twStartStop stop) s = .next t ∧
    t = { s with tw := { s.tw with deaf := false, busAt := s.uptime, stopAt := if stop then some s.uptime else none } } ∧
    (stop = true → busFree t = some s.uptime) ∧ (stop = false → busFree t = none)) ∧
  (∀ s : State, twUp s = true → ∃ t, exec .twSclTimeout s = .next t ∧ t.getN O.TMO_CNT = (s.getN O.TMO_CNT + 1) % 2 ^ 32 ∧
    t.tw.deaf = true ∧ t.tw.response = [] ∧ Keeps s { t with tw := s.tw } (· = O.TMO_CNT)) ∧
  (∀ s : State, ∃ t, exec (.twStretchTimeout true) s = .next t ∧ t.tw.response.take 2 = [2, 0] ∧ { t with tw := s.tw, free := s.free } = s) ∧
  (∀ s : State, ∃ t, exec (.twStretchTimeout false) s = .next t ∧
    t = { s with tw := { s.tw with deaf := true, busAt := s.uptime, stopAt := none } }) ∧
  (∀ (s : State) (code : Byte), twUp s = true → code ∉ ([0x10, 0x11, 0x16, 0x20, 0x21, 0x30] : List Byte) →
    ∃ t, exec (.twCommandRefused code) s = .next t ∧ t.tw.deaf = true ∧ t.getN O.NACK_CNT = (s.getN O.NACK_CNT + 1) % 2 ^ 32 ∧
      Still s { t with tw := s.tw } (· = O.NACK_CNT))

/-- R628, R630 to R635: the controller starts only on a free bus, a retry only once its drawn delay has passed since. An alert message leaves the
queue and counts; a lost arbitration leaves it waiting, with a new delay; the eighth retry without success drops it; bus recovery clears or sets
bit 0 of TW_PORT_STAT. Where the spec leaves a point open, this follows log entries 5, 43 and 100. -/
def Obligations.TwoWireController : Prop :=
  (∀ (s : State) (c : Instr) (m : Nat × Nat × Nat) (l : List (Nat × Nat × Nat)), ctrlReady s = true → s.tw.alerts = m :: l →
    (c = .twAlertSend ∧ s.tw.failed = false) ∨ c = .twCtrlRetry .done → ∃ t, exec c s = .next t ∧ t.tw.alerts = l ∧
      t.tw.sent = s.tw.sent ++ [alertBytes s m] ∧ t.tw.failed = false ∧
      t.getN O.ALERT_SENT_CNT = (s.getN O.ALERT_SENT_CNT + 1) % 2 ^ 32 ∧ Still s { t with tw := s.tw } (· = O.ALERT_SENT_CNT)) ∧
  (∀ (s : State) (c : Instr) (r : BusAttempt) (own : Bool), ctrlReady s = false →
    c ∈ [.twAlertSend, .twArbLost own, Instr.twCtrlRetry r] → exec c s = .next s) ∧
  (∀ (s : State) (own : Bool), ctrlReady s = true → ∃ t, exec (.twArbLost own) s = .next t ∧ t.tw.delay < 256 ∧ ctrlReady t = false ∧
    { t with free := s.free } = { s with tw := { s.tw with failed := true, delay := t.tw.delay, busAt := s.uptime, stopAt := none } }) ∧
  (∀ (s : State) (r : BusAttempt), ctrlReady s = true → r ≠ .done → ∃ t, exec (.twCtrlRetry r) s = .next t ∧ ctrlReady t = false ∧
    (s.tw.failed = false ∨ s.tw.tries < 7 → t.tw.delay < 256 ∧ { t with free := s.free } = { s with tw := { s.tw with
      failed := true, tries := if s.tw.failed then s.tw.tries + 1 else 0, delay := t.tw.delay, busAt := s.uptime, stopAt := none } }) ∧
    (s.tw.failed = true → 7 ≤ s.tw.tries → t.tw.failed = false ∧ t.tw.tries = 0 ∧ (∃ l, t.tw.alerts = s.tw.alerts.drop 1 ++ l) ∧
      t.getN O.ARB_LOST_CNT = if r = .arbitrationLost then (s.getN O.ARB_LOST_CNT + 1) % 2 ^ 32 else s.getN O.ARB_LOST_CNT) ∧
    Keeps s { t with free := s.free, tw := s.tw } (· ∈ [O.ARB_LOST_CNT, O.ALERT_DROP_CNT])) ∧
  (∀ (s : State) (r : BusRecovery), ctrlWaits s = true ∨ (twUp s = true ∧ twinCfg s = true ∧ s.twin.linkUp = false) →
    ∃ t, exec (.twBusRecovery r) s = .next t ∧ t.getB O.TW_PORT_STAT 0 = decide (r = .stuck) ∧
      t.getN O.STUCK_CNT = (if r = .stuck then (s.getN O.STUCK_CNT + 1) % 2 ^ 32 else s.getN O.STUCK_CNT) ∧
      busFree t = (if r = .stuck then none else some s.uptime) ∧
      Keeps s { t with tw := s.tw } (· ∈ [O.TW_PORT_STAT, O.STUCK_CNT]))

/-! ### The CAN FD port -/

/-- R647 to R651: a request acts as the dictionary's transaction by the CAN requester, and its response goes to the bus; a read, compact or not, has
no other effect on the device. Where the spec leaves a point open, this follows log entry 13. -/
def Obligations.CanTransactions : Prop :=
  (∀ (s : State) (tid : Byte) (index sub : Nat) (data : List Byte) (c : Instr) (w : Nat),
    (c = .canWrite tid index sub data ∧ 1 ≤ data.length ∧ w = 56) ∨ (c = .canCompactWrite index sub data ∧ w = 4) →
    canTakes s = true → data.length ≤ w → ∃ t u, exec c s = .next t ∧ exec (.dictWrite .can index sub data) s = .next u ∧
      { t with can := u.can } = u ∧ t.can.push = u.can.push ∧
      (∀ r, Admitted s .can (addrOf index sub) data → resolve (addrOf index sub) = .obj (addrOf index sub) r →
        ownChip s .can (addrOf index sub) (ofBytes r.ty data).toNat {} = none →
        ownUnit s .can (addrOf index sub) (ofBytes r.ty data).toNat = none →
        t.get (addrOf index sub) = ofBytes r.ty data ∧ t.can.tx = u.can.tx ++ [(5, if w = 4 then [0] ++ leBytes 2 index ++ leBytes 1 sub
          else padFd ([0x10, tid] ++ leBytes 2 index ++ leBytes 1 sub ++ [0, 0, 0]))])) ∧
  (∀ (s : State) (tid : Byte) (index sub ofs : Nat) (data : List Byte), canTakes s = true → 1 ≤ data.length → data.length ≤ 56 →
    ofs < 65536 → SegAdmitted s .can (addrOf index sub) ofs data → ∃ t, exec (.canWriteSeg tid index sub ofs data) s = .next t ∧
      (t.rqOf .can).staging = insertAt (s.rqOf .can).staging (addrOf index sub) (stagedAt s .can (addrOf index sub) ofs ++ data) ∧
      Written s t (fun _ => False)) ∧
  (∀ (s : State) (tid : Byte) (index sub ofs len : Nat) (c : Instr) (x : State × Ans), canTakes s = true →
    (c = .canRead tid index sub len ∧ 1 ≤ len ∧ len ≤ 56 ∧ x = readLimited s .can (addrOf index sub) len) ∨
      (c = .canReadSeg tid index sub ofs len ∧ 1 ≤ len ∧ len ≤ 56 ∧ x = readSegment s .can (addrOf index sub) (ofs % 65536) len) →
    ∃ t, exec c s = .next t ∧
      (x.2.abort = 0 → ∃ cmd : Byte, t.can.tx = s.can.tx ++ [(5, padFd ([cmd, tid] ++ leBytes 2 index ++ leBytes 1 sub ++ [0] ++
        leBytes 1 x.2.data.length ++ [0] ++ x.2.data))]) ∧
      { t with req := s.req, sp := { t.sp with pwerr := s.sp.pwerr }, can := { t.can with tx := s.can.tx } } = s) ∧
  (∀ (s : State) (index sub : Nat), canTakes s = true → ∃ t, exec (.canCompactRead index sub) s = .next t ∧
    ((readLimited s .can (addrOf index sub) 4).2.abort = 0 → t.can.tx = s.can.tx ++
      [(5, [0] ++ leBytes 2 index ++ leBytes 1 sub ++ (readLimited s .can (addrOf index sub) 4).2.data)]) ∧
    { t with req := s.req, sp := { t.sp with pwerr := s.sp.pwerr }, can := { t.can with tx := s.can.tx } } = s)

/-- R644, R645, R650, R652, R654 to R657: CAN_EN opens and closes the port; a busy request, a duplicate node, error passive and bus-off count or
show in CAN_STAT, which recovery clears; a heartbeat goes out with its sequence number; a TIME frame sets wall time. Where the spec leaves a point
open, this follows log entry 44. -/
def Obligations.CanPortEvents : Prop :=
  (∀ (s : State) (q : Requester), Admitted s q O.CAN_EN [1] → ∃ t, exec (.canEnWrite q 1) s = .next t ∧ t.isOn O.CAN_EN = true ∧
    t.can.on = true ∧ t.getN O.CAN_NODE = (if s.isOn O.CAN_EN then s.getN O.CAN_NODE else canNodeNow s) ∧
    Written s { t with can := { t.can with on := s.can.on } } (· ∈ [O.CAN_EN, O.CAN_NODE])) ∧
  (∀ (s : State) (q : Requester), Admitted s q O.CAN_EN [0] → ∃ t, exec (.canEnWrite q 0) s = .next t ∧ t.isOn O.CAN_EN = false ∧
    t.can.on = false ∧ Written s { t with can := { t.can with on := s.can.on } } (· = O.CAN_EN)) ∧
  (∀ (s : State) (compact : Bool) (cmd tid : Byte) (index sub : Nat), canUp s = true →
    ∃ t, exec (.canRequestBusy compact cmd tid index sub) s = .next t ∧ t.getN O.REQ_BUSY_CNT = (s.getN O.REQ_BUSY_CNT + 1) % 2 ^ 32 ∧
      Keeps s { t with can := { t.can with busyAt := s.can.busyAt } } (· = O.REQ_BUSY_CNT)) ∧
  (∀ (s : State) (node : Fin 128) (fd : Bool) (data : List Byte) (d : Nat), canTakes s = true → s.isOn O.CAN_TIME_EN = true →
    node.val = 0 ∨ node.val = s.getN O.CAN_NODE → data.length = (if fd then 12 else 8) →
    ∃ t, exec (.canTime node fd data d) s = .next t ∧
      t.wall = ofLe (data.take 8) * 1000000 + (if fd then ofLe (data.drop 8) else 0) + d ∧ t.getB O.WALL_STAT 0 = true ∧
      Keeps s { t with wall := s.wall } (· = O.WALL_STAT)) ∧
  (∀ s : State, canUp s = true → ∃ t, exec .canDuplicateNode s = .next t ∧ t.getB O.CAN_STAT 2 = true ∧
    t.getN O.DUP_CNT = (s.getN O.DUP_CNT + 1) % 2 ^ 32 ∧
    Keeps s { t with can := { t.can with dupAt := s.can.dupAt } } (· ∈ [O.CAN_STAT, O.DUP_CNT])) ∧
  (∀ s : State, canUp s = true → serves s = true → s.getN O.CAN_HB_T ≠ 0 →
    quietFor s.can.hbAt s.uptime (s.getN O.CAN_HB_T * 1000) = true → ∃ t, exec .canHeartbeat s = .next t ∧ t.can.hbAt = some s.uptime ∧
    t.can.seq = (s.can.seq + 1) % 256 ∧ t.can.tx = s.can.tx ++ [(14, heartbeatBytes s)] ∧
    { t with can := { t.can with seq := s.can.seq, hbAt := s.can.hbAt, tx := s.can.tx } } = s) ∧
  (∀ s : State, canUp s = true → ∃ t, exec .canErrorPassive s = .next t ∧ t.getB O.CAN_STAT 0 = true ∧ Keeps s t (· = O.CAN_STAT)) ∧
  (∀ s : State, canUp s = true → ∃ t, exec .canBusOff s = .next t ∧ t.getB O.CAN_STAT 1 = true ∧ canUp t = false ∧
    t.getN O.BOFF_CNT = (s.getN O.BOFF_CNT + 1) % 2 ^ 32 ∧ Keeps s t (· ∈ [O.CAN_STAT, O.BOFF_CNT])) ∧
  (∀ s : State, s.getB O.CAN_STAT 1 = true → ∃ t, exec .canBusOffRecovery s = .next t ∧ t.getB O.CAN_STAT 0 = false ∧
    t.getB O.CAN_STAT 1 = false ∧ Keeps s t (· = O.CAN_STAT))

/-! ### The stream port and the rings -/

/-- R660, R663, R664, R666 to R669, R674, R676, R692: a READ frame answers its words, status and abort in order, and changes only what the port answers;
READ_NARROW answers the enabled lanes; a read of SP_WSTAT clears PWERR; a frame with a code or count that R660 does not list counts, and does
nothing else; a frame cut before its trailer has been sent applies nothing, and clocks after the trailer read 0xFF; a word that the port refuses
keeps a whole WRITE frame from acting. Where the spec leaves a point open, this follows log entries 45, 46 and 101. -/
def Obligations.StreamPortReads : Prop :=
  (∀ (s : State) (addr : BitVec 32) (n : Nat), serves s = true → 1 ≤ n → n ≤ 65535 → ¬ (inWindowRegion addr.toNat = true ∧ 16 < n) →
    ∃ t, exec (.spRead addr n .whole) s = .next t ∧ t.sp.response.length = 4 * n + 5 ∧
      (n = 1 → t.sp.response.take 4 = leBytes 4 (readWord s addr.toNat).2.2 ∧
        (t.sp.response.drop 5).take 2 = leBytes 2 (readWord s addr.toNat).2.1) ∧
      { t with req := s.req, sp := { t.sp with response := s.sp.response, pwerr := s.sp.pwerr } } = s) ∧
  (∀ (s : State) (addr : BitVec 32) (e : BitVec 16), serves s = true → ∃ t, exec (.spReadNarrow addr e .whole) s = .next t ∧
    (lanesOk e.toNat = true → t.sp.response.take 4 = leBytes 4 (lanesOf e.toNat (readWord s addr.toNat).2.2)) ∧
    (lanesOk e.toNat = false → t.sp.response.take 4 = [0, 0, 0, 0] ∧ (t.sp.response.drop 5).take 2 = leBytes 2 0xA022) ∧
    { t with req := s.req, sp := { t.sp with response := s.sp.response, pwerr := s.sp.pwerr } } = s) ∧
  (∀ s : State, serves s = true → ∃ t, exec .spWstatRead s = .next t ∧ t.sp.pwerr = false ∧
    t.sp.response.take 4 = toBytes .u32 (s.get O.SP_WSTAT) ∧
    { t with req := s.req, sp := { t.sp with response := s.sp.response, pwerr := s.sp.pwerr } } = s) ∧
  (∀ (s : State) (code : Byte) (n : Nat), serves s = true →
    code ∉ ([0x0B, 0x1B, 0x02, 0x12] : List Byte) ∨ ((code = 0x0B ∨ code = 0x02) ∧ (n = 0 ∨ 65535 < n)) ∨ (code = 0x02 ∧ 64 < n) →
    ∃ t, exec (.spFrameError code n .whole) s = .next t ∧ t.getN O.SP_ERR_CNT = (s.getN O.SP_ERR_CNT + 1) % 2 ^ 32 ∧
      Still s { t with free := s.free, sp := { t.sp with response := s.sp.response } } (· = O.SP_ERR_CNT)) ∧
  (∀ (s : State) (addr : BitVec 32) (n : Nat) (ws : List (BitVec 32)) (ok : Bool) (c : Instr), serves s = true →
    (c = .spRead addr n .whole ∧ (n = 0 ∨ 65535 < n ∨ (inWindowRegion addr.toNat = true ∧ 16 < n))) ∨
      (c = .spWrite addr ws ok .whole ∧ (ws = [] ∨ 64 < ws.length ∨ (inWindowRegion addr.toNat = true ∧ 16 < ws.length))) →
    ∃ t, exec c s = .next t ∧ t.getN O.SP_ERR_CNT = (s.getN O.SP_ERR_CNT + 1) % 2 ^ 32 ∧
      Still s { t with sp := { t.sp with response := s.sp.response } } (· = O.SP_ERR_CNT)) ∧
  (∀ (s : State) (frame : FrameEnd → Instr) (addr w : BitVec 32) (e : BitVec 16) (ws : List (BitVec 32)) (code : Byte) (ok : Bool) (m n : Nat),
    serves s = true → frame = .spRead addr m ∨ frame = .spReadNarrow addr e ∨ frame = .spWrite addr ws ok ∨
      frame = .spWriteNarrow addr e w ok ∨ (frame = .spFrameError code m ∧ code ∉ ([0x0B, 0x1B, 0x02, 0x12] : List Byte)) →
    ∃ t, exec (frame .whole) s = .next t ∧
      exec (frame (.cut n)) s = .next
        { s with free := t.free, sp := { s.sp with response := t.sp.response.take (min n (t.sp.response.length - 1)) } } ∧
      exec (frame (.over n)) s = .next { t with sp := { t.sp with response := t.sp.response ++ List.replicate n 0xFF } }) ∧
  (∀ (s : State) (addr : BitVec 32) (ws : List (BitVec 32)) (i : Nat), serves s = true → ws.length ≤ 64 →
    ¬ (inWindowRegion addr.toNat = true ∧ 16 < ws.length) → i < ws.length → portRefusal s (addr.toNat + 4 * i) false ≠ 0 →
    (∀ j, j < i → portRefusal s (addr.toNat + 4 * j) false = 0) → ∃ t, exec (.spWrite addr ws true .whole) s = .next t ∧
      (t.sp.response.drop 1).take 2 = leBytes 2 (portRefusal s (addr.toNat + 4 * i) false) ∧
      { t with sp := { t.sp with response := s.sp.response } } = s)

/-- R662, R667 to R672, R677, R692: a write frame stores its words in ring 0's area, or applies one to the object of the window, and SP_WSTAT
reports it; a high word waits for its low word; the first word that the dictionary refuses sets PWERR; a CRC mismatch counts and the frame does
nothing else; WRITE_NARROW stores the enabled lanes alone. -/
def Obligations.StreamPortWrites : Prop :=
  (∀ (s : State) (o : Nat) (ws : List (BitVec 32)), serves s = true → 1 ≤ ws.length → ws.length ≤ 64 → o % 4 = 0 → ringEn s 0 = true →
    ringBase s 0 ≤ o → o + 4 * ws.length ≤ ringBase s 0 + ringSize s 0 → o + 4 * ws.length ≤ 0x80000 →
    ∃ t, exec (.spWrite (BitVec.ofNat 32 (0x20000000 + o)) ws true .whole) s = .next t ∧
      (∀ i (h : i < (ws.flatMap fun w => leBytes 4 w.toNat).length),
        byteAt t.sp.mem (o + i) = (ws.flatMap fun w => leBytes 4 w.toNat)[i]) ∧
      (∀ a, a < o ∨ o + 4 * ws.length ≤ a → byteAt t.sp.mem a = byteAt s.sp.mem a) ∧
      t.getN O.SP_WSTAT = ws.length * 65536 + (s.sp.frames + 1) % 256 * 16777216 ∧
      Still s { t with sp := { t.sp with mem := s.sp.mem, response := s.sp.response, frames := s.sp.frames } } (· = O.SP_WSTAT)) ∧
  (∀ (s : State) (addr w : BitVec 32) (a : Addr) (r : Row), spAt addr.toNat = .win a false → resolve a = .obj a r → r.ty ≠ .u64 →
    upperOk r.ty w.toNat = true → Admitted s .stream a (leBytes r.ty.bytes w.toNat) →
    ownChip s .stream a (ofBytes r.ty (leBytes r.ty.bytes w.toNat)).toNat {} = none →
    ownUnit s .stream a (ofBytes r.ty (leBytes r.ty.bytes w.toNat)).toNat = none →
    ∃ t, exec (.spWrite addr [w] true .whole) s = .next t ∧ t.get a = ofBytes r.ty (leBytes r.ty.bytes w.toNat) ∧
      t.getN O.SP_WSTAT = 65536 + (s.sp.frames + 1) % 256 * 16777216 ∧
      Written s { t with loops := s.loops, cells := s.cells, aml := s.aml, tree := s.tree, seen := s.seen,
                         tw := { t.tw with clash := s.tw.clash }, twin := { t.twin with abdDue := s.twin.abdDue },
                         sp := { t.sp with high := s.sp.high, response := s.sp.response, frames := s.sp.frames } }
        (fun b => b = a ∨ b = O.SP_WSTAT ∨ b = O.FB_PERIOD_CNT ∨ among [O.PERIOD_CNT 0, O.BUR_VALID 0] b ∨ among loopTemplates b)) ∧
  (∀ (s : State) (addr w : BitVec 32) (a : Addr) (r : Row), serves s = true → spAt addr.toNat = .win a true → resolve a = .obj a r → r.ty = .u64 →
    ∃ t, exec (.spWrite addr [w] true .whole) s = .next t ∧ lookupAt t.sp.high a = some w.toNat ∧
      Still s { t with sp := { t.sp with high := s.sp.high, response := s.sp.response, frames := s.sp.frames } } (· = O.SP_WSTAT)) ∧
  (∀ (s : State) (addr w : BitVec 32) (a : Addr) (r : Row), spAt addr.toNat = .win a false → resolve a = .obj a r → r.ty = .u64 →
    Admitted s .stream a (leBytes 4 w.toNat ++ leBytes 4 (heldHigh s a)) →
    ownChip s .stream a (ofBytes r.ty (leBytes 4 w.toNat ++ leBytes 4 (heldHigh s a))).toNat {} = none →
    ownUnit s .stream a (ofBytes r.ty (leBytes 4 w.toNat ++ leBytes 4 (heldHigh s a))).toNat = none →
    ∃ t, exec (.spWrite addr [w] true .whole) s = .next t ∧ t.get a = ofBytes r.ty (leBytes 4 w.toNat ++ leBytes 4 (heldHigh s a)) ∧
      heldHigh t a = 0) ∧
  (∀ s : State, s.chip.main = true → ∃ t, exec .rstNFall s = .next t ∧ t.sp = {}) ∧
  (∀ (s : State) (addr w : BitVec 32) (ws : List (BitVec 32)) (a : Addr) (r : Row), serves s = true → ws.length < 16 →
    (∀ i, i ≤ ws.length → portRefusal s (addr.toNat + 4 * i) false = 0) → spAt addr.toNat = .win a false → resolve a = .obj a r → r.ty ≠ .u64 →
    upperOk r.ty w.toNat = true → writeCheck s .stream a r (leBytes r.ty.bytes w.toNat) ≠ 0 →
    writeCheck s .stream a r (leBytes r.ty.bytes w.toNat) ≠ 0xA013 → ∃ t, exec (.spWrite addr (w :: ws) true .whole) s = .next t ∧ t.sp.pwerr = true ∧
      t.getN O.SP_WSTAT = writeCheck s .stream a r (leBytes r.ty.bytes w.toNat) + (s.sp.frames + 1) % 256 * 16777216 ∧
      Still s { t with req := s.req, sp := { t.sp with high := s.sp.high, response := s.sp.response, frames := s.sp.frames, pwerr := s.sp.pwerr } }
        (· = O.SP_WSTAT)) ∧
  (∀ (s : State) (addr : BitVec 32) (ws : List (BitVec 32)) (e : BitVec 16) (w : BitVec 32) (c : Instr), serves s = true →
    c = .spWriteNarrow addr e w false .whole ∨
      (c = .spWrite addr ws false .whole ∧ 1 ≤ ws.length ∧ ws.length ≤ 64 ∧ ¬ (inWindowRegion addr.toNat = true ∧ 16 < ws.length)) →
    ∃ t, exec c s = .next t ∧ t.getN O.SP_ERR_CNT = (s.getN O.SP_ERR_CNT + 1) % 2 ^ 32 ∧
      Keeps s { t with free := s.free, sp := { t.sp with response := s.sp.response, crcAt := s.sp.crcAt, crcN := s.sp.crcN } }
        (· = O.SP_ERR_CNT)) ∧
  (∀ (s : State) (o : Nat) (e : BitVec 16) (w : BitVec 32), serves s = true → lanesOk e.toNat = true → o % 4 = 0 → ringEn s 0 = true →
    ringBase s 0 ≤ o → o + 4 ≤ ringBase s 0 + ringSize s 0 → o + 4 ≤ 0x80000 →
    ∃ t, exec (.spWriteNarrow (BitVec.ofNat 32 (0x20000000 + o)) e w true .whole) s = .next t ∧
      (∀ i, i < 4 → byteAt t.sp.mem (o + i) = if bit e.toNat i then BitVec.ofNat 8 (w.toNat / 256 ^ i) else byteAt s.sp.mem (o + i)) ∧
      (∀ a, a < o ∨ o + 4 ≤ a → byteAt t.sp.mem a = byteAt s.sp.mem a) ∧
      Still s { t with sp := { t.sp with mem := s.sp.mem, response := s.sp.response, frames := s.sp.frames } } (· = O.SP_WSTAT))

/-- R678, R682, R686 to R688: RING_CFG enables a ring that is empty, where its area lies within stream memory and meets no other ring's, disables
one, and moves no enabled one; RING_PI of ring 0 and RING_CI of the others move between record boundaries; a ring resumes; a record's age reaches
TMO; the telemetry of a loop takes the samples of its interval. Where the spec leaves a point open, this follows log entry 104. -/
def Obligations.RingRegisters : Prop :=
  (∀ (s : State) (q : Requester) (r : RingId) (v : BitVec 32), Admitted s q (O.RING_CFG r) (leBytes 4 v.toNat) → bit v.toNat 13 = true →
    ringEn s r = false → ∃ t, exec (.ringCfgWrite q r v) s = .next t ∧
      (bits v.toNat 0 9 + 2 ^ bits v.toNat 9 4 ≤ 512 →
        (∀ x : RingId, x ≠ r → ringEn s x = true → areasMeet v.toNat (s.getN (O.RING_CFG x)) = false) →
        t.getN (O.RING_CFG r) = v.toNat ∧ t.getN (O.RING_PI r) = 0 ∧ t.getN (O.RING_CI r) = 0 ∧ t.getN (O.RING_LOST r) = 0 ∧
        t.rings[r].recs = [] ∧ t.rings[r].stopped = false ∧ (∀ x : RingId, x ≠ r → t.rings[x] = s.rings[x]) ∧
        Still s { t with req := s.req, rings := s.rings }
          (· ∈ [O.DICT_GEN, O.RING_CFG r, O.RING_PI r, O.RING_CI r, O.RING_LOST r])) ∧
      (512 < bits v.toNat 0 9 + 2 ^ bits v.toNat 9 4 ∨
        (∃ x : RingId, x ≠ r ∧ ringEn s x = true ∧ areasMeet v.toNat (s.getN (O.RING_CFG x)) = true) →
        (t.rqOf q).lastAbort = 0xA031 ∧ { t with req := s.req } = s)) ∧
  (∀ (s : State) (q : Requester) (r : RingId) (v : BitVec 32), Admitted s q (O.RING_CFG r) (leBytes 4 v.toNat) → bit v.toNat 13 = false ∨ ringEn s r = true →
    ∃ t, exec (.ringCfgWrite q r v) s = .next t ∧
    (ringEn s r = true → bits (s.getN (O.RING_CFG r)) 0 13 ≠ bits v.toNat 0 13 → (t.rqOf q).lastAbort = 0xA030 ∧ { t with req := s.req } = s) ∧
    (ringEn s r = false ∨ bits (s.getN (O.RING_CFG r)) 0 13 = bits v.toNat 0 13 → t.getN (O.RING_CFG r) = v.toNat ∧
      (bit v.toNat 13 = false → t.rings[r].recs = []) ∧ (bit v.toNat 13 = true → t.rings = s.rings) ∧ (∀ x : RingId, x ≠ r → t.rings[x] = s.rings[x]) ∧
      Still s { t with req := s.req, rings := s.rings } (· ∈ [O.DICT_GEN, O.RING_CFG r]))) ∧
  (∀ (s : State) (q : Requester) (v : BitVec 32), Admitted s q (O.RING_PI (0 : Nat)) (leBytes 4 v.toNat) → ringEn s 0 = true →
    (v.toNat + 2 ^ 32 - s.getN (O.RING_CI (0 : Nat))) % 2 ^ 32 ≤ ringSize s 0 →
    (v.toNat + 2 ^ 32 - s.getN (O.RING_PI (0 : Nat))) % 2 ^ 32 ≤ ringSize s 0 →
    boundary s v.toNat ((v.toNat + 2 ^ 32 - s.getN (O.RING_PI (0 : Nat))) % 2 ^ 32 / 4) (s.getN (O.RING_PI (0 : Nat))) = true →
    ∃ t, exec (.ringPiWrite q 0 v) s = .next t ∧ t.getN (O.RING_PI (0 : Nat)) = v.toNat ∧ t.rings[(0 : RingId)].aged = false ∧
      Still s { t with req := s.req, rings := s.rings } (· ∈ [O.DICT_GEN, O.RING_PI (0 : Nat)])) ∧
  (∀ (s : State) (q : Requester) (r : RingId) (v : BitVec 32) (l : List RingRec), Admitted s q (O.RING_CI r) (leBytes 4 v.toNat) → r ≠ 0 →
    (v.toNat + 2 ^ 32 - s.getN (O.RING_CI r)) % 2 ^ 32 ≤ ringUsed s r →
    consume s.rings[r].recs ((v.toNat + 2 ^ 32 - s.getN (O.RING_CI r)) % 2 ^ 32) = some l →
    ∃ t, exec (.ringCiWrite q r v) s = .next t ∧ t.getN (O.RING_CI r) = v.toNat ∧ t.rings[r].recs = l ∧
      (∀ x : RingId, x ≠ r → t.rings[x] = s.rings[x]) ∧ Still s { t with req := s.req, rings := s.rings } (· ∈ [O.DICT_GEN, O.RING_CI r])) ∧
  (∀ (s : State) (q : Requester) (v : BitVec 32), Admitted s q (O.RING_PI (0 : Nat)) (leBytes 4 v.toNat) → ringEn s 0 = true →
    ringSize s 0 < (v.toNat + 2 ^ 32 - s.getN (O.RING_CI (0 : Nat))) % 2 ^ 32 ∨
      boundary s v.toNat ((v.toNat + 2 ^ 32 - s.getN (O.RING_PI (0 : Nat))) % 2 ^ 32 / 4) (s.getN (O.RING_PI (0 : Nat))) = false →
    ∃ t, exec (.ringPiWrite q 0 v) s = .next t ∧ (t.rqOf q).lastAbort = 0xA020 ∧ { t with req := s.req } = s) ∧
  (∀ (s : State) (q : Requester) (r : RingId) (v : BitVec 32), Admitted s q (O.RING_CI r) (leBytes 4 v.toNat) → r ≠ 0 →
    ringUsed s r < (v.toNat + 2 ^ 32 - s.getN (O.RING_CI r)) % 2 ^ 32 ∨
      consume s.rings[r].recs ((v.toNat + 2 ^ 32 - s.getN (O.RING_CI r)) % 2 ^ 32) = none →
    ∃ t, exec (.ringCiWrite q r v) s = .next t ∧ (t.rqOf q).lastAbort = 0xA020 ∧ { t with req := s.req } = s) ∧
  (∀ (s : State) (q : Requester) (r : RingId) (v : BitVec 32) (c : Instr), (c = .ringPiWrite q r v ∧ r ≠ 0 ∧
      Admitted s q (O.RING_PI r) (leBytes 4 v.toNat)) ∨ (c = .ringCiWrite q r v ∧ r = 0 ∧ Admitted s q (O.RING_CI r) (leBytes 4 v.toNat)) →
    ∃ t, exec c s = .next t ∧ (t.rqOf q).lastAbort = 0xA010 ∧ { t with req := s.req } = s) ∧
  (∀ (s : State) (r : RingId), s.chip.freeze = false → ringEn s r = true → ∃ t, exec (.ringResume r) s = .next t ∧
    (r = 2 → s.rings[r].stopped = true → ringSize s r ≤ 2 * ringFree s r → t.rings[r].stopped = false ∧ t.rings[r].gap = 0 ∧
      t.rings[r].recs = s.rings[r].recs ++ [{ len := 8, at_ := s.uptime, gap := some s.rings[r].gap }]) ∧
    (r = 14 → ∃ n, t.rings[r].held = s.rings[r].held.drop n) ∧ (r ≠ 2 → r ≠ 12 → r ≠ 14 → t = s) ∧ Keeps s { t with traces := s.traces } (fun _ => False)) ∧
  (∀ (s : State) (r : RingId), r ≠ 0 → ringEn s r = true → oldRecord s r = true → ∃ t, exec (.ringTmoElapsed r) s = .next t ∧
    t = s.modRing r fun g => { g with aged := true }) ∧
  (∀ (s : State) (k : LoopId), s.getN (O.RING_OPT (4 + k.val)) ≠ 0 → isOff s k = false →
    intervalDone s.loops[k].tel.at_ s.uptime (s.getN (O.RING_OPT (4 + k.val))) = true → ∃ t, exec (.telemetryRecord (.loop k)) s = .next t ∧
    t.loops[k].tel = { at_ := some s.uptime } ∧ Keeps s { t with loops := t.loops.set k { t.loops[k] with tel := s.loops[k].tel }, free := s.free } (fun _ => False)) ∧
  (∀ s : State, s.getN (O.RING_OPT (13 : Nat)) ≠ 0 → fbState s ≠ 0 →
    intervalDone s.fb.telAt s.uptime (s.getN (O.RING_OPT (13 : Nat))) = true → ∃ t, exec (.telemetryRecord .fb) s = .next t ∧
    t.fb.telAt = some s.uptime ∧ Keeps s { t with fb := { t.fb with telAt := s.fb.telAt } } (fun _ => False))

/-- R683, R684: the device takes the request at CI of ring 0 and answers in ring 1: what a read answers; what an admitted write or segment does;
status 2 for a malformed request. Where the spec leaves a point open, this follows log entry 68. -/
def Obligations.RingRequests : Prop :=
  (∀ (s : State) (c : Instr) (cmd : Nat), (c, cmd) ∈ [(Instr.ringWrite, 0x10), (.ringWriteSeg, 0x11), (.ringRead, 0x20), (.ringReadSeg, 0x21)] →
    serves s = true → ringEn s 0 = true → ringEn s 1 = true → ringUsed s 0 ≠ 0 → 76 ≤ ringFree s 1 → (requestAt s).len ≠ 0 →
    requestOk (requestAt s) = false ∨ (bits (requestAt s).w1 0 8 = cmd ∧ 0x20 ≤ cmd) →
    ∃ t stat abort data, exec c s = .next t ∧
      (requestOk (requestAt s) = false → stat = 2 ∧ abort = 0xA021 ∧ data = []) ∧
      (requestOk (requestAt s) = true → abort = (requestRun (ring0Take s (requestAt s).len) (requestAt s)).2.abort ∧
        stat = (if abort = 0 then 0 else 1) ∧ data = (requestRun (ring0Take s (requestAt s).len) (requestAt s)).2.data) ∧
      t.getN (O.RING_CI (0 : Nat)) = (s.getN (O.RING_CI (0 : Nat)) + 4 * (requestAt s).len) % 2 ^ 32 ∧
      (let bs := ringWords 2 (requestAt s).tag ([(requestAt s).w1, stat + data.length % 256 * 256 + abort * 65536] ++ wordsOf data)
       t.getN (O.RING_PI (1 : Nat)) = (s.getN (O.RING_PI (1 : Nat)) + bs.length) % 2 ^ 32 ∧
       t.rings[(1 : RingId)].recs = s.rings[(1 : RingId)].recs ++ [{ len := bs.length, at_ := s.uptime }] ∧
       ∀ i (h : i < bs.length), byteAt t.sp.mem (ringBase s 1 + (s.getN (O.RING_PI (1 : Nat)) + i) % ringSize s 1) = bs[i]) ∧
      (∀ o, o < ringBase s 1 ∨ ringBase s 1 + ringSize s 1 ≤ o → byteAt t.sp.mem o = byteAt s.sp.mem o) ∧
      (∀ r : RingId, r ≠ 0 → r ≠ 1 → t.rings[r] = s.rings[r]) ∧
      Still s { t with req := s.req, rings := s.rings, sp := { t.sp with mem := s.sp.mem, pwerr := s.sp.pwerr } }
        (· ∈ [O.RING_CI (0 : Nat), O.RING_PI (1 : Nat)])) ∧
  (∀ (s : State) (a : Addr) (r : Row), let q := requestAt s
    a = q.w1 / 256 % 256 + q.w1 / 65536 * 256 → ringEn s 0 = true → ringEn s 1 = true → ringUsed s 0 ≠ 0 → 76 ≤ ringFree s 1 → q.len ≠ 0 →
    requestOk q = true → bits q.w1 0 8 = 0x10 → Admitted s .stream a q.data → resolve a = .obj a r →
    ownChip s .stream a (ofBytes r.ty q.data).toNat { pagesOk := logPagesOk s } = none → ownUnit s .stream a (ofBytes r.ty q.data).toNat = none →
    ∃ t, exec .ringWrite s = .next t ∧ t.get a = ofBytes r.ty q.data ∧
      t.getN (O.RING_CI (0 : Nat)) = (s.getN (O.RING_CI (0 : Nat)) + 4 * q.len) % 2 ^ 32 ∧
      t.getN (O.RING_PI (1 : Nat)) = (s.getN (O.RING_PI (1 : Nat)) + 12) % 2 ^ 32 ∧
      Written s { t with loops := s.loops, cells := s.cells, aml := s.aml, tree := s.tree, seen := s.seen,
                         tw := { t.tw with clash := s.tw.clash }, twin := { t.twin with abdDue := s.twin.abdDue } }
        (fun b => b = a ∨ b = O.FB_PERIOD_CNT ∨ among [O.PERIOD_CNT 0, O.BUR_VALID 0] b ∨ among loopTemplates b)) ∧
  (∀ (s : State) (a : Addr), let q := requestAt s
    a = q.w1 / 256 % 256 + q.w1 / 65536 * 256 → ringEn s 0 = true → ringEn s 1 = true → ringUsed s 0 ≠ 0 → 76 ≤ ringFree s 1 → q.len ≠ 0 →
    requestOk q = true → bits q.w1 0 8 = 0x11 → SegAdmitted s .stream a (bits q.w2 0 16) q.data →
    ∃ t, exec .ringWriteSeg s = .next t ∧
      (t.rqOf .stream).staging = insertAt (s.rqOf .stream).staging a (stagedAt s .stream a (bits q.w2 0 16) ++ q.data) ∧
      t.getN (O.RING_CI (0 : Nat)) = (s.getN (O.RING_CI (0 : Nat)) + 4 * q.len) % 2 ^ 32 ∧
      t.getN (O.RING_PI (1 : Nat)) = (s.getN (O.RING_PI (1 : Nat)) + 12) % 2 ^ 32 ∧ Written s t (fun _ => False))

/-! ### Time, the recorder, the plate, the trace -/

/-- R716 to R731: an event forms a record at the end of the log with the next SEQ and the time; correctable and uncorrectable errors count; the
microsecond advances uptime and wall time; wall time is set and read whole; a record is read by its SEQ; the clear leaves the log with its own
record first. -/
def Obligations.RecorderAndTime : Prop :=
  (∀ (s : State) (code : Nat) (u : UnitId) (vals : List Byte), knownCode code = true → code ≠ 0x080A → code ≠ 0x0805 → s.getB O.LOG_STAT 0 = false →
    s.getB O.LOG_STAT 1 = false → s.getB O.LOG_STAT 2 = false → logBytes s.plate.log + 32 + (payloadOf u vals).length ≤ 524288 - 64 →
    ∃ t r l, exec (.eventRecord code u vals) s = .next t ∧ t.plate.log = s.plate.log ++ r :: l ∧ r.code = code ∧ r.seq = s.plate.nextSeq ∧
      r.uptime = s.uptime ∧ r.wall = s.wall ∧ r.payload = payloadOf u vals ∧ Keeps s t (fun _ => False)) ∧
  (∀ (s : State) (u : UnitId) (vals : List Byte), ∃ t, exec (.eventRecord 0x0805 u vals) s = .next t ∧
    t.getN O.ECC_CE_CNT = (s.getN O.ECC_CE_CNT + 1) % 2 ^ 32 ∧
    Keeps s { t with plate := { t.plate with ceAt := s.plate.ceAt } } (· = O.ECC_CE_CNT)) ∧
  (∀ (s : State) (u : UnitId) (vals : List Byte), ∃ t, exec (.eventRecord 0x080A u vals) s = .next t ∧
    t.getN O.ECC_UE_CNT = (s.getN O.ECC_UE_CNT + 1) % 2 ^ 32 ∧ t.plate.log = s.plate.log ∧
    (marginFree s = true → t.getB O.LOG_STAT 1 = true ∧ ∃ r, t.plate.margin = s.plate.margin ++ [r] ∧ r.code = 0x080A) ∧
    (marginFree s = false → t.getB O.LOG_STAT 2 = true ∧ t.plate.margin = s.plate.margin) ∧
    Keeps s { t with plate := { t.plate with margin := s.plate.margin } } (· ∈ [O.ECC_UE_CNT, O.MARGIN_USED])) ∧
  (∀ (s : State) (l : List LatchId), s.chip.aon = true → ∃ t, exec (.uptimeTick l) s = .next t ∧ t.uptime = (s.uptime + 1) % 2 ^ 64 ∧
    t.wall = s.wall + 1 ∧
    Still s { t with fb := s.fb, inputs := s.inputs, loops := s.loops, seen := s.seen, uptime := s.uptime, wall := s.wall
                     chip := { t.chip with coolAt := s.chip.coolAt } }
      (fun a => ∃ i : Fin 9, a = O.ENERGY i)) ∧
  (∀ (s : State) (q : Requester) (us : Nat), us < 2 ^ 32 → Admitted s q O.WALL_SET_US (leBytes 4 us) → ∃ t, exec (.wallSet q us) s = .next t ∧
    t.wall = s.getN O.WALL_SET_S * 1000000 + us ∧ t.getB O.WALL_STAT 0 = true ∧ Written s { t with wall := s.wall } (· = O.WALL_STAT)) ∧
  (∀ (s : State) (q : Requester), serves s = true → ∃ t, exec (.wallSRead q) s = .next t ∧ { t with req := s.req } = s ∧
    (s.chip.freeze = false → (t.rqOf q).out = toBytes .u64 (s.wall / 1000000 : Nat) ∧ (t.rqOf q).wallUs = some (s.wall % 1000000))) ∧
  (∀ (s : State) (q : Requester), serves s = true → ∃ t, exec (.wallUsRead q) s = .next t ∧ { t with req := s.req } = s ∧
    (t.rqOf q).wallUs = none ∧ (∀ us, (s.rqOf q).wallUs = some us → (t.rqOf q).out = leBytes 4 us) ∧
    ((s.rqOf q).wallUs = none → s.chip.freeze = false → (t.rqOf q).out = leBytes 4 (s.wall % 1000000))) ∧
  (∀ s : State, serves s = true → s.chip.freeze = false →
    ∃ t, exec (.spRead (BitVec.ofNat 32 (0x1000000 + O.WALL_S / 256 * 256 + O.WALL_S % 256 * 4)) 1 .whole) s = .next t ∧
      t.sp.response.take 4 = (toBytes .u64 (s.wall / 1000000 : Nat)).take 4 ∧ (t.rqOf .stream).wallUs = some (s.wall % 1000000)) ∧
  (∀ (s : State) (q : Requester) (ofs n : Nat), serves s = true → ∃ t, exec (.logRecRead q ofs n) s = .next t ∧ { t with req := s.req } = s ∧
    (ofs = 0 → selectedRecord s = none → (t.rqOf q).lastAbort = 0xA030) ∧
    (∀ r, ofs = 0 → selectedRecord s = some r →
      (t.rqOf q).out = (recordBytes r).take (min n 64) ∧ (t.rqOf q).buffer = some (O.LOG_REC, recordBytes r)) ∧
    (∀ bs, ofs ≠ 0 → (s.rqOf q).buffer = some (O.LOG_REC, bs) → (t.rqOf q).out = (bs.drop ofs).take (min n 64))) ∧
  (∀ (s : State) (q : Requester) (ok : Bool), Admitted s q O.LOG_CMD [0xC1] → ∃ t, exec (.logClear q ok) s = .next t ∧
    (ok = true → (∃ r l, t.plate.log = r :: l ∧ r.code = 0x0808) ∧ Written s t (fun _ => False)) ∧
    (ok = false → (t.rqOf q).lastAbort = 0xA050 ∧ { t with req := s.req } = s))

/-- R694, R698 to R706, R730, R739: a trigger starts a store of the plate's content into the target bank, whose marker says so; a store that
verifies commits its image, one that does not, or that runs out of hold-up, leaves the banks; a restore takes the faulted pages from the other bank;
SCR_DATA puts the enabled lanes of the scratch area. Where the spec leaves a point open, this follows log entry 66. -/
def Obligations.PlateStores : Prop :=
  (∀ (s : State) (c : Instr) (g : Nat), (∃ q, c = .storeCmdStore q ∧ g = 1 ∧ Admitted s q O.STORE_CMD [0xA5]) ∨
      (c = .pfailFall ∧ g = 2 ∧ s.chip.aon = true ∧ s.plate.recalled = true) ∨ (c = .vctrlLow ∧ g = 3 ∧ s.chip.aon = true ∧ s.plate.recalled = true) →
    s.plate.store = none → quietFor s.plate.pfAt s.uptime 1000 = true → ∃ t st, exec c s = .next t ∧ t.plate.store = some st ∧ st.trigger = g ∧
      st.target = (targetBank s.plate).val ∧ st.image.log = s.plate.log ∧ st.image.scratch = s.plate.scratch ∧ st.image.wall = s.wall ∧
      t.getN O.STORE_STAT = 1 ∧ t.plate.marker[targetBank s.plate].state = 0xA7 ∧
      t.getN O.LT_PF_STORES = (if g = 1 then s.getN O.LT_PF_STORES else (s.getN O.LT_PF_STORES + 1) % 2 ^ 32) ∧
      Still s { t with req := s.req, plate := { t.plate with marker := s.plate.marker, store := none, all0 := s.plate.all0, all1 := s.plate.all1 } }
        (· ∈ [O.DICT_GEN, O.STORE_STAT, O.LT_PF_STORES])) ∧
  (∀ (s : State) (c : Instr) (g : Nat) (st : Store), (c, g) ∈ [(Instr.pfailFall, 2), (.vctrlLow, 3)] → s.chip.aon = true → s.plate.recalled = true →
    s.plate.store = some st → st.pf = false → ∃ t, exec c s = .next t ∧ t.plate.store = some { st with again := some g, pf := true } ∧
      t.getN O.STORE_STAT = 2 ∧ Still s { t with plate := { t.plate with store := some st } } (· = O.STORE_STAT)) ∧
  (∀ (s : State) (st : Store), s.plate.store = some st → st.again = none → ∃ t, exec (.storeComplete true) s = .next t ∧
    let b : Fin 2 := if st.target = 0 then 0 else 1
    t.plate.bank[b] = st.image ∧ t.plate.bank[1 - b] = s.plate.bank[1 - b] ∧ t.plate.marker[b].state = 0x5E ∧ t.plate.marker[b].seq = st.seq ∧
      t.plate.store = none ∧ t.getN O.STORE_CNT = (s.getN O.STORE_CNT + 1) % 2 ^ 32 ∧ t.getN O.STORE_STAT = 0 ∧
      t.getN O.STORE_T_LAST = min 13000 (s.uptime - st.uptime) ∧
      Still s { t with plate := { t.plate with bank := s.plate.bank, marker := s.plate.marker, store := some st, pfAt := s.plate.pfAt } }
        (· ∈ [O.STORE_CNT, O.STORE_STAT, O.STORE_T_LAST])) ∧
  (∀ (s : State) (st : Store), s.plate.store = some st → ∃ t, exec (.storeComplete false) s = .next t ∧ t.plate.store = none ∧
    t.plate.bank = s.plate.bank ∧ t.plate.marker = s.plate.marker ∧ t.getN O.STORE_STAT = 3 ∧
    Keeps s { t with plate := { t.plate with store := some st, all0 := s.plate.all0, all1 := s.plate.all1 } } (· = O.STORE_STAT)) ∧
  (∀ (s : State) (st : Store), s.plate.store = some st → ∃ t, exec .vholdLow s = .next t ∧ t.plate.store = none ∧ t.getN O.STORE_STAT = 3 ∧
    Still s { t with plate := { t.plate with store := some st, all0 := s.plate.all0, all1 := s.plate.all1 } } (· = O.STORE_STAT)) ∧
  (∀ (s : State) (q : Requester), Admitted s q O.STORE_CMD [0x3C] → ∃ t, exec (.storeCmdRestore q) s = .next t ∧
    t.plate.bad = s.plate.bad.filter (fun p => !restorable p) ∧ t.getB O.PLATE_FLT 0 = false ∧ t.getB O.PLATE_FLT 2 = false ∧
    t.getB O.PLATE_FLT 3 = false ∧
    (let b : Fin 2 := if s.getN O.BANK_NOW = 0 then 1 else 0
     ∀ a, dictWf s.plate.bank[b].dict = true → storedA a = true → recorderObj a = false → a ≠ O.DICT_GEN → a ≠ O.PLATE_FLT → pageAt a ∈ s.plate.bad →
       restorable (pageAt a) = true → markerOk s.plate.marker[b] = true → pageAt a ∉ s.plate.badOther → t.get a = dval s.plate.bank[b].dict a) ∧
    Written s { t with blobs := s.blobs, plate := { t.plate with bad := s.plate.bad, scratch := s.plate.scratch } }
      (fun a => a = O.PLATE_FLT ∨ a = O.FB_PERIOD_CNT ∨ among [O.PERIOD_CNT 0, O.LL_R_NOW 0] a ∨
        (pageAt a ∈ s.plate.bad ∧ restorable (pageAt a) = true)) ∧
    (∀ k : LoopId, t.getN (O.PERIOD_CNT k) = periodFor (t.getN (O.FSW k)))) ∧
  (∀ (s : State) (q : Requester) (w : BitVec 32) (e : BitVec 4), Admitted s q O.SCR_DATA (leBytes 4 w.toNat) →
    ∃ t, exec (.scrDataWrite q w e) s = .next t ∧
      (∀ i, i < 4 → byteAt t.plate.scratch (s.getN O.SCR_OFS + i) =
        if bit e.toNat i then BitVec.ofNat 8 (w.toNat / 256 ^ i) else byteAt s.plate.scratch (s.getN O.SCR_OFS + i)) ∧
      (∀ a, a < s.getN O.SCR_OFS ∨ s.getN O.SCR_OFS + 4 ≤ a → byteAt t.plate.scratch a = byteAt s.plate.scratch a) ∧
      t.getN O.SCR_OFS = (s.getN O.SCR_OFS + 4) % 57344 ∧
      Still s { t with req := s.req, plate := { t.plate with scratch := s.plate.scratch } } (· ∈ [O.DICT_GEN, O.SCR_OFS]))

/-- R735 to R737, R740: ARM, FORCE, STOP and IDLE take a region's capture through its states, ARM refused with no stream, with the region off or
unloading; the last post-trigger frame ends it; TR_UNLOAD begins the unload of a region that is DONE, or has it wait; the last block ends it. Where
the spec leaves a point open, this follows log entry 67. -/
def Obligations.TraceCommands : Prop :=
  (∀ (s : State) (q : Requester) (r : RegionId), Admitted s q (O.TR_CMD r) [1] → ∃ t, exec (.trArm q r) s = .next t ∧
    (trStreams s r ≠ [] → s.getN (O.RG_STATE r) ≠ 0 → trState s r ≠ 5 → t.getN (O.TR_STAT r) = (if trPre s r = 0 then 2 else 1) ∧
      t.traces[r].total = 0 ∧ t.traces[r].mem = s.traces[r].mem ∧ (∀ x : RegionId, x ≠ r → t.traces[x] = s.traces[x]) ∧
      Still s { t with req := s.req, traces := s.traces } (· ∈ [O.DICT_GEN, O.TR_STAT r])) ∧
    (trStreams s r = [] ∨ s.getN (O.RG_STATE r) = 0 ∨ trState s r = 5 → (t.rqOf q).lastAbort = 0xA030 ∧ { t with req := s.req } = s)) ∧
  (∀ (s : State) (q : Requester) (r : RegionId), Admitted s q (O.TR_CMD r) [2] → ∃ t, exec (.trForce q r) s = .next t ∧
    t.traces[r].trig = (s.traces[r].trig || trState s r == 2) ∧
    Still s { t with req := s.req, traces := t.traces.set r { t.traces[r] with trig := s.traces[r].trig } } (· = O.DICT_GEN)) ∧
  (∀ (s : State) (q : Requester) (r : RegionId), Admitted s q (O.TR_CMD r) [3] → ∃ t, exec (.trStop q r) s = .next t ∧
    (trState s r ∈ [1, 2, 3] → t.getN (O.TR_STAT r) = 4 ∧ t.traces[r].mem = s.traces[r].mem ∧ t.traces[r].total = s.traces[r].total ∧
      (∀ x : RegionId, x ≠ r → t.traces[x] = s.traces[x]) ∧ Written s { t with traces := s.traces } (· = O.TR_STAT r)) ∧
    (trState s r ∉ [1, 2, 3] → Still s { t with req := s.req } (· = O.DICT_GEN))) ∧
  (∀ (s : State) (q : Requester) (r : RegionId), Admitted s q (O.TR_CMD r) [4] → ∃ t, exec (.trIdle q r) s = .next t ∧
    t.getN (O.TR_STAT r) = 0 ∧ t.traces[r] = {} ∧
    (unloading s ≠ r.val → Still s { t with req := s.req, traces := t.traces.set r s.traces[r] } (· ∈ [O.DICT_GEN, O.TR_STAT r, O.TR_UNLOAD_STAT])) ∧
    Written s { t with traces := s.traces } (fun a => a = O.TR_UNLOAD_STAT ∨ ∃ j : RegionId, a = O.TR_STAT j)) ∧
  (∀ (s : State) (r : RegionId), trState s r = 3 → s.traces[r].left = 0 → ∃ t, exec (.traceCaptureDone r) s = .next t ∧ trState t r = 4 ∧
    Keeps s t (· = O.TR_STAT r)) ∧
  (∀ (s : State) (q : Requester) (r : RegionId), Admitted s q O.TR_UNLOAD [BitVec.ofNat 8 (0x10 + r.val)] → trState s r = 4 →
    ∃ t, exec (.trUnload q (0x10 + r.val)) s = .next t ∧
      (unloading s = 15 → unloadWait s = 0 → unloading t = r.val ∧ trState t r = 5 ∧ (∀ x : RegionId, x ≠ r → t.traces[x] = s.traces[x]) ∧
        Written s { t with traces := s.traces } (· ∈ [O.TR_STAT r, O.TR_UNLOAD_STAT])) ∧
      (unloading s ≠ 15 → unloading t = unloading s ∧ bit (unloadWait t) r = true ∧
        Still s { t with req := s.req } (· ∈ [O.DICT_GEN, O.TR_UNLOAD_STAT]))) ∧
  (∀ (s : State) (r : RegionId), unloading s = r.val → blocksAll s r ≤ s.traces[r].sent → unloadWait s = 0 →
    ∃ t, exec .traceUnloadDone s = .next t ∧ trState t r = 4 ∧ t.getN O.TR_UNLOAD_STAT = 0x000F ∧ Keeps s t (· ∈ [O.TR_STAT r, O.TR_UNLOAD_STAT]))

/-! ### The machine as a whole -/

/-- The step takes the command at the front of the queue and executes it with the rest of the queue; on an empty queue it idles (log entry 20). -/
def Obligations.StepRunsFront : Prop :=
  (∀ (c : Instr) (l : List Instr) (s : State), s.pending = c :: l → step s = exec c { s with pending := l }) ∧
  ∀ s : State, s.pending = [] → step s = .next s

/-- After reset the queue is empty, every object reads its default, no memory lists a byte, and the state is in canonical form (log entry 11). -/
def Obligations.ResetState : Prop :=
  State.reset.pending = [] ∧ (∀ a, State.reset.get a = dflt a) ∧ State.reset.sp.mem = [] ∧ State.reset.plate.scratch = [] ∧
    (∀ r : RegionId, State.reset.traces[r].mem = []) ∧ State.reset.getN O.LOCK_STAT = 0 ∧ Canonical State.reset

/-- Every command answers a next state, whatever the state, and leaves the queue as it is (log entry 21 says what an event outside its condition
does). -/
def Obligations.EveryCommandAnswers : Prop :=
  ∀ (c : Instr) (s : State), ∃ t, exec c s = .next t ∧ t.pending = s.pending

/-- Every step keeps the canonical form of the model (log entries 9 and 10): no object is listed with its default and no byte of a memory with 0,
and every list stays sorted. -/
def Obligations.CanonicalKept : Prop :=
  ∀ s t : State, Canonical s → step s = .next t → Canonical t
end

