-- ==== Sys2Proof/Laws/Bits.lean ====
section
/-! SUPPORT. Laws of single bits of a number: reading after setting, clearing or putting one. -/

namespace Sys2Proof.Machine

theorem bit_eq_testBit (v i : Nat) : bit v i = v.testBit i := by
  unfold bit
  rw [Nat.testBit_eq_decide_div_mod_eq]
  rcases Nat.mod_two_eq_zero_or_one (v / 2 ^ i) with h | h <;> simp [h]

/-- A number around its bit b. -/
theorem split_at_bit (v b : Nat) : ∃ q r c, c < 2 ∧ r < 2 ^ b ∧ v = 2 ^ b * (2 * q + c) + r ∧ (bit v b = true ↔ c = 1) := by
  refine ⟨v / 2 ^ b / 2, v % 2 ^ b, v / 2 ^ b % 2, Nat.mod_lt _ (by omega), Nat.mod_lt _ (by positivity), ?_, by simp [bit]⟩
  rw [Nat.div_add_mod, Nat.div_add_mod]

theorem testBit_around {q r c b : Nat} (hc : c < 2) (hr : r < 2 ^ b) (i : Nat) :
    (2 ^ b * (2 * q + c) + r).testBit i =
      if i < b then r.testBit i else if i = b then decide (c = 1) else q.testBit (i - b - 1) := by
  rw [Nat.testBit_two_pow_mul_add _ hr]
  split
  · rfl
  · split
    · next h =>
      subst h
      interval_cases c <;> simp
    · next h1 h2 =>
      obtain ⟨j, rfl⟩ : ∃ j, i = b + j + 1 := ⟨i - b - 1, by omega⟩
      rw [show b + j + 1 - b = j + 1 by omega, Nat.testBit_succ, Nat.add_sub_cancel]
      congr 1
      omega

theorem bit_setBit (v b i : Nat) : bit (setBit v b) i = (bit v i || decide (i = b)) := by
  obtain ⟨q, r, c, hc, hr, hv, hb⟩ := split_at_bit v b
  unfold setBit
  split
  · next h => by_cases hi : i = b <;> simp [hi, h]
  · next h =>
    have : c = 0 := by rw [hb] at h; omega
    subst this
    rw [bit_eq_testBit, bit_eq_testBit, show v + 2 ^ b = 2 ^ b * (2 * q + 1) + r by rw [hv]; ring,
      testBit_around (by omega) hr, hv, testBit_around (by omega) hr]
    grind

theorem bit_clrBit (v b i : Nat) : bit (clrBit v b) i = (bit v i && !decide (i = b)) := by
  obtain ⟨q, r, c, hc, hr, hv, hb⟩ := split_at_bit v b
  unfold clrBit
  split
  · next h =>
    have : c = 1 := by rwa [hb] at h
    subst this
    have e : v - 2 ^ b = 2 ^ b * (2 * q + 0) + r := by
      rw [hv, Nat.mul_add, Nat.mul_one, Nat.add_zero]
      omega
    rw [bit_eq_testBit, bit_eq_testBit, e, testBit_around (by omega) hr, hv, testBit_around (by omega) hr]
    grind
  · next h => by_cases hi : i = b <;> simp_all

@[simp] theorem bit_putBit (v b i : Nat) (x : Bool) : bit (putBit v b x) i = if i = b then x else bit v i := by
  unfold putBit
  cases x <;> by_cases h : i = b <;> simp [bit_setBit, bit_clrBit, h]

end Sys2Proof.Machine
end

