-- ==== Sys2Proof/Laws/State.lean ====
section
/-! SUPPORT. One law per field of State and per named update that leaves it: true by rfl, so that no proof unfolds an update. -/

namespace Sys2Proof.Machine

variable (s : State)

/-! ### set -/

@[simp] theorem State.set_uptime (a : Addr) (v : Int) : (s.set a v).uptime = s.uptime := rfl
@[simp] theorem State.set_wall (a : Addr) (v : Int) : (s.set a v).wall = s.wall := rfl
@[simp] theorem State.set_blobs (a : Addr) (v : Int) : (s.set a v).blobs = s.blobs := rfl
@[simp] theorem State.set_inputs (a : Addr) (v : Int) : (s.set a v).inputs = s.inputs := rfl
@[simp] theorem State.set_seen (a : Addr) (v : Int) : (s.set a v).seen = s.seen := rfl
@[simp] theorem State.set_free (a : Addr) (v : Int) : (s.set a v).free = s.free := rfl
@[simp] theorem State.set_req (a : Addr) (v : Int) : (s.set a v).req = s.req := rfl
@[simp] theorem State.set_chip (a : Addr) (v : Int) : (s.set a v).chip = s.chip := rfl
@[simp] theorem State.set_loops (a : Addr) (v : Int) : (s.set a v).loops = s.loops := rfl
@[simp] theorem State.set_cells (a : Addr) (v : Int) : (s.set a v).cells = s.cells := rfl
@[simp] theorem State.set_blocks (a : Addr) (v : Int) : (s.set a v).blocks = s.blocks := rfl
@[simp] theorem State.set_regions (a : Addr) (v : Int) : (s.set a v).regions = s.regions := rfl
@[simp] theorem State.set_tree (a : Addr) (v : Int) : (s.set a v).tree = s.tree := rfl
@[simp] theorem State.set_fb (a : Addr) (v : Int) : (s.set a v).fb = s.fb := rfl
@[simp] theorem State.set_shape (a : Addr) (v : Int) : (s.set a v).shape = s.shape := rfl
@[simp] theorem State.set_aml (a : Addr) (v : Int) : (s.set a v).aml = s.aml := rfl
@[simp] theorem State.set_twin (a : Addr) (v : Int) : (s.set a v).twin = s.twin := rfl
@[simp] theorem State.set_tw (a : Addr) (v : Int) : (s.set a v).tw = s.tw := rfl
@[simp] theorem State.set_can (a : Addr) (v : Int) : (s.set a v).can = s.can := rfl
@[simp] theorem State.set_sp (a : Addr) (v : Int) : (s.set a v).sp = s.sp := rfl
@[simp] theorem State.set_rings (a : Addr) (v : Int) : (s.set a v).rings = s.rings := rfl
@[simp] theorem State.set_traces (a : Addr) (v : Int) : (s.set a v).traces = s.traces := rfl
@[simp] theorem State.set_pending (a : Addr) (v : Int) : (s.set a v).pending = s.pending := rfl

/-! ### setN -/

@[simp] theorem State.setN_uptime (a : Addr) (v : Nat) : (s.setN a v).uptime = s.uptime := rfl
@[simp] theorem State.setN_wall (a : Addr) (v : Nat) : (s.setN a v).wall = s.wall := rfl
@[simp] theorem State.setN_blobs (a : Addr) (v : Nat) : (s.setN a v).blobs = s.blobs := rfl
@[simp] theorem State.setN_inputs (a : Addr) (v : Nat) : (s.setN a v).inputs = s.inputs := rfl
@[simp] theorem State.setN_seen (a : Addr) (v : Nat) : (s.setN a v).seen = s.seen := rfl
@[simp] theorem State.setN_free (a : Addr) (v : Nat) : (s.setN a v).free = s.free := rfl
@[simp] theorem State.setN_req (a : Addr) (v : Nat) : (s.setN a v).req = s.req := rfl
@[simp] theorem State.setN_chip (a : Addr) (v : Nat) : (s.setN a v).chip = s.chip := rfl
@[simp] theorem State.setN_loops (a : Addr) (v : Nat) : (s.setN a v).loops = s.loops := rfl
@[simp] theorem State.setN_cells (a : Addr) (v : Nat) : (s.setN a v).cells = s.cells := rfl
@[simp] theorem State.setN_blocks (a : Addr) (v : Nat) : (s.setN a v).blocks = s.blocks := rfl
@[simp] theorem State.setN_regions (a : Addr) (v : Nat) : (s.setN a v).regions = s.regions := rfl
@[simp] theorem State.setN_tree (a : Addr) (v : Nat) : (s.setN a v).tree = s.tree := rfl
@[simp] theorem State.setN_fb (a : Addr) (v : Nat) : (s.setN a v).fb = s.fb := rfl
@[simp] theorem State.setN_shape (a : Addr) (v : Nat) : (s.setN a v).shape = s.shape := rfl
@[simp] theorem State.setN_aml (a : Addr) (v : Nat) : (s.setN a v).aml = s.aml := rfl
@[simp] theorem State.setN_twin (a : Addr) (v : Nat) : (s.setN a v).twin = s.twin := rfl
@[simp] theorem State.setN_tw (a : Addr) (v : Nat) : (s.setN a v).tw = s.tw := rfl
@[simp] theorem State.setN_can (a : Addr) (v : Nat) : (s.setN a v).can = s.can := rfl
@[simp] theorem State.setN_sp (a : Addr) (v : Nat) : (s.setN a v).sp = s.sp := rfl
@[simp] theorem State.setN_rings (a : Addr) (v : Nat) : (s.setN a v).rings = s.rings := rfl
@[simp] theorem State.setN_traces (a : Addr) (v : Nat) : (s.setN a v).traces = s.traces := rfl
@[simp] theorem State.setN_pending (a : Addr) (v : Nat) : (s.setN a v).pending = s.pending := rfl

/-! ### setF -/

@[simp] theorem State.setF_uptime (a : Addr) (v : Bool) : (s.setF a v).uptime = s.uptime := rfl
@[simp] theorem State.setF_wall (a : Addr) (v : Bool) : (s.setF a v).wall = s.wall := rfl
@[simp] theorem State.setF_blobs (a : Addr) (v : Bool) : (s.setF a v).blobs = s.blobs := rfl
@[simp] theorem State.setF_inputs (a : Addr) (v : Bool) : (s.setF a v).inputs = s.inputs := rfl
@[simp] theorem State.setF_seen (a : Addr) (v : Bool) : (s.setF a v).seen = s.seen := rfl
@[simp] theorem State.setF_free (a : Addr) (v : Bool) : (s.setF a v).free = s.free := rfl
@[simp] theorem State.setF_req (a : Addr) (v : Bool) : (s.setF a v).req = s.req := rfl
@[simp] theorem State.setF_chip (a : Addr) (v : Bool) : (s.setF a v).chip = s.chip := rfl
@[simp] theorem State.setF_loops (a : Addr) (v : Bool) : (s.setF a v).loops = s.loops := rfl
@[simp] theorem State.setF_cells (a : Addr) (v : Bool) : (s.setF a v).cells = s.cells := rfl
@[simp] theorem State.setF_blocks (a : Addr) (v : Bool) : (s.setF a v).blocks = s.blocks := rfl
@[simp] theorem State.setF_regions (a : Addr) (v : Bool) : (s.setF a v).regions = s.regions := rfl
@[simp] theorem State.setF_tree (a : Addr) (v : Bool) : (s.setF a v).tree = s.tree := rfl
@[simp] theorem State.setF_fb (a : Addr) (v : Bool) : (s.setF a v).fb = s.fb := rfl
@[simp] theorem State.setF_shape (a : Addr) (v : Bool) : (s.setF a v).shape = s.shape := rfl
@[simp] theorem State.setF_aml (a : Addr) (v : Bool) : (s.setF a v).aml = s.aml := rfl
@[simp] theorem State.setF_twin (a : Addr) (v : Bool) : (s.setF a v).twin = s.twin := rfl
@[simp] theorem State.setF_tw (a : Addr) (v : Bool) : (s.setF a v).tw = s.tw := rfl
@[simp] theorem State.setF_can (a : Addr) (v : Bool) : (s.setF a v).can = s.can := rfl
@[simp] theorem State.setF_sp (a : Addr) (v : Bool) : (s.setF a v).sp = s.sp := rfl
@[simp] theorem State.setF_rings (a : Addr) (v : Bool) : (s.setF a v).rings = s.rings := rfl
@[simp] theorem State.setF_traces (a : Addr) (v : Bool) : (s.setF a v).traces = s.traces := rfl
@[simp] theorem State.setF_pending (a : Addr) (v : Bool) : (s.setF a v).pending = s.pending := rfl

/-! ### setBitAt -/

@[simp] theorem State.setBitAt_uptime (a : Addr) (b : Nat) (v : Bool) : (s.setBitAt a b v).uptime = s.uptime := rfl
@[simp] theorem State.setBitAt_wall (a : Addr) (b : Nat) (v : Bool) : (s.setBitAt a b v).wall = s.wall := rfl
@[simp] theorem State.setBitAt_blobs (a : Addr) (b : Nat) (v : Bool) : (s.setBitAt a b v).blobs = s.blobs := rfl
@[simp] theorem State.setBitAt_inputs (a : Addr) (b : Nat) (v : Bool) : (s.setBitAt a b v).inputs = s.inputs := rfl
@[simp] theorem State.setBitAt_seen (a : Addr) (b : Nat) (v : Bool) : (s.setBitAt a b v).seen = s.seen := rfl
@[simp] theorem State.setBitAt_free (a : Addr) (b : Nat) (v : Bool) : (s.setBitAt a b v).free = s.free := rfl
@[simp] theorem State.setBitAt_req (a : Addr) (b : Nat) (v : Bool) : (s.setBitAt a b v).req = s.req := rfl
@[simp] theorem State.setBitAt_chip (a : Addr) (b : Nat) (v : Bool) : (s.setBitAt a b v).chip = s.chip := rfl
@[simp] theorem State.setBitAt_loops (a : Addr) (b : Nat) (v : Bool) : (s.setBitAt a b v).loops = s.loops := rfl
@[simp] theorem State.setBitAt_cells (a : Addr) (b : Nat) (v : Bool) : (s.setBitAt a b v).cells = s.cells := rfl
@[simp] theorem State.setBitAt_blocks (a : Addr) (b : Nat) (v : Bool) : (s.setBitAt a b v).blocks = s.blocks := rfl
@[simp] theorem State.setBitAt_regions (a : Addr) (b : Nat) (v : Bool) : (s.setBitAt a b v).regions = s.regions := rfl
@[simp] theorem State.setBitAt_tree (a : Addr) (b : Nat) (v : Bool) : (s.setBitAt a b v).tree = s.tree := rfl
@[simp] theorem State.setBitAt_fb (a : Addr) (b : Nat) (v : Bool) : (s.setBitAt a b v).fb = s.fb := rfl
@[simp] theorem State.setBitAt_shape (a : Addr) (b : Nat) (v : Bool) : (s.setBitAt a b v).shape = s.shape := rfl
@[simp] theorem State.setBitAt_aml (a : Addr) (b : Nat) (v : Bool) : (s.setBitAt a b v).aml = s.aml := rfl
@[simp] theorem State.setBitAt_twin (a : Addr) (b : Nat) (v : Bool) : (s.setBitAt a b v).twin = s.twin := rfl
@[simp] theorem State.setBitAt_tw (a : Addr) (b : Nat) (v : Bool) : (s.setBitAt a b v).tw = s.tw := rfl
@[simp] theorem State.setBitAt_can (a : Addr) (b : Nat) (v : Bool) : (s.setBitAt a b v).can = s.can := rfl
@[simp] theorem State.setBitAt_sp (a : Addr) (b : Nat) (v : Bool) : (s.setBitAt a b v).sp = s.sp := rfl
@[simp] theorem State.setBitAt_rings (a : Addr) (b : Nat) (v : Bool) : (s.setBitAt a b v).rings = s.rings := rfl
@[simp] theorem State.setBitAt_traces (a : Addr) (b : Nat) (v : Bool) : (s.setBitAt a b v).traces = s.traces := rfl
@[simp] theorem State.setBitAt_pending (a : Addr) (b : Nat) (v : Bool) : (s.setBitAt a b v).pending = s.pending := rfl

/-! ### bump -/

@[simp] theorem State.bump_uptime (a : Addr) : (s.bump a).uptime = s.uptime := rfl
@[simp] theorem State.bump_wall (a : Addr) : (s.bump a).wall = s.wall := rfl
@[simp] theorem State.bump_blobs (a : Addr) : (s.bump a).blobs = s.blobs := rfl
@[simp] theorem State.bump_inputs (a : Addr) : (s.bump a).inputs = s.inputs := rfl
@[simp] theorem State.bump_seen (a : Addr) : (s.bump a).seen = s.seen := rfl
@[simp] theorem State.bump_free (a : Addr) : (s.bump a).free = s.free := rfl
@[simp] theorem State.bump_req (a : Addr) : (s.bump a).req = s.req := rfl
@[simp] theorem State.bump_chip (a : Addr) : (s.bump a).chip = s.chip := rfl
@[simp] theorem State.bump_loops (a : Addr) : (s.bump a).loops = s.loops := rfl
@[simp] theorem State.bump_cells (a : Addr) : (s.bump a).cells = s.cells := rfl
@[simp] theorem State.bump_blocks (a : Addr) : (s.bump a).blocks = s.blocks := rfl
@[simp] theorem State.bump_regions (a : Addr) : (s.bump a).regions = s.regions := rfl
@[simp] theorem State.bump_tree (a : Addr) : (s.bump a).tree = s.tree := rfl
@[simp] theorem State.bump_fb (a : Addr) : (s.bump a).fb = s.fb := rfl
@[simp] theorem State.bump_shape (a : Addr) : (s.bump a).shape = s.shape := rfl
@[simp] theorem State.bump_aml (a : Addr) : (s.bump a).aml = s.aml := rfl
@[simp] theorem State.bump_twin (a : Addr) : (s.bump a).twin = s.twin := rfl
@[simp] theorem State.bump_tw (a : Addr) : (s.bump a).tw = s.tw := rfl
@[simp] theorem State.bump_can (a : Addr) : (s.bump a).can = s.can := rfl
@[simp] theorem State.bump_sp (a : Addr) : (s.bump a).sp = s.sp := rfl
@[simp] theorem State.bump_rings (a : Addr) : (s.bump a).rings = s.rings := rfl
@[simp] theorem State.bump_traces (a : Addr) : (s.bump a).traces = s.traces := rfl
@[simp] theorem State.bump_pending (a : Addr) : (s.bump a).pending = s.pending := rfl

/-! ### bumpBy -/

@[simp] theorem State.bumpBy_uptime (a : Addr) (n : Nat) : (s.bumpBy a n).uptime = s.uptime := rfl
@[simp] theorem State.bumpBy_wall (a : Addr) (n : Nat) : (s.bumpBy a n).wall = s.wall := rfl
@[simp] theorem State.bumpBy_blobs (a : Addr) (n : Nat) : (s.bumpBy a n).blobs = s.blobs := rfl
@[simp] theorem State.bumpBy_inputs (a : Addr) (n : Nat) : (s.bumpBy a n).inputs = s.inputs := rfl
@[simp] theorem State.bumpBy_seen (a : Addr) (n : Nat) : (s.bumpBy a n).seen = s.seen := rfl
@[simp] theorem State.bumpBy_free (a : Addr) (n : Nat) : (s.bumpBy a n).free = s.free := rfl
@[simp] theorem State.bumpBy_req (a : Addr) (n : Nat) : (s.bumpBy a n).req = s.req := rfl
@[simp] theorem State.bumpBy_chip (a : Addr) (n : Nat) : (s.bumpBy a n).chip = s.chip := rfl
@[simp] theorem State.bumpBy_loops (a : Addr) (n : Nat) : (s.bumpBy a n).loops = s.loops := rfl
@[simp] theorem State.bumpBy_cells (a : Addr) (n : Nat) : (s.bumpBy a n).cells = s.cells := rfl
@[simp] theorem State.bumpBy_blocks (a : Addr) (n : Nat) : (s.bumpBy a n).blocks = s.blocks := rfl
@[simp] theorem State.bumpBy_regions (a : Addr) (n : Nat) : (s.bumpBy a n).regions = s.regions := rfl
@[simp] theorem State.bumpBy_tree (a : Addr) (n : Nat) : (s.bumpBy a n).tree = s.tree := rfl
@[simp] theorem State.bumpBy_fb (a : Addr) (n : Nat) : (s.bumpBy a n).fb = s.fb := rfl
@[simp] theorem State.bumpBy_shape (a : Addr) (n : Nat) : (s.bumpBy a n).shape = s.shape := rfl
@[simp] theorem State.bumpBy_aml (a : Addr) (n : Nat) : (s.bumpBy a n).aml = s.aml := rfl
@[simp] theorem State.bumpBy_twin (a : Addr) (n : Nat) : (s.bumpBy a n).twin = s.twin := rfl
@[simp] theorem State.bumpBy_tw (a : Addr) (n : Nat) : (s.bumpBy a n).tw = s.tw := rfl
@[simp] theorem State.bumpBy_can (a : Addr) (n : Nat) : (s.bumpBy a n).can = s.can := rfl
@[simp] theorem State.bumpBy_sp (a : Addr) (n : Nat) : (s.bumpBy a n).sp = s.sp := rfl
@[simp] theorem State.bumpBy_rings (a : Addr) (n : Nat) : (s.bumpBy a n).rings = s.rings := rfl
@[simp] theorem State.bumpBy_traces (a : Addr) (n : Nat) : (s.bumpBy a n).traces = s.traces := rfl
@[simp] theorem State.bumpBy_pending (a : Addr) (n : Nat) : (s.bumpBy a n).pending = s.pending := rfl

/-! ### bump64 -/

@[simp] theorem State.bump64_uptime (a : Addr) (n : Nat) : (s.bump64 a n).uptime = s.uptime := rfl
@[simp] theorem State.bump64_wall (a : Addr) (n : Nat) : (s.bump64 a n).wall = s.wall := rfl
@[simp] theorem State.bump64_blobs (a : Addr) (n : Nat) : (s.bump64 a n).blobs = s.blobs := rfl
@[simp] theorem State.bump64_inputs (a : Addr) (n : Nat) : (s.bump64 a n).inputs = s.inputs := rfl
@[simp] theorem State.bump64_seen (a : Addr) (n : Nat) : (s.bump64 a n).seen = s.seen := rfl
@[simp] theorem State.bump64_free (a : Addr) (n : Nat) : (s.bump64 a n).free = s.free := rfl
@[simp] theorem State.bump64_req (a : Addr) (n : Nat) : (s.bump64 a n).req = s.req := rfl
@[simp] theorem State.bump64_chip (a : Addr) (n : Nat) : (s.bump64 a n).chip = s.chip := rfl
@[simp] theorem State.bump64_loops (a : Addr) (n : Nat) : (s.bump64 a n).loops = s.loops := rfl
@[simp] theorem State.bump64_cells (a : Addr) (n : Nat) : (s.bump64 a n).cells = s.cells := rfl
@[simp] theorem State.bump64_blocks (a : Addr) (n : Nat) : (s.bump64 a n).blocks = s.blocks := rfl
@[simp] theorem State.bump64_regions (a : Addr) (n : Nat) : (s.bump64 a n).regions = s.regions := rfl
@[simp] theorem State.bump64_tree (a : Addr) (n : Nat) : (s.bump64 a n).tree = s.tree := rfl
@[simp] theorem State.bump64_fb (a : Addr) (n : Nat) : (s.bump64 a n).fb = s.fb := rfl
@[simp] theorem State.bump64_shape (a : Addr) (n : Nat) : (s.bump64 a n).shape = s.shape := rfl
@[simp] theorem State.bump64_aml (a : Addr) (n : Nat) : (s.bump64 a n).aml = s.aml := rfl
@[simp] theorem State.bump64_twin (a : Addr) (n : Nat) : (s.bump64 a n).twin = s.twin := rfl
@[simp] theorem State.bump64_tw (a : Addr) (n : Nat) : (s.bump64 a n).tw = s.tw := rfl
@[simp] theorem State.bump64_can (a : Addr) (n : Nat) : (s.bump64 a n).can = s.can := rfl
@[simp] theorem State.bump64_sp (a : Addr) (n : Nat) : (s.bump64 a n).sp = s.sp := rfl
@[simp] theorem State.bump64_rings (a : Addr) (n : Nat) : (s.bump64 a n).rings = s.rings := rfl
@[simp] theorem State.bump64_traces (a : Addr) (n : Nat) : (s.bump64 a n).traces = s.traces := rfl
@[simp] theorem State.bump64_pending (a : Addr) (n : Nat) : (s.bump64 a n).pending = s.pending := rfl

/-! ### modLoop -/

@[simp] theorem State.modLoop_uptime (k : LoopId) (f : Loop → Loop) : (s.modLoop k f).uptime = s.uptime := rfl
@[simp] theorem State.modLoop_wall (k : LoopId) (f : Loop → Loop) : (s.modLoop k f).wall = s.wall := rfl
@[simp] theorem State.modLoop_dict (k : LoopId) (f : Loop → Loop) : (s.modLoop k f).dict = s.dict := rfl
@[simp] theorem State.modLoop_blobs (k : LoopId) (f : Loop → Loop) : (s.modLoop k f).blobs = s.blobs := rfl
@[simp] theorem State.modLoop_inputs (k : LoopId) (f : Loop → Loop) : (s.modLoop k f).inputs = s.inputs := rfl
@[simp] theorem State.modLoop_seen (k : LoopId) (f : Loop → Loop) : (s.modLoop k f).seen = s.seen := rfl
@[simp] theorem State.modLoop_free (k : LoopId) (f : Loop → Loop) : (s.modLoop k f).free = s.free := rfl
@[simp] theorem State.modLoop_req (k : LoopId) (f : Loop → Loop) : (s.modLoop k f).req = s.req := rfl
@[simp] theorem State.modLoop_plate (k : LoopId) (f : Loop → Loop) : (s.modLoop k f).plate = s.plate := rfl
@[simp] theorem State.modLoop_chip (k : LoopId) (f : Loop → Loop) : (s.modLoop k f).chip = s.chip := rfl
@[simp] theorem State.modLoop_cells (k : LoopId) (f : Loop → Loop) : (s.modLoop k f).cells = s.cells := rfl
@[simp] theorem State.modLoop_blocks (k : LoopId) (f : Loop → Loop) : (s.modLoop k f).blocks = s.blocks := rfl
@[simp] theorem State.modLoop_regions (k : LoopId) (f : Loop → Loop) : (s.modLoop k f).regions = s.regions := rfl
@[simp] theorem State.modLoop_tree (k : LoopId) (f : Loop → Loop) : (s.modLoop k f).tree = s.tree := rfl
@[simp] theorem State.modLoop_fb (k : LoopId) (f : Loop → Loop) : (s.modLoop k f).fb = s.fb := rfl
@[simp] theorem State.modLoop_shape (k : LoopId) (f : Loop → Loop) : (s.modLoop k f).shape = s.shape := rfl
@[simp] theorem State.modLoop_aml (k : LoopId) (f : Loop → Loop) : (s.modLoop k f).aml = s.aml := rfl
@[simp] theorem State.modLoop_twin (k : LoopId) (f : Loop → Loop) : (s.modLoop k f).twin = s.twin := rfl
@[simp] theorem State.modLoop_tw (k : LoopId) (f : Loop → Loop) : (s.modLoop k f).tw = s.tw := rfl
@[simp] theorem State.modLoop_can (k : LoopId) (f : Loop → Loop) : (s.modLoop k f).can = s.can := rfl
@[simp] theorem State.modLoop_sp (k : LoopId) (f : Loop → Loop) : (s.modLoop k f).sp = s.sp := rfl
@[simp] theorem State.modLoop_rings (k : LoopId) (f : Loop → Loop) : (s.modLoop k f).rings = s.rings := rfl
@[simp] theorem State.modLoop_traces (k : LoopId) (f : Loop → Loop) : (s.modLoop k f).traces = s.traces := rfl
@[simp] theorem State.modLoop_pending (k : LoopId) (f : Loop → Loop) : (s.modLoop k f).pending = s.pending := rfl

/-! ### modCell -/

@[simp] theorem State.modCell_uptime (k : CellId) (f : Cell → Cell) : (s.modCell k f).uptime = s.uptime := rfl
@[simp] theorem State.modCell_wall (k : CellId) (f : Cell → Cell) : (s.modCell k f).wall = s.wall := rfl
@[simp] theorem State.modCell_dict (k : CellId) (f : Cell → Cell) : (s.modCell k f).dict = s.dict := rfl
@[simp] theorem State.modCell_blobs (k : CellId) (f : Cell → Cell) : (s.modCell k f).blobs = s.blobs := rfl
@[simp] theorem State.modCell_inputs (k : CellId) (f : Cell → Cell) : (s.modCell k f).inputs = s.inputs := rfl
@[simp] theorem State.modCell_seen (k : CellId) (f : Cell → Cell) : (s.modCell k f).seen = s.seen := rfl
@[simp] theorem State.modCell_free (k : CellId) (f : Cell → Cell) : (s.modCell k f).free = s.free := rfl
@[simp] theorem State.modCell_req (k : CellId) (f : Cell → Cell) : (s.modCell k f).req = s.req := rfl
@[simp] theorem State.modCell_plate (k : CellId) (f : Cell → Cell) : (s.modCell k f).plate = s.plate := rfl
@[simp] theorem State.modCell_chip (k : CellId) (f : Cell → Cell) : (s.modCell k f).chip = s.chip := rfl
@[simp] theorem State.modCell_loops (k : CellId) (f : Cell → Cell) : (s.modCell k f).loops = s.loops := rfl
@[simp] theorem State.modCell_blocks (k : CellId) (f : Cell → Cell) : (s.modCell k f).blocks = s.blocks := rfl
@[simp] theorem State.modCell_regions (k : CellId) (f : Cell → Cell) : (s.modCell k f).regions = s.regions := rfl
@[simp] theorem State.modCell_tree (k : CellId) (f : Cell → Cell) : (s.modCell k f).tree = s.tree := rfl
@[simp] theorem State.modCell_fb (k : CellId) (f : Cell → Cell) : (s.modCell k f).fb = s.fb := rfl
@[simp] theorem State.modCell_shape (k : CellId) (f : Cell → Cell) : (s.modCell k f).shape = s.shape := rfl
@[simp] theorem State.modCell_aml (k : CellId) (f : Cell → Cell) : (s.modCell k f).aml = s.aml := rfl
@[simp] theorem State.modCell_twin (k : CellId) (f : Cell → Cell) : (s.modCell k f).twin = s.twin := rfl
@[simp] theorem State.modCell_tw (k : CellId) (f : Cell → Cell) : (s.modCell k f).tw = s.tw := rfl
@[simp] theorem State.modCell_can (k : CellId) (f : Cell → Cell) : (s.modCell k f).can = s.can := rfl
@[simp] theorem State.modCell_sp (k : CellId) (f : Cell → Cell) : (s.modCell k f).sp = s.sp := rfl
@[simp] theorem State.modCell_rings (k : CellId) (f : Cell → Cell) : (s.modCell k f).rings = s.rings := rfl
@[simp] theorem State.modCell_traces (k : CellId) (f : Cell → Cell) : (s.modCell k f).traces = s.traces := rfl
@[simp] theorem State.modCell_pending (k : CellId) (f : Cell → Cell) : (s.modCell k f).pending = s.pending := rfl

/-! ### modBlock -/

@[simp] theorem State.modBlock_uptime (k : BlockId) (f : Block → Block) : (s.modBlock k f).uptime = s.uptime := rfl
@[simp] theorem State.modBlock_wall (k : BlockId) (f : Block → Block) : (s.modBlock k f).wall = s.wall := rfl
@[simp] theorem State.modBlock_dict (k : BlockId) (f : Block → Block) : (s.modBlock k f).dict = s.dict := rfl
@[simp] theorem State.modBlock_blobs (k : BlockId) (f : Block → Block) : (s.modBlock k f).blobs = s.blobs := rfl
@[simp] theorem State.modBlock_inputs (k : BlockId) (f : Block → Block) : (s.modBlock k f).inputs = s.inputs := rfl
@[simp] theorem State.modBlock_seen (k : BlockId) (f : Block → Block) : (s.modBlock k f).seen = s.seen := rfl
@[simp] theorem State.modBlock_free (k : BlockId) (f : Block → Block) : (s.modBlock k f).free = s.free := rfl
@[simp] theorem State.modBlock_req (k : BlockId) (f : Block → Block) : (s.modBlock k f).req = s.req := rfl
@[simp] theorem State.modBlock_plate (k : BlockId) (f : Block → Block) : (s.modBlock k f).plate = s.plate := rfl
@[simp] theorem State.modBlock_chip (k : BlockId) (f : Block → Block) : (s.modBlock k f).chip = s.chip := rfl
@[simp] theorem State.modBlock_loops (k : BlockId) (f : Block → Block) : (s.modBlock k f).loops = s.loops := rfl
@[simp] theorem State.modBlock_cells (k : BlockId) (f : Block → Block) : (s.modBlock k f).cells = s.cells := rfl
@[simp] theorem State.modBlock_regions (k : BlockId) (f : Block → Block) : (s.modBlock k f).regions = s.regions := rfl
@[simp] theorem State.modBlock_tree (k : BlockId) (f : Block → Block) : (s.modBlock k f).tree = s.tree := rfl
@[simp] theorem State.modBlock_fb (k : BlockId) (f : Block → Block) : (s.modBlock k f).fb = s.fb := rfl
@[simp] theorem State.modBlock_shape (k : BlockId) (f : Block → Block) : (s.modBlock k f).shape = s.shape := rfl
@[simp] theorem State.modBlock_aml (k : BlockId) (f : Block → Block) : (s.modBlock k f).aml = s.aml := rfl
@[simp] theorem State.modBlock_twin (k : BlockId) (f : Block → Block) : (s.modBlock k f).twin = s.twin := rfl
@[simp] theorem State.modBlock_tw (k : BlockId) (f : Block → Block) : (s.modBlock k f).tw = s.tw := rfl
@[simp] theorem State.modBlock_can (k : BlockId) (f : Block → Block) : (s.modBlock k f).can = s.can := rfl
@[simp] theorem State.modBlock_sp (k : BlockId) (f : Block → Block) : (s.modBlock k f).sp = s.sp := rfl
@[simp] theorem State.modBlock_rings (k : BlockId) (f : Block → Block) : (s.modBlock k f).rings = s.rings := rfl
@[simp] theorem State.modBlock_traces (k : BlockId) (f : Block → Block) : (s.modBlock k f).traces = s.traces := rfl
@[simp] theorem State.modBlock_pending (k : BlockId) (f : Block → Block) : (s.modBlock k f).pending = s.pending := rfl

/-! ### modRegion -/

@[simp] theorem State.modRegion_uptime (k : RegionId) (f : Region → Region) : (s.modRegion k f).uptime = s.uptime := rfl
@[simp] theorem State.modRegion_wall (k : RegionId) (f : Region → Region) : (s.modRegion k f).wall = s.wall := rfl
@[simp] theorem State.modRegion_dict (k : RegionId) (f : Region → Region) : (s.modRegion k f).dict = s.dict := rfl
@[simp] theorem State.modRegion_blobs (k : RegionId) (f : Region → Region) : (s.modRegion k f).blobs = s.blobs := rfl
@[simp] theorem State.modRegion_inputs (k : RegionId) (f : Region → Region) : (s.modRegion k f).inputs = s.inputs := rfl
@[simp] theorem State.modRegion_seen (k : RegionId) (f : Region → Region) : (s.modRegion k f).seen = s.seen := rfl
@[simp] theorem State.modRegion_free (k : RegionId) (f : Region → Region) : (s.modRegion k f).free = s.free := rfl
@[simp] theorem State.modRegion_req (k : RegionId) (f : Region → Region) : (s.modRegion k f).req = s.req := rfl
@[simp] theorem State.modRegion_plate (k : RegionId) (f : Region → Region) : (s.modRegion k f).plate = s.plate := rfl
@[simp] theorem State.modRegion_chip (k : RegionId) (f : Region → Region) : (s.modRegion k f).chip = s.chip := rfl
@[simp] theorem State.modRegion_loops (k : RegionId) (f : Region → Region) : (s.modRegion k f).loops = s.loops := rfl
@[simp] theorem State.modRegion_cells (k : RegionId) (f : Region → Region) : (s.modRegion k f).cells = s.cells := rfl
@[simp] theorem State.modRegion_blocks (k : RegionId) (f : Region → Region) : (s.modRegion k f).blocks = s.blocks := rfl
@[simp] theorem State.modRegion_tree (k : RegionId) (f : Region → Region) : (s.modRegion k f).tree = s.tree := rfl
@[simp] theorem State.modRegion_fb (k : RegionId) (f : Region → Region) : (s.modRegion k f).fb = s.fb := rfl
@[simp] theorem State.modRegion_shape (k : RegionId) (f : Region → Region) : (s.modRegion k f).shape = s.shape := rfl
@[simp] theorem State.modRegion_aml (k : RegionId) (f : Region → Region) : (s.modRegion k f).aml = s.aml := rfl
@[simp] theorem State.modRegion_twin (k : RegionId) (f : Region → Region) : (s.modRegion k f).twin = s.twin := rfl
@[simp] theorem State.modRegion_tw (k : RegionId) (f : Region → Region) : (s.modRegion k f).tw = s.tw := rfl
@[simp] theorem State.modRegion_can (k : RegionId) (f : Region → Region) : (s.modRegion k f).can = s.can := rfl
@[simp] theorem State.modRegion_sp (k : RegionId) (f : Region → Region) : (s.modRegion k f).sp = s.sp := rfl
@[simp] theorem State.modRegion_rings (k : RegionId) (f : Region → Region) : (s.modRegion k f).rings = s.rings := rfl
@[simp] theorem State.modRegion_traces (k : RegionId) (f : Region → Region) : (s.modRegion k f).traces = s.traces := rfl
@[simp] theorem State.modRegion_pending (k : RegionId) (f : Region → Region) : (s.modRegion k f).pending = s.pending := rfl

/-! ### modAml -/

@[simp] theorem State.modAml_uptime (k : PortId) (f : Aml → Aml) : (s.modAml k f).uptime = s.uptime := rfl
@[simp] theorem State.modAml_wall (k : PortId) (f : Aml → Aml) : (s.modAml k f).wall = s.wall := rfl
@[simp] theorem State.modAml_dict (k : PortId) (f : Aml → Aml) : (s.modAml k f).dict = s.dict := rfl
@[simp] theorem State.modAml_blobs (k : PortId) (f : Aml → Aml) : (s.modAml k f).blobs = s.blobs := rfl
@[simp] theorem State.modAml_inputs (k : PortId) (f : Aml → Aml) : (s.modAml k f).inputs = s.inputs := rfl
@[simp] theorem State.modAml_seen (k : PortId) (f : Aml → Aml) : (s.modAml k f).seen = s.seen := rfl
@[simp] theorem State.modAml_free (k : PortId) (f : Aml → Aml) : (s.modAml k f).free = s.free := rfl
@[simp] theorem State.modAml_req (k : PortId) (f : Aml → Aml) : (s.modAml k f).req = s.req := rfl
@[simp] theorem State.modAml_plate (k : PortId) (f : Aml → Aml) : (s.modAml k f).plate = s.plate := rfl
@[simp] theorem State.modAml_chip (k : PortId) (f : Aml → Aml) : (s.modAml k f).chip = s.chip := rfl
@[simp] theorem State.modAml_loops (k : PortId) (f : Aml → Aml) : (s.modAml k f).loops = s.loops := rfl
@[simp] theorem State.modAml_cells (k : PortId) (f : Aml → Aml) : (s.modAml k f).cells = s.cells := rfl
@[simp] theorem State.modAml_blocks (k : PortId) (f : Aml → Aml) : (s.modAml k f).blocks = s.blocks := rfl
@[simp] theorem State.modAml_regions (k : PortId) (f : Aml → Aml) : (s.modAml k f).regions = s.regions := rfl
@[simp] theorem State.modAml_tree (k : PortId) (f : Aml → Aml) : (s.modAml k f).tree = s.tree := rfl
@[simp] theorem State.modAml_fb (k : PortId) (f : Aml → Aml) : (s.modAml k f).fb = s.fb := rfl
@[simp] theorem State.modAml_shape (k : PortId) (f : Aml → Aml) : (s.modAml k f).shape = s.shape := rfl
@[simp] theorem State.modAml_twin (k : PortId) (f : Aml → Aml) : (s.modAml k f).twin = s.twin := rfl
@[simp] theorem State.modAml_tw (k : PortId) (f : Aml → Aml) : (s.modAml k f).tw = s.tw := rfl
@[simp] theorem State.modAml_can (k : PortId) (f : Aml → Aml) : (s.modAml k f).can = s.can := rfl
@[simp] theorem State.modAml_sp (k : PortId) (f : Aml → Aml) : (s.modAml k f).sp = s.sp := rfl
@[simp] theorem State.modAml_rings (k : PortId) (f : Aml → Aml) : (s.modAml k f).rings = s.rings := rfl
@[simp] theorem State.modAml_traces (k : PortId) (f : Aml → Aml) : (s.modAml k f).traces = s.traces := rfl
@[simp] theorem State.modAml_pending (k : PortId) (f : Aml → Aml) : (s.modAml k f).pending = s.pending := rfl

/-! ### modRing -/

@[simp] theorem State.modRing_uptime (k : RingId) (f : Ring → Ring) : (s.modRing k f).uptime = s.uptime := rfl
@[simp] theorem State.modRing_wall (k : RingId) (f : Ring → Ring) : (s.modRing k f).wall = s.wall := rfl
@[simp] theorem State.modRing_dict (k : RingId) (f : Ring → Ring) : (s.modRing k f).dict = s.dict := rfl
@[simp] theorem State.modRing_blobs (k : RingId) (f : Ring → Ring) : (s.modRing k f).blobs = s.blobs := rfl
@[simp] theorem State.modRing_inputs (k : RingId) (f : Ring → Ring) : (s.modRing k f).inputs = s.inputs := rfl
@[simp] theorem State.modRing_seen (k : RingId) (f : Ring → Ring) : (s.modRing k f).seen = s.seen := rfl
@[simp] theorem State.modRing_free (k : RingId) (f : Ring → Ring) : (s.modRing k f).free = s.free := rfl
@[simp] theorem State.modRing_req (k : RingId) (f : Ring → Ring) : (s.modRing k f).req = s.req := rfl
@[simp] theorem State.modRing_plate (k : RingId) (f : Ring → Ring) : (s.modRing k f).plate = s.plate := rfl
@[simp] theorem State.modRing_chip (k : RingId) (f : Ring → Ring) : (s.modRing k f).chip = s.chip := rfl
@[simp] theorem State.modRing_loops (k : RingId) (f : Ring → Ring) : (s.modRing k f).loops = s.loops := rfl
@[simp] theorem State.modRing_cells (k : RingId) (f : Ring → Ring) : (s.modRing k f).cells = s.cells := rfl
@[simp] theorem State.modRing_blocks (k : RingId) (f : Ring → Ring) : (s.modRing k f).blocks = s.blocks := rfl
@[simp] theorem State.modRing_regions (k : RingId) (f : Ring → Ring) : (s.modRing k f).regions = s.regions := rfl
@[simp] theorem State.modRing_tree (k : RingId) (f : Ring → Ring) : (s.modRing k f).tree = s.tree := rfl
@[simp] theorem State.modRing_fb (k : RingId) (f : Ring → Ring) : (s.modRing k f).fb = s.fb := rfl
@[simp] theorem State.modRing_shape (k : RingId) (f : Ring → Ring) : (s.modRing k f).shape = s.shape := rfl
@[simp] theorem State.modRing_aml (k : RingId) (f : Ring → Ring) : (s.modRing k f).aml = s.aml := rfl
@[simp] theorem State.modRing_twin (k : RingId) (f : Ring → Ring) : (s.modRing k f).twin = s.twin := rfl
@[simp] theorem State.modRing_tw (k : RingId) (f : Ring → Ring) : (s.modRing k f).tw = s.tw := rfl
@[simp] theorem State.modRing_can (k : RingId) (f : Ring → Ring) : (s.modRing k f).can = s.can := rfl
@[simp] theorem State.modRing_sp (k : RingId) (f : Ring → Ring) : (s.modRing k f).sp = s.sp := rfl
@[simp] theorem State.modRing_traces (k : RingId) (f : Ring → Ring) : (s.modRing k f).traces = s.traces := rfl
@[simp] theorem State.modRing_pending (k : RingId) (f : Ring → Ring) : (s.modRing k f).pending = s.pending := rfl

/-! ### modTrace -/

@[simp] theorem State.modTrace_uptime (k : RegionId) (f : Trace → Trace) : (s.modTrace k f).uptime = s.uptime := rfl
@[simp] theorem State.modTrace_wall (k : RegionId) (f : Trace → Trace) : (s.modTrace k f).wall = s.wall := rfl
@[simp] theorem State.modTrace_dict (k : RegionId) (f : Trace → Trace) : (s.modTrace k f).dict = s.dict := rfl
@[simp] theorem State.modTrace_blobs (k : RegionId) (f : Trace → Trace) : (s.modTrace k f).blobs = s.blobs := rfl
@[simp] theorem State.modTrace_inputs (k : RegionId) (f : Trace → Trace) : (s.modTrace k f).inputs = s.inputs := rfl
@[simp] theorem State.modTrace_seen (k : RegionId) (f : Trace → Trace) : (s.modTrace k f).seen = s.seen := rfl
@[simp] theorem State.modTrace_free (k : RegionId) (f : Trace → Trace) : (s.modTrace k f).free = s.free := rfl
@[simp] theorem State.modTrace_req (k : RegionId) (f : Trace → Trace) : (s.modTrace k f).req = s.req := rfl
@[simp] theorem State.modTrace_plate (k : RegionId) (f : Trace → Trace) : (s.modTrace k f).plate = s.plate := rfl
@[simp] theorem State.modTrace_chip (k : RegionId) (f : Trace → Trace) : (s.modTrace k f).chip = s.chip := rfl
@[simp] theorem State.modTrace_loops (k : RegionId) (f : Trace → Trace) : (s.modTrace k f).loops = s.loops := rfl
@[simp] theorem State.modTrace_cells (k : RegionId) (f : Trace → Trace) : (s.modTrace k f).cells = s.cells := rfl
@[simp] theorem State.modTrace_blocks (k : RegionId) (f : Trace → Trace) : (s.modTrace k f).blocks = s.blocks := rfl
@[simp] theorem State.modTrace_regions (k : RegionId) (f : Trace → Trace) : (s.modTrace k f).regions = s.regions := rfl
@[simp] theorem State.modTrace_tree (k : RegionId) (f : Trace → Trace) : (s.modTrace k f).tree = s.tree := rfl
@[simp] theorem State.modTrace_fb (k : RegionId) (f : Trace → Trace) : (s.modTrace k f).fb = s.fb := rfl
@[simp] theorem State.modTrace_shape (k : RegionId) (f : Trace → Trace) : (s.modTrace k f).shape = s.shape := rfl
@[simp] theorem State.modTrace_aml (k : RegionId) (f : Trace → Trace) : (s.modTrace k f).aml = s.aml := rfl
@[simp] theorem State.modTrace_twin (k : RegionId) (f : Trace → Trace) : (s.modTrace k f).twin = s.twin := rfl
@[simp] theorem State.modTrace_tw (k : RegionId) (f : Trace → Trace) : (s.modTrace k f).tw = s.tw := rfl
@[simp] theorem State.modTrace_can (k : RegionId) (f : Trace → Trace) : (s.modTrace k f).can = s.can := rfl
@[simp] theorem State.modTrace_sp (k : RegionId) (f : Trace → Trace) : (s.modTrace k f).sp = s.sp := rfl
@[simp] theorem State.modTrace_rings (k : RegionId) (f : Trace → Trace) : (s.modTrace k f).rings = s.rings := rfl
@[simp] theorem State.modTrace_pending (k : RegionId) (f : Trace → Trace) : (s.modTrace k f).pending = s.pending := rfl

/-! ### modReq -/

@[simp] theorem State.modReq_uptime (q : Requester) (f : Req → Req) : (s.modReq q f).uptime = s.uptime := rfl
@[simp] theorem State.modReq_wall (q : Requester) (f : Req → Req) : (s.modReq q f).wall = s.wall := rfl
@[simp] theorem State.modReq_dict (q : Requester) (f : Req → Req) : (s.modReq q f).dict = s.dict := rfl
@[simp] theorem State.modReq_blobs (q : Requester) (f : Req → Req) : (s.modReq q f).blobs = s.blobs := rfl
@[simp] theorem State.modReq_inputs (q : Requester) (f : Req → Req) : (s.modReq q f).inputs = s.inputs := rfl
@[simp] theorem State.modReq_seen (q : Requester) (f : Req → Req) : (s.modReq q f).seen = s.seen := rfl
@[simp] theorem State.modReq_free (q : Requester) (f : Req → Req) : (s.modReq q f).free = s.free := rfl
@[simp] theorem State.modReq_plate (q : Requester) (f : Req → Req) : (s.modReq q f).plate = s.plate := rfl
@[simp] theorem State.modReq_chip (q : Requester) (f : Req → Req) : (s.modReq q f).chip = s.chip := rfl
@[simp] theorem State.modReq_loops (q : Requester) (f : Req → Req) : (s.modReq q f).loops = s.loops := rfl
@[simp] theorem State.modReq_cells (q : Requester) (f : Req → Req) : (s.modReq q f).cells = s.cells := rfl
@[simp] theorem State.modReq_blocks (q : Requester) (f : Req → Req) : (s.modReq q f).blocks = s.blocks := rfl
@[simp] theorem State.modReq_regions (q : Requester) (f : Req → Req) : (s.modReq q f).regions = s.regions := rfl
@[simp] theorem State.modReq_tree (q : Requester) (f : Req → Req) : (s.modReq q f).tree = s.tree := rfl
@[simp] theorem State.modReq_fb (q : Requester) (f : Req → Req) : (s.modReq q f).fb = s.fb := rfl
@[simp] theorem State.modReq_shape (q : Requester) (f : Req → Req) : (s.modReq q f).shape = s.shape := rfl
@[simp] theorem State.modReq_aml (q : Requester) (f : Req → Req) : (s.modReq q f).aml = s.aml := rfl
@[simp] theorem State.modReq_twin (q : Requester) (f : Req → Req) : (s.modReq q f).twin = s.twin := rfl
@[simp] theorem State.modReq_tw (q : Requester) (f : Req → Req) : (s.modReq q f).tw = s.tw := rfl
@[simp] theorem State.modReq_can (q : Requester) (f : Req → Req) : (s.modReq q f).can = s.can := rfl
@[simp] theorem State.modReq_sp (q : Requester) (f : Req → Req) : (s.modReq q f).sp = s.sp := rfl
@[simp] theorem State.modReq_rings (q : Requester) (f : Req → Req) : (s.modReq q f).rings = s.rings := rfl
@[simp] theorem State.modReq_traces (q : Requester) (f : Req → Req) : (s.modReq q f).traces = s.traces := rfl
@[simp] theorem State.modReq_pending (q : Requester) (f : Req → Req) : (s.modReq q f).pending = s.pending := rfl

end Sys2Proof.Machine
end

