-- ==== Sys2Proof/Laws/Store.lean ====
section
/-! SUPPORT. Laws of the sparse stores: read after write, other keys, the rising order, the canonical form of a byte memory. -/

namespace Sys2Proof.Machine

variable {α : Type}

@[simp] theorem lookupAt_nil (k : Nat) : lookupAt ([] : List (Nat × α)) k = none := rfl

@[simp] theorem lookupAt_insertAt_same (d : List (Nat × α)) (k : Nat) (v : α) : lookupAt (insertAt d k v) k = some v := by
  induction d with
  | nil => simp [insertAt, lookupAt]
  | cons e d ih =>
    obtain ⟨j, w⟩ := e
    simp only [insertAt]
    split
    · simp [lookupAt]
    · split
      · simp [lookupAt]
      · simp_all [lookupAt]

@[simp] theorem lookupAt_insertAt_ne (d : List (Nat × α)) {k b : Nat} (v : α) (h : b ≠ k) :
    lookupAt (insertAt d k v) b = lookupAt d b := by
  induction d with
  | nil => simp [insertAt, lookupAt, h.symm]
  | cons e d ih =>
    obtain ⟨j, w⟩ := e
    simp only [insertAt]
    split
    · simp [lookupAt, h.symm]
    · split
      · next _ hj => subst hj; simp [lookupAt, h.symm]
      · simp [lookupAt, ih]

@[simp] theorem lookupAt_eraseAt_same (d : List (Nat × α)) (k : Nat) : lookupAt (eraseAt d k) k = none := by
  induction d with
  | nil => rfl
  | cons e d ih =>
    obtain ⟨j, w⟩ := e
    simp only [eraseAt]
    split
    · exact ih
    · simp_all [lookupAt]

@[simp] theorem lookupAt_eraseAt_ne (d : List (Nat × α)) {k b : Nat} (h : b ≠ k) : lookupAt (eraseAt d k) b = lookupAt d b := by
  induction d with
  | nil => rfl
  | cons e d ih =>
    obtain ⟨j, w⟩ := e
    simp only [eraseAt]
    split
    · next hj => subst hj; simp [lookupAt, h.symm, ih]
    · simp [lookupAt, ih]

/-! ### The rising order -/

theorem risingFrom_le {d : List (Nat × α)} {lo hi : Nat} (h : risingFrom hi d) (hl : lo ≤ hi) : risingFrom lo d := by
  cases d with
  | nil => rfl
  | cons e d =>
    simp only [risingFrom, Bool.and_eq_true, decide_eq_true_eq] at h ⊢
    exact ⟨hl.trans h.1, h.2⟩

theorem rising_insertAt {d : List (Nat × α)} {lo k : Nat} (v : α) (h : risingFrom lo d) (hk : lo ≤ k) :
    risingFrom lo (insertAt d k v) := by
  induction d generalizing lo with
  | nil => simp [insertAt, risingFrom, hk]
  | cons e d ih =>
    obtain ⟨j, w⟩ := e
    simp only [risingFrom, Bool.and_eq_true, decide_eq_true_eq] at h
    simp only [insertAt]
    split
    · simp only [risingFrom, Bool.and_eq_true, decide_eq_true_eq]
      exact ⟨hk, by omega, h.2⟩
    · split
      · next _ hj => subst hj; simp [risingFrom, h]
      · simp only [risingFrom, Bool.and_eq_true, decide_eq_true_eq]
        exact ⟨h.1, ih h.2 (by omega)⟩

theorem rising_eraseAt {d : List (Nat × α)} {lo : Nat} (k : Nat) (h : risingFrom lo d) : risingFrom lo (eraseAt d k) := by
  induction d generalizing lo with
  | nil => rfl
  | cons e d ih =>
    obtain ⟨j, w⟩ := e
    simp only [risingFrom, Bool.and_eq_true, decide_eq_true_eq] at h
    simp only [eraseAt]
    split
    · exact risingFrom_le (ih h.2) (by omega)
    · simp only [risingFrom, Bool.and_eq_true, decide_eq_true_eq]
      exact ⟨h.1, ih h.2⟩

theorem rising_filter {d : List (Nat × α)} {lo : Nat} (p : Nat × α → Bool) (h : risingFrom lo d) :
    risingFrom lo (d.filter p) := by
  induction d generalizing lo with
  | nil => rfl
  | cons e d ih =>
    obtain ⟨j, w⟩ := e
    simp only [risingFrom, Bool.and_eq_true, decide_eq_true_eq] at h
    cases hp : p (j, w)
    · simp only [List.filter_cons, hp]
      exact risingFrom_le (ih h.2) (by omega)
    · simp only [List.filter_cons, hp, if_true, risingFrom, Bool.and_eq_true, decide_eq_true_eq]
      exact ⟨h.1, ih h.2⟩

/-! ### Members -/

/-- Nothing is listed below the first address of a rising list. -/
theorem lookupAt_below {d : List (Nat × α)} {lo k : Nat} (h : risingFrom lo d) (hk : k < lo) : lookupAt d k = none := by
  induction d generalizing lo with
  | nil => rfl
  | cons e d ih =>
    obtain ⟨j, v⟩ := e
    simp only [risingFrom, Bool.and_eq_true, decide_eq_true_eq] at h
    have : j ≠ k := by omega
    simp only [lookupAt, if_neg this]
    exact ih h.2 (by omega)

/-- What a filter by address leaves at an address. -/
theorem lookupAt_filter (d : List (Nat × α)) (p : Nat → Bool) (k : Nat) :
    lookupAt (d.filter fun e => p e.1) k = if p k then lookupAt d k else none := by
  induction d with
  | nil => simp
  | cons e d ih =>
    obtain ⟨j, v⟩ := e
    by_cases hj : j = k
    · subst hj
      by_cases hp : p j <;> simp_all [lookupAt]
    · by_cases hp : p j <;> simp [lookupAt, hj, hp, ih]

theorem mem_insertAt {d : List (Nat × α)} {k : Nat} {v : α} {e : Nat × α} (h : e ∈ insertAt d k v) : e = (k, v) ∨ e ∈ d := by
  induction d with
  | nil => simpa [insertAt] using h
  | cons c d ih =>
    obtain ⟨j, w⟩ := c
    simp only [insertAt] at h
    split at h
    · simpa using h
    · split at h
      · simp only [List.mem_cons] at h ⊢; tauto
      · simp only [List.mem_cons] at h ⊢
        rcases h with h | h
        · tauto
        · have := ih h; tauto

theorem mem_eraseAt {d : List (Nat × α)} {k : Nat} {e : Nat × α} (h : e ∈ eraseAt d k) : e ∈ d := by
  induction d with
  | nil => exact h
  | cons c d ih =>
    obtain ⟨j, w⟩ := c
    simp only [eraseAt] at h
    split at h
    · exact List.mem_cons_of_mem _ (ih h)
    · simp only [List.mem_cons] at h ⊢
      exact h.imp id ih

/-! ### Byte memories -/

theorem memWf_putByte {m : List (Nat × Byte)} (a : Nat) (b : Byte) (h : memWf m) : memWf (putByte m a b) := by
  simp only [memWf, Bool.and_eq_true, List.all_eq_true, bne_iff_ne] at h ⊢
  obtain ⟨hr, hm⟩ := h
  unfold putByte
  split
  · exact ⟨rising_eraseAt a hr, fun e he => hm e (mem_eraseAt he)⟩
  · next hb =>
    refine ⟨rising_insertAt b hr (Nat.zero_le a), fun e he => ?_⟩
    rcases mem_insertAt he with rfl | h'
    · exact hb
    · exact hm e h'

theorem memWf_putBytes {m : List (Nat × Byte)} (a : Nat) (bs : List Byte) (h : memWf m) : memWf (putBytes m a bs) := by
  induction bs generalizing m a with
  | nil => exact h
  | cons b bs ih => exact ih (a + 1) (memWf_putByte a b h)

theorem memWf_filter {m : List (Nat × Byte)} (p : Nat × Byte → Bool) (h : memWf m) : memWf (m.filter p) := by
  simp only [memWf, Bool.and_eq_true, List.all_eq_true] at h ⊢
  exact ⟨rising_filter p h.1, fun e he => h.2 e (List.mem_of_mem_filter he)⟩

theorem memWf_foldl_putByte {m : List (Nat × Byte)} (l : List (Nat × Byte)) (h : memWf m) :
    memWf (l.foldl (fun m e => putByte m e.1 e.2) m) := by
  induction l generalizing m with
  | nil => exact h
  | cons e l ih => exact ih (memWf_putByte e.1 e.2 h)

@[simp] theorem byteAt_putByte_same (m : List (Nat × Byte)) (a : Nat) (b : Byte) : byteAt (putByte m a b) a = b := by
  unfold putByte byteAt
  split
  · next h => simp [h]
  · simp

@[simp] theorem byteAt_putByte_ne (m : List (Nat × Byte)) {a c : Nat} (b : Byte) (h : c ≠ a) :
    byteAt (putByte m a b) c = byteAt m c := by
  unfold putByte byteAt
  split <;> simp [h]

end Sys2Proof.Machine
end

