-- ==== Sys2Proof/Laws/Ops.lean ====
section
/-! SUPPORT. Laws of the dictionary values: read after write, other objects, and the canonical form of the store. -/

namespace Sys2Proof.Machine

@[simp] theorem dval_dput_same (d : List (Nat × Int)) (a : Addr) (v : Int) : dval (dput d a v) a = v := by
  unfold dval dput
  split
  · next h => simp [h]
  · simp

@[simp] theorem dval_dput_ne (d : List (Nat × Int)) {a b : Addr} (v : Int) (h : b ≠ a) : dval (dput d a v) b = dval d b := by
  unfold dval dput
  split <;> simp [h]

theorem dictWf_dput {d : List (Nat × Int)} (a : Addr) (v : Int) (h : dictWf d) : dictWf (dput d a v) := by
  simp only [dictWf, Bool.and_eq_true, List.all_eq_true, decide_eq_true_eq] at h ⊢
  obtain ⟨hr, hm⟩ := h
  unfold dput
  split
  · exact ⟨rising_eraseAt a hr, fun e he => hm e (mem_eraseAt he)⟩
  · next hv =>
    refine ⟨rising_insertAt v hr (Nat.zero_le a), fun e he => ?_⟩
    rcases mem_insertAt he with rfl | h'
    · exact hv
    · exact hm e h'

theorem dictWf_filter {d : List (Nat × Int)} (p : Nat × Int → Bool) (h : dictWf d) : dictWf (d.filter p) := by
  simp only [dictWf, Bool.and_eq_true, List.all_eq_true, decide_eq_true_eq] at h ⊢
  exact ⟨rising_filter p h.1, fun e he => h.2 e (List.mem_of_mem_filter he)⟩

theorem dval_filter (d : List (Nat × Int)) (p : Nat → Bool) (a : Addr) :
    dval (d.filter fun e => p e.1) a = if p a then dval d a else dflt a := by
  unfold dval
  rw [lookupAt_filter]
  split <;> rfl

/-- An image of objects laid over others: the object's value of the image where it lists one. -/
theorem dval_foldl_dput {l : List (Nat × Int)} {lo : Nat} (h : risingFrom lo l) (d : List (Nat × Int)) (a : Addr) :
    dval (l.foldl (fun d e => dput d e.1 e.2) d) a = match lookupAt l a with | some v => v | none => dval d a := by
  induction l generalizing d lo with
  | nil => rfl
  | cons e l ih =>
    obtain ⟨j, v⟩ := e
    simp only [risingFrom, Bool.and_eq_true, decide_eq_true_eq] at h
    simp only [List.foldl_cons]
    rw [ih h.2]
    by_cases hj : j = a
    · subst hj
      have : lookupAt l j = none := lookupAt_below h.2 (Nat.lt_succ_self j)
      simp [lookupAt, this]
    · have hd : dval (dput d j v) a = dval d a := dval_dput_ne d v (Ne.symm hj)
      simp [lookupAt, hj, hd]

theorem dictWf_foldl_dput {d : List (Nat × Int)} (l : List (Nat × Int)) (h : dictWf d) :
    dictWf (l.foldl (fun d e => dput d e.1 e.2) d) := by
  induction l generalizing d with
  | nil => exact h
  | cons e l ih => exact ih (dictWf_dput e.1 e.2 h)

section
variable (s : State)

@[simp] theorem State.get_set_same (a : Addr) (v : Int) : (s.set a v).get a = v := dval_dput_same _ _ _
@[simp] theorem State.get_set_ne {a b : Addr} (v : Int) (h : b ≠ a) : (s.set a v).get b = s.get b := dval_dput_ne _ _ h
@[simp] theorem State.getN_setN_same (a : Addr) (v : Nat) : (s.setN a v).getN a = v := by simp [State.getN, State.setN]
@[simp] theorem State.get_setN_same (a : Addr) (v : Nat) : (s.setN a v).get a = v := by simp [State.setN]
@[simp] theorem State.get_setN_ne {a b : Addr} (v : Nat) (h : b ≠ a) : (s.setN a v).get b = s.get b := State.get_set_ne s _ h
@[simp] theorem State.getN_setN_ne {a b : Addr} (v : Nat) (h : b ≠ a) : (s.setN a v).getN b = s.getN b := by
  simp [State.getN, h]
@[simp] theorem State.get_setF_same (a : Addr) (v : Bool) : (s.setF a v).get a = if v then 1 else 0 := by simp [State.setF]
@[simp] theorem State.get_setF_ne {a b : Addr} (v : Bool) (h : b ≠ a) : (s.setF a v).get b = s.get b := State.get_set_ne s _ h
@[simp] theorem State.get_setBitAt_ne {a b : Addr} (i : Nat) (v : Bool) (h : b ≠ a) : (s.setBitAt a i v).get b = s.get b :=
  State.get_setN_ne s _ h
@[simp] theorem State.getN_setBitAt_same (a : Addr) (i : Nat) (v : Bool) : (s.setBitAt a i v).getN a = putBit (s.getN a) i v :=
  State.getN_setN_same s _ _
@[simp] theorem State.get_bump_ne {a b : Addr} (h : b ≠ a) : (s.bump a).get b = s.get b := State.get_setN_ne s _ h
@[simp] theorem State.getN_bump_same (a : Addr) : (s.bump a).getN a = wrapAdd 32 (s.getN a) 1 := State.getN_setN_same s _ _
@[simp] theorem State.get_bumpBy_ne {a b : Addr} (n : Nat) (h : b ≠ a) : (s.bumpBy a n).get b = s.get b := State.get_setN_ne s _ h
@[simp] theorem State.getN_bumpBy_same (a : Addr) (n : Nat) : (s.bumpBy a n).getN a = wrapAdd 32 (s.getN a) n :=
  State.getN_setN_same s _ _
@[simp] theorem State.get_bump64_ne {a b : Addr} (n : Nat) (h : b ≠ a) : (s.bump64 a n).get b = s.get b := State.get_setN_ne s _ h

@[simp] theorem State.get_modLoop (k : LoopId) (f : Loop → Loop) (a : Addr) : (s.modLoop k f).get a = s.get a := rfl
@[simp] theorem State.get_modCell (k : CellId) (f : Cell → Cell) (a : Addr) : (s.modCell k f).get a = s.get a := rfl
@[simp] theorem State.get_modBlock (k : BlockId) (f : Block → Block) (a : Addr) : (s.modBlock k f).get a = s.get a := rfl
@[simp] theorem State.get_modRegion (k : RegionId) (f : Region → Region) (a : Addr) : (s.modRegion k f).get a = s.get a := rfl
@[simp] theorem State.get_modAml (k : PortId) (f : Aml → Aml) (a : Addr) : (s.modAml k f).get a = s.get a := rfl
@[simp] theorem State.get_modRing (k : RingId) (f : Ring → Ring) (a : Addr) : (s.modRing k f).get a = s.get a := rfl
@[simp] theorem State.get_modTrace (k : RegionId) (f : Trace → Trace) (a : Addr) : (s.modTrace k f).get a = s.get a := rfl
@[simp] theorem State.get_modReq (q : Requester) (f : Req → Req) (a : Addr) : (s.modReq q f).get a = s.get a := rfl

@[simp] theorem State.modLoop_same (k : LoopId) (f : Loop → Loop) : (s.modLoop k f).loops[k.val] = f s.loops[k.val] := by
  simp [State.modLoop]
@[simp] theorem State.modLoop_ne {k j : LoopId} (f : Loop → Loop) (h : j ≠ k) : (s.modLoop k f).loops[j.val] = s.loops[j.val] := by
  have : k.val ≠ j.val := fun e => h (Fin.ext e.symm)
  simp [State.modLoop, this]
@[simp] theorem State.modCell_same (k : CellId) (f : Cell → Cell) : (s.modCell k f).cells[k.val] = f s.cells[k.val] := by
  simp [State.modCell]
@[simp] theorem State.modCell_ne {k j : CellId} (f : Cell → Cell) (h : j ≠ k) : (s.modCell k f).cells[j.val] = s.cells[j.val] := by
  have : k.val ≠ j.val := fun e => h (Fin.ext e.symm)
  simp [State.modCell, this]
@[simp] theorem State.modBlock_same (k : BlockId) (f : Block → Block) : (s.modBlock k f).blocks[k.val] = f s.blocks[k.val] := by
  simp [State.modBlock]
@[simp] theorem State.modBlock_ne {k j : BlockId} (f : Block → Block) (h : j ≠ k) : (s.modBlock k f).blocks[j.val] = s.blocks[j.val] := by
  have : k.val ≠ j.val := fun e => h (Fin.ext e.symm)
  simp [State.modBlock, this]
@[simp] theorem State.modRegion_same (k : RegionId) (f : Region → Region) : (s.modRegion k f).regions[k.val] = f s.regions[k.val] := by
  simp [State.modRegion]
@[simp] theorem State.modRegion_ne {k j : RegionId} (f : Region → Region) (h : j ≠ k) : (s.modRegion k f).regions[j.val] = s.regions[j.val] := by
  have : k.val ≠ j.val := fun e => h (Fin.ext e.symm)
  simp [State.modRegion, this]
@[simp] theorem State.modAml_same (k : PortId) (f : Aml → Aml) : (s.modAml k f).aml[k.val] = f s.aml[k.val] := by
  simp [State.modAml]
@[simp] theorem State.modAml_ne {k j : PortId} (f : Aml → Aml) (h : j ≠ k) : (s.modAml k f).aml[j.val] = s.aml[j.val] := by
  have : k.val ≠ j.val := fun e => h (Fin.ext e.symm)
  simp [State.modAml, this]
@[simp] theorem State.modRing_same (k : RingId) (f : Ring → Ring) : (s.modRing k f).rings[k.val] = f s.rings[k.val] := by
  simp [State.modRing]
@[simp] theorem State.modRing_ne {k j : RingId} (f : Ring → Ring) (h : j ≠ k) : (s.modRing k f).rings[j.val] = s.rings[j.val] := by
  have : k.val ≠ j.val := fun e => h (Fin.ext e.symm)
  simp [State.modRing, this]
@[simp] theorem State.modTrace_same (k : RegionId) (f : Trace → Trace) : (s.modTrace k f).traces[k.val] = f s.traces[k.val] := by
  simp [State.modTrace]
@[simp] theorem State.modTrace_ne {k j : RegionId} (f : Trace → Trace) (h : j ≠ k) : (s.modTrace k f).traces[j.val] = s.traces[j.val] := by
  have : k.val ≠ j.val := fun e => h (Fin.ext e.symm)
  simp [State.modTrace, this]
@[simp] theorem State.modReq_same (q : Requester) (f : Req → Req) : (s.modReq q f).rqOf q = f (s.rqOf q) := by
  simp [State.modReq, State.rqOf]
@[simp] theorem State.modReq_ne {q p : Requester} (f : Req → Req) (h : p ≠ q) : (s.modReq q f).rqOf p = s.rqOf p := by
  have : (rqIdx q).val ≠ (rqIdx p).val := by
    revert h
    cases q <;> cases p <;> decide
  simp [State.modReq, State.rqOf, this]

theorem State.dictWf_set (a : Addr) (v : Int) (h : dictWf s.dict) : dictWf (s.set a v).dict := dictWf_dput a v h

end

end Sys2Proof.Machine
end

