-- ==== Sys2Proof/Laws/Record.lean ====
section
/-! SUPPORT. What forming an event record, or offering a record to a ring, can change: the log and its objects, the rings and
their memory, the two queues of pushes. Everything else is as before. -/

namespace Sys2Proof.Machine

/-- The second state differs from the first only where recording and the rings write. -/
structure RecorderOnly (s t : State) : Prop where
  get : ∀ a, recorderObj a = false → t.get a = s.get a
  wf : dictWf s.dict → dictWf t.dict
  rest : rest t = rest s
  stream : memWf s.sp.mem → memWf t.sp.mem
  outside : ∀ o, outsideRings s o → byteAt t.sp.mem o = byteAt s.sp.mem o

/-- Rings keep their areas where their configurations stand. -/
theorem outsideRings_congr {s t : State} (h : ∀ r : RingId, t.get (O.RING_CFG r) = s.get (O.RING_CFG r)) {o : Nat}
    (ho : outsideRings s o) : outsideRings t o := by
  intro r hr
  have := ho r
  simp only [ringEn, ringBase, ringSize, State.getB, State.getN, h] at hr this ⊢
  exact this hr

theorem cfg_free (r : RingId) : recorderObj (O.RING_CFG r) = false := by
  revert r
  decide

namespace RecorderOnly

theorem refl (s : State) : RecorderOnly s s := by constructor <;> simp

theorem uptime {s t : State} (h : RecorderOnly s t) : t.uptime = s.uptime := (congrArg State.uptime h.rest :)
theorem wall {s t : State} (h : RecorderOnly s t) : t.wall = s.wall := (congrArg State.wall h.rest :)
theorem blobs {s t : State} (h : RecorderOnly s t) : t.blobs = s.blobs := (congrArg State.blobs h.rest :)
theorem inputs {s t : State} (h : RecorderOnly s t) : t.inputs = s.inputs := (congrArg State.inputs h.rest :)
theorem seen {s t : State} (h : RecorderOnly s t) : t.seen = s.seen := (congrArg State.seen h.rest :)
theorem free {s t : State} (h : RecorderOnly s t) : t.free = s.free := (congrArg State.free h.rest :)
theorem req {s t : State} (h : RecorderOnly s t) : t.req = s.req := (congrArg State.req h.rest :)
theorem chip {s t : State} (h : RecorderOnly s t) : t.chip = s.chip := (congrArg State.chip h.rest :)
theorem loops {s t : State} (h : RecorderOnly s t) : t.loops = s.loops := (congrArg State.loops h.rest :)
theorem cells {s t : State} (h : RecorderOnly s t) : t.cells = s.cells := (congrArg State.cells h.rest :)
theorem blocks {s t : State} (h : RecorderOnly s t) : t.blocks = s.blocks := (congrArg State.blocks h.rest :)
theorem regions {s t : State} (h : RecorderOnly s t) : t.regions = s.regions := (congrArg State.regions h.rest :)
theorem tree {s t : State} (h : RecorderOnly s t) : t.tree = s.tree := (congrArg State.tree h.rest :)
theorem fb {s t : State} (h : RecorderOnly s t) : t.fb = s.fb := (congrArg State.fb h.rest :)
theorem shape {s t : State} (h : RecorderOnly s t) : t.shape = s.shape := (congrArg State.shape h.rest :)
theorem aml {s t : State} (h : RecorderOnly s t) : t.aml = s.aml := (congrArg State.aml h.rest :)
theorem twin {s t : State} (h : RecorderOnly s t) : t.twin = s.twin := (congrArg State.twin h.rest :)
theorem traces {s t : State} (h : RecorderOnly s t) : t.traces = s.traces := (congrArg State.traces h.rest :)
theorem pending {s t : State} (h : RecorderOnly s t) : t.pending = s.pending := (congrArg State.pending h.rest :)
theorem store {s t : State} (h : RecorderOnly s t) : t.plate.store = s.plate.store := (congrArg (fun u => u.plate.store) h.rest :)
theorem bank {s t : State} (h : RecorderOnly s t) : t.plate.bank = s.plate.bank := (congrArg (fun u => u.plate.bank) h.rest :)
theorem marker {s t : State} (h : RecorderOnly s t) : t.plate.marker = s.plate.marker := (congrArg (fun u => u.plate.marker) h.rest :)
theorem scratch {s t : State} (h : RecorderOnly s t) : t.plate.scratch = s.plate.scratch := (congrArg (fun u => u.plate.scratch) h.rest :)
theorem recalled {s t : State} (h : RecorderOnly s t) : t.plate.recalled = s.plate.recalled := (congrArg (fun u => u.plate.recalled) h.rest :)
theorem result {s t : State} (h : RecorderOnly s t) :
    t.tw.result = s.tw.result ∧ t.tw.code = s.tw.code ∧ t.tw.idx = s.tw.idx ∧ t.tw.sub = s.tw.sub ∧ t.tw.tag = s.tw.tag :=
  ⟨(congrArg (fun u => u.tw.result) h.rest :), (congrArg (fun u => u.tw.code) h.rest :), (congrArg (fun u => u.tw.idx) h.rest :),
    (congrArg (fun u => u.tw.sub) h.rest :), (congrArg (fun u => u.tw.tag) h.rest :)⟩
theorem response {s t : State} (h : RecorderOnly s t) : t.sp.response = s.sp.response ∧ t.tw.response = s.tw.response :=
  ⟨(congrArg (fun u => u.sp.response) h.rest :), (congrArg (fun u => u.tw.response) h.rest :)⟩
theorem canOn {s t : State} (h : RecorderOnly s t) : t.can.on = s.can.on := (congrArg (fun u => u.can.on) h.rest :)

theorem ringEn_iff {s t : State} (h : RecorderOnly s t) (r : RingId) : ringEn t r = ringEn s r := by
  simp [ringEn, State.getB, State.getN, h.get _ (cfg_free r)]

theorem trans {s t u : State} (h : RecorderOnly s t) (k : RecorderOnly t u) : RecorderOnly s u where
  get a ha := (k.get a ha).trans (h.get a ha)
  wf hs := k.wf (h.wf hs)
  rest := k.rest.trans h.rest
  stream hs := k.stream (h.stream hs)
  outside o ho := (k.outside o (outsideRings_congr (fun r => h.get _ (cfg_free r)) ho)).trans (h.outside o ho)

end RecorderOnly

theorem touchFor_cases (p : Plate) (a : Addr) : touchFor p a = p ∨ ∃ n, touchFor p a = p.touch n := by
  unfold touchFor
  split
  · split
    · exact .inr ⟨_, rfl⟩
    · exact .inl rfl
  · exact .inl rfl

theorem rest_set (s : State) (a : Addr) (v : Int) : rest (s.set a v) = rest s := by
  have hp (p : Plate) : { touchFor p a with log := [], dirty0 := [], dirty1 := [], nextSeq := 0 } =
      { p with log := [], dirty0 := [], dirty1 := [], nextSeq := 0 } := by
    rcases touchFor_cases p a with h | ⟨n, h⟩ <;> rw [h]; rfl
  simp only [rest, State.set, hp]

theorem recorderOnly_set (s : State) {a : Addr} (v : Int) (ha : recorderObj a = true) : RecorderOnly s (s.set a v) where
  get b hb := by
    have : b ≠ a := by rintro rfl; simp [ha] at hb
    exact State.get_set_ne s v this
  wf := s.dictWf_set a v
  rest := rest_set s a v
  stream := id
  outside _ _ := rfl

theorem recorderOnly_setN (s : State) {a : Addr} (v : Nat) (ha : recorderObj a = true) : RecorderOnly s (s.setN a v) :=
  recorderOnly_set s _ ha

theorem recorderOnly_ring (s : State) (r : RingId) (f : Ring → Ring) : RecorderOnly s (s.modRing r f) :=
  ⟨fun _ _ => rfl, id, rfl, id, fun _ _ => rfl⟩

theorem ringReg (r : RingId) : recorderObj (O.RING_PI r) = true ∧ recorderObj (O.RING_CI r) = true ∧ recorderObj (O.RING_LOST r) = true := by
  revert r
  decide

/-! ### Ring memory -/

theorem ringSize_pos (s : State) (r : RingId) : 0 < ringSize s r := by
  unfold ringSize
  positivity

theorem memWf_ringBytes {m : List (Nat × Byte)} (base size n : Nat) (bs : List Byte) (h : memWf m) :
    memWf (ringBytes m base size n bs) := by
  induction bs generalizing m n with
  | nil => exact h
  | cons b bs ih => exact ih (n + 1) (memWf_putByte _ b h)

theorem byteAt_ringBytes {m : List (Nat × Byte)} {base size : Nat} (n : Nat) (bs : List Byte) (hs : 0 < size) {o : Nat}
    (ho : o < base ∨ base + size ≤ o) : byteAt (ringBytes m base size n bs) o = byteAt m o := by
  induction bs generalizing m n with
  | nil => rfl
  | cons b bs ih =>
    refine (ih (n + 1)).trans (byteAt_putByte_ne m b ?_)
    have := Nat.mod_lt n hs
    omega

/-- Bytes written in the area of an enabled ring. -/
theorem recorderOnly_mem (s : State) (r : RingId) (n : Nat) (bs : List Byte) (he : ringEn s r = true) :
    RecorderOnly s { s with sp := { s.sp with mem := ringBytes s.sp.mem (ringBase s r) (ringSize s r) n bs } } :=
  ⟨fun _ _ => rfl, id, rfl, memWf_ringBytes _ _ _ _, fun _ ho => byteAt_ringBytes n bs (ringSize_pos s r) (ho r he)⟩

theorem ringPut_only (s : State) (r : RingId) (bs : List Byte) (g : Option Nat) (he : ringEn s r = true) :
    RecorderOnly s (ringPut s r bs g) := by
  unfold ringPut
  exact ((recorderOnly_mem s r _ _ he).trans (recorderOnly_set _ _ (ringReg r).1)).trans (recorderOnly_ring _ _ _)

theorem ringGap_only (s : State) (r : RingId) (he : ringEn s r = true) : RecorderOnly s (ringGap s r) := by
  unfold ringGap
  exact (ringPut_only s r _ _ he).trans (recorderOnly_ring _ _ _)

theorem ringWrite_only (s : State) (r : RingId) (i : RingItem) (he : ringEn s r = true) : RecorderOnly s (ringWrite s r i) := by
  have first : RecorderOnly s (if 0 < s.rings[r].gap then ringGap s r else s) := by
    split
    · exact ringGap_only s r he
    · exact .refl s
  unfold ringWrite
  refine RecorderOnly.trans ?_ (recorderOnly_ring _ _ _)
  exact first.trans (ringPut_only _ _ _ _ ((first.ringEn_iff r).trans he))

theorem ringDrop_only (s : State) (r : RingId) (n : Nat) (he : ringEn s r = true) : RecorderOnly s (ringDrop s r n) := by
  unfold ringDrop
  dsimp only
  split
  · exact .refl s
  · refine RecorderOnly.trans ?_ (recorderOnly_ring _ _ _)
    exact ((recorderOnly_mem s r _ _ he).trans (recorderOnly_set _ _ (ringReg r).2.1)).trans (recorderOnly_set _ _ (ringReg r).2.2)

theorem bumpLost_only (s : State) (r : RingId) : RecorderOnly s (s.bump (O.RING_LOST r)) := recorderOnly_set s _ (ringReg r).2.2

theorem dropNoted_only (s : State) (r : RingId) : RecorderOnly s (dropNoted s r).1 := by
  unfold dropNoted
  split
  · dsimp only
    exact recorderOnly_ring _ _ _
  · exact .refl s

/-- A record offered to a ring. -/
theorem produce_only (s : State) (r : RingId) (i : RingItem) : RecorderOnly s (produce s r i).1 := by
  have lost (f : Ring → Ring) : RecorderOnly s ((s.bump (O.RING_LOST r)).modRing r f) :=
    (bumpLost_only s r).trans (recorderOnly_ring _ _ _)
  unfold produce
  split
  · exact .refl s
  next hen =>
  have he : ringEn s r = true := by simpa using hen
  split
  · split
    · dsimp only; exact recorderOnly_ring _ _ _
    split
    · dsimp only; exact lost _
    · dsimp only; exact recorderOnly_ring _ _ _
  split
  · split
    · dsimp only; exact lost _
    split
    · exact ringWrite_only s r i he
    · dsimp only; exact lost _
  split
  · split
    · exact ringWrite_only s r i he
    split
    · dsimp only; exact recorderOnly_ring _ _ _
    · dsimp only; exact lost _
  split
  · exact ringWrite_only s r i he
  split
  · exact ringWrite_only s r i he
  · have hd := ringDrop_only s r (4 * (i.words.length + 1)) he
    exact (hd.trans (ringWrite_only _ _ _ ((hd.ringEn_iff r).trans he))).trans (dropNoted_only _ _)

/-! ### Records -/

theorem recorderOnly_nextSeq (s : State) (n : Nat) : RecorderOnly s { s with plate := { s.plate with nextSeq := n } } :=
  ⟨fun _ _ => rfl, id, rfl, id, fun _ _ => rfl⟩

theorem touch_all (ps : List Nat) (p : Plate) : { ps.foldl Plate.touch p with log := [], dirty0 := [], dirty1 := [], nextSeq := 0 } =
    { p with log := [], dirty0 := [], dirty1 := [], nextSeq := 0 } := by
  induction ps generalizing p with
  | nil => rfl
  | cons a ps ih => exact ih (p.touch a)

theorem recorderOnly_keep (s : State) (r : Record) : RecorderOnly s { s with plate := s.plate.keep r } := by
  refine ⟨fun _ _ => rfl, id, ?_, id, fun _ _ => rfl⟩
  have := touch_all (logPages (logStart s.plate.log r) (32 + r.payload.length)) s.plate
  simpa only [rest, Plate.keep] using congrArg (fun p => { rest s with plate := p }) this

theorem logCounts_only (s : State) (used : Nat) (r : Record) : RecorderOnly s (logCounts s used r) := by
  unfold logCounts
  refine RecorderOnly.trans ?_ (recorderOnly_setN _ _ rfl)
  split
  · exact recorderOnly_setN s _ rfl
  · exact .refl s

theorem logAppend_only (s : State) (r : Record) : RecorderOnly s (logAppend s r) :=
  (recorderOnly_keep s r).trans (logCounts_only _ _ _)

theorem logRecord_only (s : State) (r : Record) : RecorderOnly s (logRecord s r).1 := by
  have hb : RecorderOnly s (s.bump O.LOG_REFUSED) := recorderOnly_setN s _ rfl
  unfold logRecord
  split
  · exact .refl s
  split
  · exact hb
  split
  · exact logAppend_only s r
  · dsimp only
    exact (hb.trans (recorderOnly_setN _ _ rfl)).trans (logAppend_only _ _)

theorem recorderOnly_can (s : State) (a b : List (Nat × List Byte)) (c : Bool) :
    RecorderOnly s { s with can := { s.can with tx := a, push := b, lost := c } } := ⟨fun _ _ => rfl, id, rfl, id, fun _ _ => rfl⟩

theorem recorderOnly_tw (s : State) (l : List (Nat × Nat × Nat)) : RecorderOnly s { s with tw := { s.tw with alerts := l } } :=
  ⟨fun _ _ => rfl, id, rfl, id, fun _ _ => rfl⟩

theorem canDrain_only (s : State) : RecorderOnly s (canDrain s) := by
  unfold canDrain
  split
  · exact recorderOnly_can s _ _ _
  · exact .refl s

theorem canPush_only (s : State) (r : Record) : RecorderOnly s (canPush s r) := by
  unfold canPush
  split
  · split
    · exact (recorderOnly_can s _ _ _).trans (canDrain_only _)
    · exact (recorderOnly_setN s _ rfl).trans (recorderOnly_can (s.bump O.PUSH_DROP_CNT) _ _ _)
  · exact .refl s

theorem twAlert_only (s : State) (r : Record) : RecorderOnly s (twAlert s r).1 := by
  unfold twAlert
  split
  · split
    · exact recorderOnly_tw s _
    · exact recorderOnly_setN s _ rfl
  · exact .refl s

theorem keepRecord_only (s : State) (r : Record) : RecorderOnly s (keepRecord s r) := by
  unfold keepRecord
  exact ((logRecord_only s r).trans (recorderOnly_nextSeq _ _)).trans (recorderOnly_setN _ _ rfl)

theorem mirrorRecord_only (s : State) (r : Record) : RecorderOnly s (mirrorRecord s r).1 := by
  unfold mirrorRecord
  split
  · exact produce_only _ _ _
  · exact .refl s

theorem recordCore_only (s : State) (code sev : Nat) (trunc : Bool) (payload : List Byte) :
    RecorderOnly s (recordCore s code sev trunc payload).1 := by
  unfold recordCore
  dsimp only
  exact ((((keepRecord_only s _).trans (mirrorRecord_only _ _)).trans (produce_only _ _ _)).trans (canPush_only _ _)).trans
    (twAlert_only _ _)

theorem recordRaw_only (s : State) (code sev : Nat) (trunc : Bool) (payload : List Byte) :
    RecorderOnly s (recordRaw s code sev trunc payload) := by
  unfold recordRaw
  dsimp only
  have : ∀ (l : List (Nat × Nat)) (t : State), RecorderOnly s t →
      RecorderOnly s (l.foldl (fun s a => (recordCore s a.1 (sevOf a.1) false (payloadOf .chip (askVals a))).1) t) := by
    intro l
    induction l with
    | nil => exact fun t h => h
    | cons a l ih => exact fun t h => ih _ (h.trans (recordCore_only _ _ _ _ _))
  exact this _ _ (recordCore_only s _ _ _ _)

/-- An event record changes only what recording writes. -/
theorem record_only (s : State) (code : Nat) (u : UnitId) (vals : List Byte) : RecorderOnly s (record s code u vals) :=
  recordRaw_only s _ _ _ _

theorem recordLoop_only (s : State) (code : Nat) (k : LoopId) (vals : List Byte) : RecorderOnly s (recordLoop s code k vals) :=
  recordRaw_only s _ _ _ _

theorem offerAsk_only (s : State) (r : RingId) (i : RingItem) : RecorderOnly s (offerAsk s r i) := by
  have h := produce_only s r i
  unfold offerAsk
  dsimp only
  split
  · exact h.trans (record_only _ _ _ _)
  · exact h

theorem offer_only (s : State) (r : RingId) (i : RingItem) : RecorderOnly s (offer s r i) := produce_only s r i

end Sys2Proof.Machine
end

