-- ==== Sys2Proof/Laws/LoopFrame.lean ====
section
/-! SUPPORT. What the shared transitions of the loops can change (Machine/Moves.lean): the objects that show a loop's state,
its cells, its measurement and engine, the alerts that wait, the reports on their way. Everything else is as before. -/

set_option Elab.async false

namespace Sys2Proof.Machine

/-- The objects that the shared transitions of the loops write, and those of the recorder. -/
def loopObj (a : Addr) : Bool := recorderObj a || loopTemplates.contains (template a)

/-- Those that the transitions set as a whole: every one but LOOP_FLT, whose bits are set one by one. -/
def loopSet (a : Addr) : Bool := loopTemplates.contains (template a) && template a != 0x305301

@[simp] theorem loopSet_LOOP_STATE (k : LoopId) : loopSet (O.LOOP_STATE k) = true := by revert k; decide
@[simp] theorem loopSet_RETRY_LEFT (k : LoopId) : loopSet (O.RETRY_LEFT k) = true := by revert k; decide
@[simp] theorem loopSet_TRIP_CNT (k : LoopId) : loopSet (O.TRIP_CNT k) = true := by revert k; decide
@[simp] theorem loopSet_BANK_ACTIVE (k : LoopId) : loopSet (O.BANK_ACTIVE k) = true := by revert k; decide
@[simp] theorem loopSet_LL_R_NOW (k : LoopId) : loopSet (O.LL_R_NOW k) = true := by revert k; decide
@[simp] theorem loopSet_PG_STAT (k : LoopId) : loopSet (O.PG_STAT k) = true := by revert k; decide
@[simp] theorem loopSet_RESPACE (k : LoopId) : loopSet (O.RESPACE k) = true := by revert k; decide
@[simp] theorem loopSet_ADD_CNT (k : LoopId) : loopSet (O.ADD_CNT k) = true := by revert k; decide
@[simp] theorem loopSet_SHED_CNT (k : LoopId) : loopSet (O.SHED_CNT k) = true := by revert k; decide
@[simp] theorem loopSet_SK_STATE (k : LoopId) : loopSet (O.SK_STATE k) = true := by revert k; decide
@[simp] theorem loopSet_SK_LAST_CLOSE (k : LoopId) : loopSet (O.SK_LAST_CLOSE k) = true := by revert k; decide
@[simp] theorem loopSet_SK_DRIFT_LAST (k : LoopId) : loopSet (O.SK_DRIFT_LAST k) = true := by revert k; decide
@[simp] theorem loopSet_SK_ERASE_CNT (k : LoopId) : loopSet (O.SK_ERASE_CNT k) = true := by revert k; decide
@[simp] theorem loopSet_SK_ERASE_EXP (k : LoopId) : loopSet (O.SK_ERASE_EXP k) = true := by revert k; decide
@[simp] theorem loopSet_SK_ERASE_CANCEL (k : LoopId) : loopSet (O.SK_ERASE_CANCEL k) = true := by revert k; decide
@[simp] theorem loopSet_SK_ERASE_PROT (k : LoopId) : loopSet (O.SK_ERASE_PROT k) = true := by revert k; decide
@[simp] theorem loopSet_MISS_CONSEC (k : LoopId) : loopSet (O.MISS_CONSEC k) = true := by revert k; decide
@[simp] theorem loopSet_ENG_FLAGS (k : LoopId) : loopSet (O.ENG_FLAGS k) = true := by revert k; decide
@[simp] theorem loopSet_VS_STATE (k : LoopId) : loopSet (O.VS_STATE k) = true := by revert k; decide
@[simp] theorem loopSet_FBL_FLAGS (k : LoopId) : loopSet (O.FBL_FLAGS k) = true := by revert k; decide
@[simp] theorem loopSet_TH_LEVEL (k : LoopId) : loopSet (O.TH_LEVEL k) = true := by revert k; decide
@[simp] theorem loopSet_TH_FACTOR (k : LoopId) : loopSet (O.TH_FACTOR k) = true := by revert k; decide
@[simp] theorem loopSet_TH_BUDGET (k : LoopId) : loopSet (O.TH_BUDGET k) = true := by revert k; decide
@[simp] theorem loopSet_ILIM_SCALE (k : LoopId) : loopSet (O.ILIM_SCALE k) = true := by revert k; decide
@[simp] theorem loopSet_BUR_STATE (k : LoopId) : loopSet (O.BUR_STATE k) = true := by revert k; decide
@[simp] theorem loopSet_SLOT_POS (n : CellId) : loopSet (O.SLOT_POS n) = true := by revert n; decide

/-- The units, memories and inputs that no shared transition of a loop touches. -/
def outer (s : State) :=
  (s.uptime, s.wall, s.blobs, s.inputs, s.free, s.req, s.chip, s.blocks, s.regions, s.fb, s.shape, s.traces, s.pending)

/-- The plate but for its log, its margin of records and the marks of dirty pages. -/
def plateOuter (p : Plate) := (p.store, p.bank, p.marker, p.scratch, p.recalled)

/-- What the ports keep: the latest answers and results. -/
def portOuter (s : State) :=
  (s.tw.result, s.tw.code, s.tw.idx, s.tw.sub, s.tw.tag, s.tw.response, s.sp.response, s.can.on)

/-- What a loop keeps: its enable pin, its affected mark, its sources, its sample and its tick. -/
def loopOuter (l : Loop) :=
  (l.ctl.en, l.ctl.inhibit, l.ctl.affected, l.ctl.regAt, l.sp.final, l.sp.now, l.sp.setv, l.sp.src, l.eng.sample, l.eng.tick)

/-- What a cell keeps: its conversions, its temperature factors and its period. -/
def cellOuter (c : Cell) := (c.conv, c.same, c.sat, c.oor, c.zero, c.gt, c.gtNext, c.onReq, c.carry, c.period)

/-- The second state differs from the first only where the shared transitions of the loops write; no latch of a loop is
cleared. -/
structure LoopsOnly (s t : State) : Prop where
  get : ∀ a, loopObj a = false → t.get a = s.get a
  flt : ∀ (k : LoopId) (b : Nat), s.getB (O.LOOP_FLT k) b = true → t.getB (O.LOOP_FLT k) b = true
  wf : dictWf s.dict → dictWf t.dict
  outer : outer t = outer s
  plate : plateOuter t.plate = plateOuter s.plate
  port : portOuter t = portOuter s
  twin : { t.twin with abdDue := false } = { s.twin with abdDue := false }
  loops : ∀ k : LoopId, loopOuter t.loops[k] = loopOuter s.loops[k]
  cells : ∀ n : CellId, cellOuter t.cells[n] = cellOuter s.cells[n]
  aml : ∀ p : PortId, { t.aml[p] with alerts := s.aml[p].alerts } = s.aml[p]
  tree : { t.tree with flight := [] } = { s.tree with flight := [] }
  stream : memWf s.sp.mem → memWf t.sp.mem
  outside : ∀ o, outsideRings s o → byteAt t.sp.mem o = byteAt s.sp.mem o

theorem flt_template (k : LoopId) : template (O.LOOP_FLT k) = 0x305301 := by
  revert k
  decide

theorem flt_free (k : LoopId) : recorderObj (O.LOOP_FLT k) = false := by
  revert k
  decide

theorem cfg_loop (r : RingId) : loopObj (O.RING_CFG r) = false := by
  revert r
  decide

theorem State.getB_setBitAt (s : State) (a : Addr) (b : Nat) (v : Bool) (c : Addr) (i : Nat) :
    (s.setBitAt a b v).getB c i = if c = a ∧ i = b then v else s.getB c i := by
  by_cases h : c = a
  · subst h
    simp [State.getB]
  · simp [State.getB, State.getN, h]

namespace LoopsOnly

theorem refl (s : State) : LoopsOnly s s := by constructor <;> simp

theorem trans {s t u : State} (h : LoopsOnly s t) (k : LoopsOnly t u) : LoopsOnly s u where
  get a ha := (k.get a ha).trans (h.get a ha)
  flt i b hb := k.flt i b (h.flt i b hb)
  wf hs := k.wf (h.wf hs)
  outer := k.outer.trans h.outer
  plate := k.plate.trans h.plate
  port := k.port.trans h.port
  twin := k.twin.trans h.twin
  loops i := (k.loops i).trans (h.loops i)
  cells i := (k.cells i).trans (h.cells i)
  aml p := by
    have h1 := h.aml p
    have h2 := k.aml p
    rw [← h1, ← h2]
  tree := k.tree.trans h.tree
  stream hs := k.stream (h.stream hs)
  outside o ho := (k.outside o (outsideRings_congr (fun r => h.get _ (cfg_loop r)) ho)).trans (h.outside o ho)


/-- Recording is among what the transitions do. -/
theorem of_record {s t : State} (h : RecorderOnly s t) : LoopsOnly s t where
  get a ha := h.get a (by simp only [loopObj, Bool.or_eq_false_iff] at ha; exact ha.1)
  flt k b hb := by
    have : t.get (O.LOOP_FLT k) = s.get (O.LOOP_FLT k) := h.get _ (flt_free k)
    simpa [State.getB, State.getN, this] using hb
  wf := h.wf
  outer := by simp [Machine.outer, h.uptime, h.wall, h.blobs, h.inputs, h.free, h.req, h.chip, h.blocks, h.regions, h.fb, h.shape,
    h.traces, h.pending]
  plate := by simp [plateOuter, h.store, h.bank, h.marker, h.scratch, h.recalled]
  port := by simp [portOuter, h.result, h.response, h.canOn]
  twin := by rw [h.twin]
  loops k := by rw [h.loops]
  cells n := by rw [h.cells]
  aml p := by rw [h.aml]
  tree := by rw [h.tree]
  stream := h.stream
  outside := h.outside

variable {s t : State}

theorem record (h : LoopsOnly s t) (code : Nat) (u : UnitId) (vals : List Byte) : LoopsOnly s (Machine.record t code u vals) :=
  h.trans (of_record (record_only _ _ _ _))

theorem recordLoop (h : LoopsOnly s t) (code : Nat) (k : LoopId) (vals : List Byte) :
    LoopsOnly s (Machine.recordLoop t code k vals) := h.record code _ vals

/-- An object of the loops takes a value; LOOP_FLT keeps the bits it has. -/
theorem set (h : LoopsOnly s t) {a : Addr} (v : Int) (ha : loopSet a = true := by simp) : LoopsOnly s (t.set a v) := by
  refine h.trans ?_
  simp only [loopSet, Bool.and_eq_true, bne_iff_ne] at ha
  have hf : ∀ k : LoopId, a ≠ O.LOOP_FLT k := fun k e => ha.2 (e ▸ flt_template k)
  replace ha : loopObj a = true := by simp only [loopObj, ha.1, Bool.or_true]
  have hp : plateOuter (touchFor t.plate a) = plateOuter t.plate := by
    rcases touchFor_cases t.plate a with h | ⟨n, h⟩ <;> rw [h]; rfl
  constructor
  case get =>
    intro b hb
    have : b ≠ a := by rintro rfl; simp [ha] at hb
    exact State.get_set_ne t v this
  case flt =>
    intro k b hb
    have : (t.set a v).get (O.LOOP_FLT k) = t.get (O.LOOP_FLT k) := State.get_set_ne t v (fun e => hf k e.symm)
    simpa [State.getB, State.getN, this] using hb
  case wf => exact t.dictWf_set a v
  case plate => exact hp
  case stream => exact id
  all_goals intros; rfl

theorem setN (h : LoopsOnly s t) {a : Addr} (v : Nat) (ha : loopSet a = true := by simp) : LoopsOnly s (t.setN a v) := h.set _ ha
theorem setBitAt (h : LoopsOnly s t) {a : Addr} (b : Nat) (v : Bool) (ha : loopSet a = true := by simp) : LoopsOnly s (t.setBitAt a b v) :=
  h.set _ ha
theorem bump (h : LoopsOnly s t) {a : Addr} (ha : loopSet a = true := by simp) : LoopsOnly s (t.bump a) := h.set _ ha
theorem bumpBy (h : LoopsOnly s t) {a : Addr} (n : Nat) (ha : loopSet a = true := by simp) : LoopsOnly s (t.bumpBy a n) := h.set _ ha

theorem modLoop (h : LoopsOnly s t) (k : LoopId) (f : Loop → Loop) (hf : ∀ l, loopOuter (f l) = loopOuter l := by intro l; rfl) :
    LoopsOnly s (t.modLoop k f) := by
  refine h.trans ?_
  constructor
  case loops =>
    intro j
    by_cases hj : j = k
    · subst hj; simp [hf]
    · simp [hj]
  case stream => exact id
  case wf => exact id
  case flt => exact fun _ _ => id
  all_goals intros; rfl

theorem modCell (h : LoopsOnly s t) (n : CellId) (f : Cell → Cell) (hf : ∀ c, cellOuter (f c) = cellOuter c := by intro c; rfl) :
    LoopsOnly s (t.modCell n f) := by
  refine h.trans ?_
  constructor
  case cells =>
    intro j
    by_cases hj : j = n
    · subst hj; simp [hf]
    · simp [hj]
  case stream => exact id
  case wf => exact id
  case flt => exact fun _ _ => id
  all_goals intros; rfl

/-- An operation repeated over a list. -/
theorem fold (h : LoopsOnly s t) {α : Type} (l : List α) (f : State → α → State) (hf : ∀ u x, LoopsOnly s u → LoopsOnly s (f u x)) :
    LoopsOnly s (l.foldl f t) := by
  induction l generalizing t with
  | nil => exact h
  | cons a l ih => exact ih (hf t a h)

theorem flight (h : LoopsOnly s t) (l : List Msg) : LoopsOnly s { t with tree := { t.tree with flight := l } } := by
  refine h.trans ?_
  constructor
  case stream => exact id
  case wf => exact id
  case flt => exact fun _ _ => id
  all_goals intros; rfl

theorem seen (h : LoopsOnly s t) (l : List (Nat × Seen)) : LoopsOnly s { t with seen := l } := by
  refine h.trans ?_
  constructor
  case stream => exact id
  case wf => exact id
  case flt => exact fun _ _ => id
  all_goals intros; rfl

theorem abdDue (h : LoopsOnly s t) (b : Bool) : LoopsOnly s { t with twin := { t.twin with abdDue := b } } := by
  refine h.trans ?_
  constructor
  case stream => exact id
  case wf => exact id
  case flt => exact fun _ _ => id
  all_goals intros; rfl

/-- The latch of a loop is set. -/
theorem setLatch (h : LoopsOnly s t) (k : LoopId) (b : Fin 16) : LoopsOnly s (Machine.setLatch t (.loop k b)) := by
  refine LoopsOnly.seen (t := t.setBitAt (O.LOOP_FLT k) b true) ?_ _
  refine h.trans ?_
  have ha : loopObj (O.LOOP_FLT k) = true := by revert k; decide
  have hp : plateOuter (touchFor t.plate (O.LOOP_FLT k)) = plateOuter t.plate := by
    rcases touchFor_cases t.plate (O.LOOP_FLT k) with h | ⟨n, h⟩ <;> rw [h]; rfl
  constructor
  case get =>
    intro c hc
    have : c ≠ O.LOOP_FLT k := by rintro rfl; simp [ha] at hc
    exact State.get_setBitAt_ne t _ _ this
  case flt =>
    intro j i hi
    rw [State.getB_setBitAt]
    split
    · rfl
    · exact hi
  case wf => exact t.dictWf_set _ _
  case plate => exact hp
  case stream => exact id
  all_goals intros; rfl

theorem amlPend (h : LoopsOnly s t) (p : PortId) (i : Fin 9) (b : Nat) : LoopsOnly s (Machine.amlPend t p i b) := by
  unfold Machine.amlPend
  split
  · refine h.trans ?_
    constructor
    case aml =>
      intro q
      by_cases hq : q = p
      · subst hq; simp
      · simp [hq]
    case stream => exact id
    case wf => exact id
    case flt => exact fun _ _ => id
    all_goals intros; rfl
  · exact h

theorem amlAlert (h : LoopsOnly s t) (k : LoopId) (b : Nat) : LoopsOnly s (Machine.amlAlert t k b) := by
  unfold Machine.amlAlert
  split
  · exact h.amlPend _ _ _
  · exact h

end LoopsOnly

namespace LoopsOnly

variable {s t : State}

theorem pgoodLow (h : LoopsOnly s t) (k : LoopId) : LoopsOnly s (Machine.pgoodLow t k) := by
  unfold Machine.pgoodLow
  split
  · exact ((h.setN 0).modLoop k _).amlAlert k 0
  · exact h.modLoop k _

theorem placeCell (h : LoopsOnly s t) (k : LoopId) (n : CellId) (was : Bool) (pos : Nat) :
    LoopsOnly s (Machine.placeCell t k n was pos) := by
  unfold Machine.placeCell
  split
  · exact h.modCell n _
  · exact (h.setN pos).modCell n _

theorem putActive (h : LoopsOnly s t) (k : LoopId) (act : List Nat) : LoopsOnly s (Machine.putActive t k act) := by
  unfold Machine.putActive
  exact h.modLoop k _

theorem leaveCell (h : LoopsOnly s t) (n : CellId) : LoopsOnly s (Machine.leaveCell t n) := h.modCell n _

theorem joinCell (h : LoopsOnly s t) (n : CellId) : LoopsOnly s (Machine.joinCell t n) := h.modCell n _

theorem setActive (h : LoopsOnly s t) (k : LoopId) (act : List Nat) : LoopsOnly s (Machine.setActive t k act) := by
  unfold Machine.setActive
  extract_lets old order fresh asleep still u1 u2 u3 u4
  have h1 : LoopsOnly s u1 := h.fold _ _ fun _ _ hx => hx.leaveCell _
  have h2 : LoopsOnly s u2 := h1.fold _ _ fun _ _ hx => hx.joinCell _
  have h3 : LoopsOnly s u3 := h2.fold _ _ fun _ _ hx => by
    split
    · exact hx
    · exact hx.placeCell _ _ _ _
  have h4 : LoopsOnly s u4 := (h3.putActive k act).modLoop k _
  split
  · exact h4
  · exact h4.setN _

theorem decideChange (h : LoopsOnly s t) (k : LoopId) (c : Change) : LoopsOnly s (Machine.decideChange t k c) := h.modLoop k _

theorem stopCell (h : LoopsOnly s t) (n : CellId) : LoopsOnly s (Machine.stopCell t n) := h.modCell n _

theorem removeCells (h : LoopsOnly s t) (k : LoopId) (ns : List Nat) : LoopsOnly s (Machine.removeCells t k ns) := by
  unfold Machine.removeCells
  extract_lets mine u v
  have hu : LoopsOnly s u := h.fold ns _ fun _ _ hx => hx.stopCell _
  split
  · exact ((hu.putActive k _).modLoop k _).decideChange k _
  · exact hu

theorem sketchErase (h : LoopsOnly s t) (k : LoopId) (code : Nat) : LoopsOnly s (Machine.sketchErase t k code) := by
  unfold Machine.sketchErase
  split
  · exact h
  extract_lets l d x img gap n blends woken u1 u2 u3 u4 u5 u6
  have h1 : LoopsOnly s u1 := h.set _
  have h2 : LoopsOnly s u2 := h1.modLoop k _
  have h3 : LoopsOnly s u3 := h2.setN 3
  have h4 : LoopsOnly s u4 := by
    unfold u4
    split
    · exact h3
    · exact h3.decideChange k _
  have h5 : LoopsOnly s u5 := by
    refine LoopsOnly.bump ?_
    split
    · exact h4
    · exact h4.setN _
  have h6 : LoopsOnly s u6 := by
    unfold u6
    split
    · exact h5.bump
    split
    · exact h5.bump
    split
    · exact ((h5.bump).recordLoop _ _ _).amlAlert k 8
    · exact h5
  split
  · exact h6.recordLoop _ _ _
  · exact h6

theorem sketchEnd (h : LoopsOnly s t) (k : LoopId) (code : Nat) : LoopsOnly s (Machine.sketchEnd t k code) := by
  unfold Machine.sketchEnd
  extract_lets u
  exact ((h.sketchErase k code).setN 0).modLoop k _

theorem ilimRefresh (h : LoopsOnly s t) (k : LoopId) : LoopsOnly s (Machine.ilimRefresh t k) := by
  unfold Machine.ilimRefresh
  dsimp only
  split
  · exact (h.setN _).amlAlert k 6
  · exact h.setN _

theorem putLevel (h : LoopsOnly s t) (k : LoopId) (level : Nat) : LoopsOnly s (Machine.putLevel t k level) := by
  unfold Machine.putLevel
  extract_lets u
  exact (((h.setN level).setN _).setN _).ilimRefresh k

theorem thermQuiet (h : LoopsOnly s t) (k : LoopId) : LoopsOnly s (Machine.thermQuiet t k) := by
  have hu := (h.putLevel k 0).modLoop k (fun l => { l with th := { l.th with tUp := 0, tDn := 0, swapAt := none } })
  unfold Machine.thermQuiet
  dsimp only
  split
  · exact hu
  · exact hu.recordLoop _ _ _

theorem loopQuiet (h : LoopsOnly s t) (k : LoopId) (code : Nat) : LoopsOnly s (Machine.loopQuiet t k code) := by
  unfold Machine.loopQuiet
  extract_lets u1 u2 u3 u4 u5 u6 f u7
  have h2 : LoopsOnly s u2 := (h.sketchEnd k code).fold _ _ fun _ _ hx => hx.stopCell _
  have h5 : LoopsOnly s u5 := (((h2.pgoodLow k).setN 0).setN 0).setBitAt 1 false
  have h6 : LoopsOnly s u6 := by
    unfold u6
    split
    · exact (h5.setN _).modLoop k _
    · exact h5
  have h7 : LoopsOnly s u7 := (h6.setN _).thermQuiet k
  exact h7.modLoop k _

theorem offsetInvalid (h : LoopsOnly s t) (k : LoopId) : LoopsOnly s (Machine.offsetInvalid t k) :=
  (h.setBitAt 5 false).modLoop k _

theorem burnishAbandon (h : LoopsOnly s t) (k : LoopId) : LoopsOnly s (Machine.burnishAbandon t k) := by
  unfold Machine.burnishAbandon
  split
  · extract_lets b n u v
    have hv : LoopsOnly s v := ((h.modLoop k _).setN 6).recordLoop _ _ _
    split
    · exact (hv.setN 5).recordLoop _ _ _
    · exact hv
  · exact h

theorem toFault (h : LoopsOnly s t) (k : LoopId) (code : Nat) : LoopsOnly s (Machine.toFault t k code) :=
  (((h.loopQuiet k code).setN 5).modLoop k _).amlAlert k 1

theorem toLatched (h : LoopsOnly s t) (k : LoopId) (code : Nat) : LoopsOnly s (Machine.toLatched t k code) :=
  ((h.loopQuiet k code).setN 6).amlAlert k 2

theorem stopBy (h : LoopsOnly s t) (k : LoopId) (pol : Nat) : LoopsOnly s (Machine.stopBy t k pol) := by
  unfold Machine.stopBy
  dsimp only
  split
  · exact h
  split
  · exact h.toLatched k _
  split
  · exact (h.toLatched k _).recordLoop _ _ _
  split
  · exact h
  · exact h.toFault k _

theorem report (h : LoopsOnly s t) (cls : FaultClass) (lp : LoopOrFb) (u : UnitId) (e : Nat) (vs : List Byte) :
    LoopsOnly s (Machine.report t cls lp u e vs) := h.flight _

theorem tripWaits (h : LoopsOnly s t) (k : LoopId) (pol : Nat) : LoopsOnly s (Machine.tripWaits t k pol) :=
  h.modLoop k _

theorem controlTrip (h : LoopsOnly s t) (k : LoopId) (b : Fin 16) (e : Option Nat) (u : UnitId) (vs : List Byte) :
    LoopsOnly s (Machine.controlTrip t k b e u vs) := by
  unfold Machine.controlTrip
  split
  · exact h
  · extract_lets v w
    have hv : LoopsOnly s v := (h.setLatch k b).bump
    have hw : LoopsOnly s w := by
      unfold w
      split
      · exact hv.report _ _ _ _ _
      · exact hv
    split
    · exact (hw.abdDue true).tripWaits k _
    · exact hw.stopBy k _

theorem holdLost (h : LoopsOnly s t) (k : LoopId) : LoopsOnly s (Machine.holdLost t k) := (h.modLoop k _).recordLoop _ _ _

theorem enterArmed (h : LoopsOnly s t) (k : LoopId) (m : Nat) : LoopsOnly s (Machine.enterArmed t k m) := by
  unfold Machine.enterArmed
  extract_lets u1 u2 u3 u4 u5
  have h1 : LoopsOnly s u1 := by
    unfold u1
    split
    · exact h.set _
    · exact h
  have h3 : LoopsOnly s u3 := ((h1.setN 1).setN m).fold _ _ fun _ _ hx => hx.modCell _ _
  have h4 : LoopsOnly s u4 := h3.modLoop k _
  have h5 : LoopsOnly s u5 := by
    unfold u5
    split
    · exact h4.holdLost k
    · exact h4
  split
  · exact h5.controlTrip k 15 _ _ _
  · exact h5

theorem tryArm (h : LoopsOnly s t) (k : LoopId) : LoopsOnly s (Machine.tryArm t k).1 := by
  unfold Machine.tryArm
  extract_lets u r v w
  have hu : LoopsOnly s u := by
    unfold u
    split
    · exact h.burnishAbandon k
    · exact h
  have hv : LoopsOnly s v := by
    unfold v
    split
    · exact hu.recordLoop _ _ _
    · exact hu
  split
  · exact hu.enterArmed k _
  split
  · exact hu
  · have hw : LoopsOnly s w := hv.recordLoop _ _ _
    dsimp only
    exact hw.modLoop k _

theorem rearm (h : LoopsOnly s t) (k : LoopId) : LoopsOnly s (Machine.rearm t k) := by
  unfold Machine.rearm
  split
  · exact h.tryArm k
  · exact h

theorem rearmAll (h : LoopsOnly s t) : LoopsOnly s (Machine.rearmAll t) := h.fold _ _ fun _ _ hx => hx.rearm _

theorem enterOff (h : LoopsOnly s t) (k : LoopId) : LoopsOnly s (Machine.enterOff t k) := by
  unfold Machine.enterOff
  extract_lets u1 u2 u3 u4 u5 u6 u7
  have h4 : LoopsOnly s u4 :=
    ((((h.loopQuiet k _).setN 0).setN 255).set _).offsetInvalid k
  have h5 : LoopsOnly s u5 := by
    unfold u5
    split
    · exact (h4.setN 0).recordLoop _ _ _
    · exact h4
  have h6 : LoopsOnly s u6 := h5.fold _ _ fun _ _ hx => hx.modCell _ _
  exact (h6.modLoop k _).rearm k

theorem softstopDone (h : LoopsOnly s t) (k : LoopId) : LoopsOnly s (Machine.softstopDone t k) := by
  unfold Machine.softstopDone
  split
  · exact h
  split
  · exact h.controlTrip _ _ _ _ _
  · exact h.enterOff k

theorem sketchLeave (h : LoopsOnly s t) (k : LoopId) : LoopsOnly s (Machine.sketchLeave t k) := by
  unfold Machine.sketchLeave
  split
  · exact h
  · exact (h.setN 0).modLoop k _

theorem enterSoftstop (h : LoopsOnly s t) (k : LoopId) : LoopsOnly s (Machine.enterSoftstop t k) :=
  (((h.sketchLeave k).setN 4).modLoop k _).pgoodLow k

theorem offBy (h : LoopsOnly s t) (k : LoopId) (now : Bool) : LoopsOnly s (Machine.offBy t k now) := by
  unfold Machine.offBy
  split
  · exact h
  · exact h.enterOff k
  · split
    · exact h.enterOff k
    · exact h.enterSoftstop k
  · split
    · exact h.enterOff k
    · exact h.enterSoftstop k
  · split
    · exact h.enterOff k
    · exact h
  · exact h.enterOff k

theorem loopTrip (h : LoopsOnly s t) (k : LoopId) (c : FaultClass) (e : Nat) : LoopsOnly s (Machine.loopTrip t k c e) := by
  unfold Machine.loopTrip
  extract_lets low u v w
  have hv : LoopsOnly s v := ((h.setLatch k _).bump).fold _ _ fun _ _ hx => (hx.stopCell _).modCell _ _
  exact ((hv.modLoop k _).report _ _ _ _ _).tripWaits k _

end LoopsOnly

end Sys2Proof.Machine
end

