-- ==== Sys2Proof/Laws/Write.lean ====
section
/-! SUPPORT. What an admitted write does beside the operation of its object: the record of it, DICT_GEN, the requester's record, and
the journal of a device that sends one. -/

namespace Sys2Proof.Machine

theorem Keeps.refl (s : State) (f : Addr → Prop) : Keeps s s f := ⟨fun _ _ _ => rfl, rfl, fun _ _ => rfl⟩

theorem Keeps.of_record {s t : State} (h : RecorderOnly s t) (f : Addr → Prop) : Keeps s t f :=
  ⟨fun a ha _ => h.get a ha, h.rest, h.outside⟩

theorem Written.of_record {s t : State} (h : RecorderOnly s t) (f : Addr → Prop) : Written s t f := by
  refine ⟨fun a ha _ => h.get a ha, ?_, h.outside⟩
  exact congrArg (fun u : State => { u with
    req := s.req, free := s.free, twin := { u.twin with journal := s.twin.journal, jseq := s.twin.jseq } }) h.rest

theorem Written.trans {s t u : State} {f : Addr → Prop} (hc : ∀ r : RingId, ¬ f (O.RING_CFG r)) (h : Written s t f) (k : Written t u f) :
    Written s u f := by
  refine ⟨fun a ha hf => (k.1 a ha hf).trans (h.1 a ha hf), ?_, fun o ho => ?_⟩
  · have h2 := congrArg (fun v : State => { v with req := s.req, free := s.free, twin := { v.twin with journal := s.twin.journal, jseq := s.twin.jseq } }) k.2.1
    exact h2.trans h.2.1
  · refine (k.2.2 o (outsideRings_congr (fun r => ?_) ho)).trans (h.2.2 o ho)
    refine h.1 (O.RING_CFG r) (cfg_free r) ?_
    rintro (e | e | e)
    · revert e; revert r; decide
    · revert e; revert r; decide
    · exact hc r e

variable {s t u : State} {q : Requester} {a : Addr} {r : Row} {data : List Byte} {v : Int} {w : With}

theorem written_req (s : State) (q : Requester) (g : Req → Req) (f : Addr → Prop) : Written s (s.modReq q g) f :=
  ⟨fun _ _ _ => rfl, rfl, fun _ _ => rfl⟩

theorem written_set (s : State) (v : Int) {f : Addr → Prop} (ha : a = O.DICT_GEN ∨ a = O.TW_ROLE ∨ f a) : Written s (s.set a v) f := by
  refine ⟨fun b _ hf => State.get_set_ne s v (fun e => hf (e ▸ ha)), ?_, fun _ _ => rfl⟩
  exact congrArg (fun u : State => { u with req := s.req, free := s.free }) (rest_set s a v)

/-- Event 0x0701 of a write. -/
theorem noteWrite_written (s t : State) (q : Requester) (a : Addr) (r : Row) (data : List Byte) :
    Written t (noteWrite s t q a r data) (fun _ => False) := by
  unfold noteWrite
  split
  · dsimp only
    split
    · have hd : Written t t.draw.2 (fun _ => False) := ⟨fun _ _ _ => rfl, rfl, fun _ _ => rfl⟩
      exact hd.trans (fun _ h => h) (.of_record (record_only _ _ _ _) _)
    · exact .of_record (record_only _ _ _ _) _
  · exact ⟨fun _ _ _ => rfl, rfl, fun _ _ => rfl⟩

theorem journalFull_written (s : State) : Written s (journalFull s) (fun _ => False) := by
  have h1 : Written s { s.setN O.TW_ROLE 0 with twin := { s.twin with journal := [] } } (fun _ => False) :=
    (written_set s 0 (.inr (.inl rfl))).trans (fun _ h => h) ⟨fun _ _ _ => rfl, rfl, fun _ _ => rfl⟩
  exact h1.trans (fun _ h => h) (.of_record (record_only _ _ _ _) _)

/-- The journal entry of a write. -/
theorem journalSend_written (s : State) (q : Requester) (a : Addr) (r : Row) (v : Int) (o : Option Nat) (data : List Byte) :
    Written s (journalSend s q a r v o data) (fun _ => False) := by
  have key (n : Nat) (l : List JournalEntry) :
      Written s { s with twin := { s.twin with jseq := n, journal := l } } (fun _ => False) := ⟨fun _ _ _ => rfl, rfl, fun _ _ => rfl⟩
  unfold journalSend
  split
  · have hx (n : Nat) (l : List JournalEntry) (i : RingItem) :
        Written s (offerAsk { s with twin := { s.twin with jseq := n, journal := l } } 14 i) (fun _ => False) :=
      (key n l).trans (fun _ h => h) (.of_record (offerAsk_only _ _ _) _)
    dsimp only
    split
    · exact (hx _ _ _).trans (fun _ h => h) (journalFull_written _)
    · exact hx _ _ _
  · exact ⟨fun _ _ _ => rfl, rfl, fun _ _ => rfl⟩

/-- A write of an object whose region has its handshake does not wait. -/
theorem waitWrite_here (h : cutRegion s a = none) (t : State) (q : Requester) (v : Int) : waitWrite s t q a v = t := by
  simp [waitWrite, h]

/-- An admitted write runs the operation of its object; where it answers no abort, the write is done. -/
theorem writeWhole_admitted (h : Admitted s q a data)
    (hu : ∀ r, resolve a = .obj a r → (match ownChip s q a (ofBytes r.ty data).toNat w with
      | some x => x
      | none => match ownUnit s q a (ofBytes r.ty data).toNat with
        | some x => x
        | none => (plainPut s a (ofBytes r.ty data), 0)) = (u, 0)) :
    ∃ t, serve s (fun s => writeWhole s q a data w) = t ∧ Written u t (fun _ => False) := by
  obtain ⟨hs, hcut, r, hr, hacc, hc, h1, h2, h3, h4⟩ := h
  refine ⟨_, rfl, ?_⟩
  have ha : applyWrite s q a r (ofBytes r.ty data) w = (u, 0) := by
    unfold applyWrite
    rw [if_neg (by simp [h1, h2]), if_neg (by simp [h3]), if_neg hacc]
    exact hu r hr
  unfold serve
  rw [if_pos hs]
  unfold writeWhole
  simp only [hr, hc, ha, h4, waitWrite_here hcut]
  simp only [if_neg (by decide : ¬ (0 : Nat) = 0xA013), ne_eq, not_true, if_false, Bool.false_eq_true]
  set x := noteWrite s u q a r data with hx
  have h5 : Written u x (fun _ => False) := noteWrite_written s u q a r data
  have h6 : Written u (if changed s u q a || changed s x q a then x.bump O.DICT_GEN else x) (fun _ => False) := by
    split
    · exact h5.trans (fun _ h => h) (written_set x _ (.inl rfl))
    · exact h5
  have h7 := h6.trans (fun _ h => h) (journalSend_written (if changed s u q a || changed s x q a then x.bump O.DICT_GEN else x) q a r (ofBytes r.ty data) none data)
  exact h7.trans (fun _ h => h) (written_req _ _ _ _)

end Sys2Proof.Machine
end

