-- ==== Sys2Proof/Tests/Slice0.lean ====
section
/-! SUPPORT. Tests: for each statement of Certificates/Slice0 that has hypotheses, a theorem `witness_<statement>` that shows
states and operands which meet the hypotheses of its clauses; the manual's own worked figures; ill-formed commands that
`Instr.wf` refuses. -/

namespace Sys2Proof.Tests
open Sys2Proof.Machine

set_option Elab.async false

/-! ### States for the tests and witnesses -/

/-- A state with objects at the values given, by address. -/
def sOn (l : List (Addr × Nat)) (s : State := State.reset) : State := l.foldl (fun s e => s.setN e.1 e.2) s

/-- Loop L0 over block P0 and, where asked, block P3 of another region, with loop FB off: topology, regions up, loop state. -/
def sLoop (st : Nat) (l : List (Addr × Nat) := []) (two : Bool := false) : State :=
  sOn ([(O.BLK_LOOP 0, 0), (O.LOOP_MASTER 0, 0), (O.RG_STATE 0, 2), (O.RG_FLAGS 0, 1), (O.LOOP_STATE 0, st), (O.START_STEP, 9)] ++
    (if two then [(O.BLK_LOOP 3, 0), (O.RG_STATE 1, 2), (O.RG_FLAGS 1, 1)] else []) ++ l)

/-- `Admitted`, by computation. -/
def admits (s : State) (q : Requester) (a : Addr) (data : List Byte) : Bool :=
  serves s && (cutRegion s a).isNone && (match resolve a with
    | .obj f r => f == a && r.acc != .rwe && writeCheck s q a r data == 0 && !shadowed s q a r (ofBytes r.ty data) &&
        !stateRule s a (ofBytes r.ty data) && !conflictRule s a (ofBytes r.ty data) && !plateFaulted s r
    | _ => false)

theorem admits_sound {s : State} {q : Requester} {a : Addr} {data : List Byte} (h : admits s q a data = true) : Admitted s q a data := by
  unfold admits at h
  split at h
  · next f r hr =>
    simp only [Bool.and_eq_true, bne_iff_ne, beq_iff_eq, Bool.not_eq_true', ne_eq, Option.isNone_iff_eq_none] at h
    obtain ⟨⟨h0, hc⟩, ⟨⟨⟨⟨⟨⟨h1, h2⟩, h3⟩, h4⟩, h5⟩, h6⟩, h7⟩⟩ := h
    subst h1
    exact ⟨h0, hc, r, hr, h2, h3, h4, h5, h6, h7⟩
  · simp at h

/-- `SegAdmitted`, by computation. -/
def segAdmits (s : State) (q : Requester) (a : Addr) (ofs : Nat) (data : List Byte) : Bool :=
  serves s && (match resolve a with
    | .obj f r => f == a && r.acc != .ro && !(s.chip.freeze && q != .twin) && !(r.integrator && levelOf s q == 0) &&
        !(q != .twin && locked s a r) && stagedTy r.ty && ofs == (stagedAt s q a ofs).length && decide (ofs + data.length ≤ r.len) &&
        !shadowed s q a r 0 && (ofs != 0 || !activeBankObj s a) && !plateFaulted s r
    | _ => false)

theorem segAdmits_sound {s : State} {q : Requester} {a : Addr} {ofs : Nat} {data : List Byte} (h : segAdmits s q a ofs data = true) :
    SegAdmitted s q a ofs data := by
  unfold segAdmits at h
  split at h
  · next f r hr =>
    simp only [Bool.and_eq_true, bne_iff_ne, beq_iff_eq, Bool.not_eq_true', ne_eq, decide_eq_true_eq, Bool.or_eq_true] at h
    obtain ⟨h0, ⟨⟨⟨⟨⟨⟨⟨⟨⟨⟨h1, h2⟩, h3⟩, h4⟩, h5⟩, h6⟩, h7⟩, h8⟩, h9⟩, h10⟩, h11⟩⟩ := h
    subst h1
    exact ⟨h0, r, hr, h2, h3, h4, h5, h6, h7, h8, h9, fun z => h10.resolve_left (fun c => c z), h11⟩
  · simp at h

/-- Every port has the level INTEGRATOR. -/
def keyed (s : State) : State := { s with req := Vector.replicate 4 { level := 1 } }

/-! ### Clocks, power, start-up -/

/-! ### Witnesses: for every statement, states and operands that meet its hypotheses, clause by clause -/

theorem witness_PowerAndReset :
    { State.reset with chip := { State.reset.chip with aon := false } }.chip.aon = false ∧ State.reset.chip.aon = true ∧
      State.reset.chip.main = true := by decide +kernel

/-- After power-up with bank 1 committed. -/
def sBankOne : State :=
  { State.reset with chip := { State.reset.chip with main := false, released := false },
                     plate := { State.reset.plate with recalled := false, marker := #v[{}, ⟨0x5E, 1, 0, 1, 0, 0⟩],
                                                       bank := #v[{}, { dict := [(O.LOCK_BOOT, 1)] }] } }

theorem witness_RecallAndRelease :
    (sBankOne.chip.aon = true ∧ sBankOne.plate.recalled = false ∧ recallBank sBankOne.plate [] [] = some 1 ∧
      dictWf sBankOne.plate.bank[1].dict = true) ∧
    (let s := { sBankOne with plate := { sBankOne.plate with recalled := true } }
     s.chip.aon = true ∧ s.plate.recalled = true ∧ s.chip.main = false) := by decide +kernel

theorem witness_StartUpSteps :
    (let s := { sOn [(O.START_STEP, 1)] with chip := { State.reset.chip with hkLock := false, rising := [0] } }
     s.chip.main = true ∧ s.chip.ref = true ∧ s.getN O.START_STEP = 1 ∧ s.chip.rising ≠ []) ∧
    (let s := { State.reset with chip := { State.reset.chip with rising := [7] } }
     s.chip.rising = (7 : RegionId).val :: [] ∧ s.chip.main = true ∧ s.chip.hkLock = true ∧ s.chip.switchAt = none) ∧
    (let s := { State.reset with chip := { State.reset.chip with rising := [7], switchAt := some 5 }, uptime := 45 }
     s.chip.rising = (7 : RegionId).val :: [] ∧ s.chip.switchAt = some 5 ∧ 5 + 40 ≤ s.uptime) ∧
    (let s := { State.reset with chip := { State.reset.chip with switchAt := some 5 }, uptime := 44 }
     s.chip.switchAt = some 5 ∧ s.uptime < 5 + 40) ∧
    (let s := sOn [(O.RG_STATE 7, 1), (O.START_STEP, 8)]
     s.getN (O.RG_STATE 7) = 1 ∧ s.chip.applying ≠ some .commit) ∧
    startDone (sOn [(O.START_STEP, 8)]) = true := by decide +kernel

theorem witness_ClocksHandshakeFreeze :
    State.reset.chip.ref = true ∧ (regionReady (sLoop 3) 0 = true) ∧
    (let s := sOn [(O.RG_STATE 7, 2)]
     regionReady s (7 : RegionId) = true ∧ pllLocked s (7 : RegionId) = false ∧ s.chip.ref = true) ∧
    State.reset.fb.pll = true ∧
    (let s := { State.reset with fb := { State.reset.fb with pll := false } }
     s.chip.ref = true ∧ s.fb.pll = false) ∧
    ((sLoop 3).getN (O.RG_STATE (0 : RegionId)) ≠ 0 ∧ (sLoop 3).regions[(0 : RegionId)].cut = false) ∧
    (sLoop 3 |>.modRegion 7 fun g => { g with cut := true }).regions[(7 : RegionId)].cut = true ∧
    (State.reset.chip.main = true ∧ State.reset.chip.freeze = false) ∧
    (let s := { State.reset with chip := { State.reset.chip with freeze := true } }
     s.chip.freeze = true ∧ s.twin.journal = []) := by decide +kernel

/-! ### Topology -/

/-- Block P0 staged for loop L0 with region 0 as its master. -/
def sTopo : State := keyed (sOn [(O.BLK_LOOP_STG 0, 0), (O.LOOP_MASTER_STG 0, 0), (O.START_STEP, 9), (O.TOPO_STATUS, 2)])

/-- The same block staged for a loop whose master region holds none of it. -/
def sTopoBad : State := keyed (sOn [(O.BLK_LOOP_STG 0, 0), (O.LOOP_MASTER_STG 0, 1), (O.START_STEP, 9), (O.TOPO_STATUS, 2)])

theorem witness_TopologyCommit :
    (Admitted sTopo .stream O.TOPO_CMD [0xC5] ∧ topoBad sTopo (activeTopo sTopo) (stagedTopo sTopo)
      (((List.range 12).map (· + 1)).filter fun c => !((Requester.stream == .twin) && c == 2)) = []) ∧
    (Admitted sTopoBad .can O.TOPO_CMD [0xC5] ∧ (topoBad sTopoBad (activeTopo sTopoBad) (stagedTopo sTopoBad)
      (((List.range 12).map (· + 1)).filter fun c => !((Requester.can == .twin) && c == 2))).length ≠ 0) ∧
    Admitted sTopo .twoWire O.TOPO_CMD [0x5C] ∧
    (let s := { sLoop 0 with chip := { State.reset.chip with applying := some .commit } }
     s.chip.applying = some .commit ∧ (∀ r : RegionId, heldBy s r = [] → s.regions[r].writes = []) ∧ heldBy s (7 : RegionId) = [] ∧
      heldBy s (0 : RegionId) ≠ []) :=
  ⟨⟨admits_sound (by decide +kernel), by decide +kernel⟩, ⟨admits_sound (by decide +kernel), by decide +kernel⟩,
    admits_sound (by decide +kernel), by decide +kernel⟩

/-- Loop L0 in regions 0 and 1, the tracker of region 1 at the values given. -/
def sTrack (st : Nat) (t : Track) : State := (sLoop st [] true).modLoop 0 fun l => { l with track := l.track.set 1 t }

theorem witness_MarkerTracking :
    follows (sTrack 3 {}) 0 1 = true ∧
    (follows (sTrack 3 { good := 16 }) 0 1 = true ∧ 16 ≤ (sTrack 3 { good := 16 }).loops[(0 : LoopId)].track[(1 : RegionId)].good) ∧
    (let s := (sTrack 1 {}).modLoop 0 fun l => { l with ctl := { l.ctl with armedSamples := 64 } }
     s.getN (O.LOOP_STATE (0 : LoopId)) = 1 ∧ 64 ≤ s.loops[(0 : LoopId)].ctl.armedSamples ∧
      (followersOf s 0).any (fun r => !s.loops[(0 : LoopId)].track[regionOf r].lock) = true) ∧
    (follows (sTrack 3 { missing := 16 }) 0 1 = true ∧ 16 ≤ (sTrack 3 { missing := 16 }).loops[(0 : LoopId)].track[(1 : RegionId)].missing ∧
      (sTrack 3 { missing := 16 }).getN (O.LOOP_STATE (0 : LoopId)) ≠ 0) ∧
    (follows (sTrack 3 { outSeq := 16 }) 0 1 = true ∧ 16 ≤ (sTrack 3 { outSeq := 16 }).loops[(0 : LoopId)].track[(1 : RegionId)].outSeq) ∧
    (follows (sTrack 3 { far := 8 }) 0 1 = true ∧ 8 ≤ (sTrack 3 { far := 8 }).loops[(0 : LoopId)].track[(1 : RegionId)].far) := by
  decide +kernel

/-! ### Sensing -/

/-- A change of loop L0. -/
def sMod (s : State) (f : Loop → Loop) : State := s.modLoop 0 f

theorem witness_SampleAndDeadline :
    (let s := sLoop 3
     masterOf s 0 ≠ 255 ∧ regionReady s (masterOf s 0) = true ∧ pllLocked s (masterOf s 0) = true ∧ slotOpen s 0 0 = true ∧
      running s 0 = true) ∧
    (let s := (sLoop 3 [(O.LOOP_RATE 0, 12500000)]).modRegion 0 fun g => { g with slot := some 0 }
     slotOpen s 0 160 = true ∧ slotOpen s 0 80 = false) ∧
    (let s := sLoop 3 [] true
     masterOf s 0 ≠ 255 ∧ regionReady s (masterOf s 0) = true ∧ pllLocked s (masterOf s 0) = true ∧ running s 0 = true ∧
      (followersOf s 0).contains (1 : RegionId).val = true ∧ [(1 : RegionId)].contains (1 : RegionId) = true) ∧
    (let s := sMod (sLoop 3 [] true) fun l => { l with eng := { l.eng with result := some ⟨1, 0, 0, 0, 0, 0⟩ } }
     masterOf s 0 ≠ 255 ∧ regionReady s (masterOf s 0) = true ∧ pllLocked s (masterOf s 0) = true ∧ running s 0 = true ∧
      s.loops[(0 : LoopId)].eng.overrun = false ∧ s.loops[(0 : LoopId)].eng.late = false ∧
      s.loops[(0 : LoopId)].eng.result = some ⟨1, 0, 0, 0, 0, 0⟩ ∧
      ([] : List RegionId).any (fun r => (followersOf s 0).contains r.val) = false) ∧
    (let s := sMod (sLoop 2) fun l => { l with eng := { l.eng with overrun := true } }
     masterOf s 0 ≠ 255 ∧ regionReady s (masterOf s 0) = true ∧ pllLocked s (masterOf s 0) = true ∧ running s 0 = true ∧
      s.loops[(0 : LoopId)].eng.overrun = true) ∧
    (let s := sMod (sLoop 3 [] true) fun l => { l with track := l.track.set 1 { lateUp := 64 } }
     running s 0 = true ∧ (followersOf s 0).contains (1 : RegionId).val = true ∧ 64 ≤ s.loops[(0 : LoopId)].track[(1 : RegionId)].lateUp) ∧
    (let s := sMod (sLoop 3 [] true) fun l => { l with track := l.track.set 1 { lateDown := 64 } }
     running s 0 = true ∧ 64 ≤ s.loops[(0 : LoopId)].track[(1 : RegionId)].lateDown) := by decide +kernel

theorem witness_Conversions : (regionReady (sLoop 0) ((2 : CellId) / 12) = true ∧ (loopOfCell (sLoop 0) (2 : CellId)).isSome = true) ∧
    loopOfCell (sLoop 0) (11 : CellId) = none ∧ regionReady (sLoop 0) ((2 : BlockId) / 3) = true ∧
    State.reset.chip.main = true ∧ (sLoop 0).blocks[(2 : BlockId)].sens.failed = false ∧ (sensOf State.reset (dieOf 8)).failed = false ∧
    sensOn State.reset (dieOf 8) = true := by decide +kernel

/-- A cell of loop L0 with the counts given. -/
def sCell (st : Nat) (c : Cell) : State := (sLoop st).modCell 0 fun _ => c

theorem witness_CellErrorsAndCalibration :
    (let s := (sCell 3 { same := 256, stopped := false }).modLoop 0 fun l => { l with ph := { l.ph with active := [0] } }
     regionReady s ((0 : CellId) / 12) = true ∧ loopOfCell s (0 : CellId) = some 0 ∧ isOff s 0 = false ∧ latchSet s (.cell 0 3) = false ∧
      switching s 0 = true ∧ 256 ≤ s.cells[(0 : CellId)].same) ∧
    (let s := sCell 3 { sat := 16 }
     regionReady s ((0 : CellId) / 12) = true ∧ loopOfCell s (0 : CellId) = some 0 ∧ isOff s 0 = false ∧ latchSet s (.cell 0 3) = false ∧
      16 ≤ s.cells[(0 : CellId)].sat) ∧
    (let s := sCell 3 { oor := 16 }
     regionReady s ((0 : CellId) / 12) = true ∧ loopOfCell s (0 : CellId) = some 0 ∧ isOff s 0 = false ∧ latchSet s (.cell 0 3) = false ∧
      16 ≤ s.cells[(0 : CellId)].oor) ∧
    (let s := (sCell 3 { stopped := false }).modLoop 0 fun l => { l with ph := { l.ph with active := [0] } }
     cellWatched s 0 = true ∧ loopOfCell s (0 : CellId) = some 0 ∧ isOff s 0 = false ∧ latchSet s (.cell 0 4) = false) ∧
    (regionReady (sLoop 3) ((2 : BlockId) / 3) = true ∧ 400 ≤ 400 ∧ 1600 ≤ 1600) ∧
    (let s := sLoop 3
     regionReady s ((0 : BlockId) / 3) = true ∧ (399 < 400 ∨ 1600 < 399) ∧ (1601 < 400 ∨ 1600 < 1601) ∧ loopOfBlock s (0 : BlockId) = some 0 ∧
      isOff s 0 = false ∧ ∀ i < 4, latchSet s (.cell (cellOf (4 * (0 : BlockId) + i)) 3) = false) ∧
    (let s := sMod (sLoop 3 [(O.VLS_FIT 0, 1)]) fun l => { l with sn := { l.sn with learnN := 1, learnSum := 1 } }
     s.getN (O.LOOP_STATE (0 : LoopId)) = 3 ∧ s.getN (O.VS_STATE (0 : LoopId)) = 0 ∧ s.isOn (O.VLS_FIT (0 : LoopId)) = true ∧
      bits (s.getN (O.FBL_FLAGS (0 : LoopId))) 0 5 = 0 ∧ 0 < s.loops[(0 : LoopId)].sn.learnN ∧ s.loops[(0 : LoopId)].sn.updates = 0) ∧
    (sMod (sLoop 3) fun l => { l with sn := { l.sn with updates := 1 } }).loops[(0 : LoopId)].sn.updates ≠ 0 ∧
    (let s := sLoop 1
     s.getN (O.LOOP_STATE (0 : LoopId)) = 1 ∧ loopOfCell s (3 : CellId) = some 0 ∧ regionReady s ((3 : CellId) / 12) = true) := by
  decide +kernel

/-- Loop L0 with the feedback objects given. -/
def sFbl (st : Nat) (l : List (Addr × Nat)) (f : Loop → Loop := id) : State := sMod (sLoop st l) f

/-- Whether one of the sense pins of L0 is open, at the pins' differences given, which have stood for `held` ns. -/
def openPin (s : State) (dp dn : Int) (held : Nat) : Bool :=
  (decide (s.ef 0 (O.OPEN_TH (0 : LoopId)) < dp) && (s.getB (O.FBL_FLAGS (0 : LoopId)) 0 || decide (1000 ≤ held))) ||
    (decide (dn < -s.ef 0 (O.OPEN_TH (0 : LoopId))) && (s.getB (O.FBL_FLAGS (0 : LoopId)) 1 || decide (1000 ≤ held)))

theorem witness_FeedbackLoss :
    running (sFbl 1 []) 0 = false ∧ openPin (sFbl 3 []) 0 0 1000 = false ∧
    (let s := sFbl 3 [(O.VLS_FIT 0, 1), (O.FBL_FLAGS 0, 0x20)]
     running s 0 = true ∧ (openPin s 1000 0 1000 || false) = true ∧ s.getN (O.VS_STATE (0 : LoopId)) = 0 ∧ s.isOn (O.VLS_FIT (0 : LoopId)) = true ∧
      s.getB (O.FBL_FLAGS (0 : LoopId)) 5 = true) ∧
    (let s := sFbl 3 []
     running s 0 = true ∧ openPin s 0 (-1000) 1000 = true ∧ s.getN (O.VS_STATE (0 : LoopId)) = 0 ∧ s.getB (O.FBL_FLAGS (0 : LoopId)) 5 = false ∧
      grounded s 0 = false) ∧
    (let s := sFbl 3 [] fun l => { l with sn := { l.sn with satRun := 256, divV := 16 } }
     running s 0 = true ∧ observing s 0 = false ∧ grounded s 0 = false ∧ s.efN 0 (O.SAT_RUN (0 : LoopId)) ≤ s.loops[(0 : LoopId)].sn.satRun ∧
      16 ≤ s.loops[(0 : LoopId)].sn.divV) ∧
    (let s := sFbl 3 [] fun l => { l with sn := { l.sn with divI := 16 } }
     running s 0 = true ∧ observing s 0 = false ∧ grounded s 0 = false ∧ 16 ≤ s.loops[(0 : LoopId)].sn.divI) ∧
    (let s := sFbl 3 [] fun l => { l with sn := { l.sn with frz := (100, 1, 0) :: List.replicate 63 (100, 0, 0) } }
     running s 0 = true ∧ observing s 0 = false ∧ grounded s 0 = false ∧ frozenNow s 0 = true) := by decide +kernel

/-- The loop's tick, long after every delay. -/
def late (l : Loop) : Loop := { l with eng := { l.eng with tick := 100000000000 } }

/-- BLIND_MAX has elapsed in loop L0. -/
abbrev blindOver (s : State) : Prop :=
  s.loops[(0 : LoopId)].sn.blindAt + s.efN 0 (O.BLIND_MAX (0 : LoopId)) * 2000 ≤ s.loops[(0 : LoopId)].eng.tick

/-- Neither sense pin of L0 is open, and the loop measures its output. -/
abbrev pinsShut (s : State) : Prop :=
  s.getB (O.FBL_FLAGS (0 : LoopId)) 0 = false ∧ s.getB (O.FBL_FLAGS (0 : LoopId)) 1 = false ∧ observing s 0 = false

theorem witness_FeedbackReturn :
    (let s := sFbl 3 [(O.VS_STATE 0, 3)] fun l => { l with sn := { l.sn with good := 8 } }
     running s 0 = true ∧ observing s 0 = true ∧ 8 ≤ s.loops[(0 : LoopId)].sn.good ∧ s.loops[(0 : LoopId)].ctl.blindStop = false ∧
      s.loops[(0 : LoopId)].eng.tick < s.loops[(0 : LoopId)].sn.blindAt + s.efN 0 (O.BLIND_MAX (0 : LoopId)) * 2000) ∧
    (let s := sFbl 3 [(O.VS_STATE 0, 3)] late
     blindOver s ∧ running s 0 = true ∧ observing s 0 = true ∧ s.loops[(0 : LoopId)].ctl.blindStop = false ∧ standby s = false ∧
      s.getN (O.LOOP_STATE (0 : LoopId)) ≠ 4) ∧
    (let s := sFbl 4 [(O.VS_STATE 0, 3)] late
     blindOver s ∧ running s 0 = true ∧ observing s 0 = true ∧ standby s = false ∧ s.getN (O.LOOP_STATE (0 : LoopId)) = 4) ∧
    (let s := sFbl 3 [(O.VS_STATE 0, 3), (O.TW_ROLE, 2)] late
     blindOver s ∧ running s 0 = true ∧ observing s 0 = true ∧ standby s = true) ∧
    (let s := sFbl 3 [] fun l => late { l with sn := { l.sn with restoring := true, limit := 95 } }
     s.loops[(0 : LoopId)].sn.restoring = true ∧ s.loops[(0 : LoopId)].sn.limit < 100 ∧ s.loops[(0 : LoopId)].sn.backAt +
      ((s.loops[(0 : LoopId)].sn.limit - 50) / 5 + 1) * 20000 ≤ s.loops[(0 : LoopId)].eng.tick) ∧
    (Admitted (sFbl 0 [(O.VLS_FIT 0, 1)]) .can (O.VS_SRC_SEL (0 : LoopId)) [1] ∧ (sFbl 0 [(O.VLS_FIT 0, 1)]).isOn (O.VLS_FIT (0 : LoopId)) = true ∧
      (sFbl 0 [(O.VLS_FIT 0, 1)]).getN (O.LOOP_STATE (0 : LoopId)) = 0) ∧
    (Admitted (sFbl 0 [(O.VS_STATE 0, 2)]) .stream (O.VS_SRC_SEL (0 : LoopId)) [0] ∧ pinsShut (sFbl 0 [(O.VS_STATE 0, 2)]) ∧
      (sFbl 0 [(O.VS_STATE 0, 2)]).getN (O.LOOP_STATE (0 : LoopId)) = 0) ∧
    (Admitted (sFbl 3 [(O.VS_STATE 0, 2)]) .stream (O.VS_SRC_SEL (0 : LoopId)) [BitVec.ofNat 8 0] ∧ pinsShut (sFbl 3 [(O.VS_STATE 0, 2)]) ∧
      (sFbl 3 [(O.VS_STATE 0, 2)]).getN (O.LOOP_STATE (0 : LoopId)) ≠ 0) ∧
    (Admitted (sFbl 3 [(O.VLS_FIT 0, 1), (O.FBL_FLAGS 0, 0x20)]) .stream (O.VS_SRC_SEL (0 : LoopId)) [BitVec.ofNat 8 1] ∧
      (sFbl 3 [(O.VLS_FIT 0, 1), (O.FBL_FLAGS 0, 0x20)]).isOn (O.VLS_FIT (0 : LoopId)) = true ∧
      (sFbl 3 [(O.VLS_FIT 0, 1), (O.FBL_FLAGS 0, 0x20)]).getB (O.FBL_FLAGS (0 : LoopId)) 5 = true ∧
      (sFbl 3 [(O.VLS_FIT 0, 1), (O.FBL_FLAGS 0, 0x20)]).getN (O.LOOP_STATE (0 : LoopId)) ≠ 0) :=
  ⟨by decide +kernel, by decide +kernel, by decide +kernel, by decide +kernel, by decide +kernel,
    ⟨admits_sound (by decide +kernel), by decide +kernel⟩, ⟨admits_sound (by decide +kernel), by decide +kernel⟩,
    ⟨admits_sound (by decide +kernel), by decide +kernel⟩, admits_sound (by decide +kernel), by decide +kernel⟩

/-! ### Banks and tables -/

/-- The smallest bank image: one state, no measurement, every coefficient 0, and its CRC-32 (R164 to R167). -/
def imageOne : List Byte := [0, 1, 0x12, 0xB4, 1, 0xF0, 0x0F, 0] ++ List.replicate 1268 0 ++ [0x6B, 0xDA, 0x54, 0x2D]

/-- Every port has the level INTEGRATOR and has staged bytes of an object. -/
def sStaged (a : Addr) (bs : List Byte) (s : State := State.reset) : State :=
  { s with req := Vector.replicate 4 { level := 1, staging := [(a, bs)] } }

set_option maxRecDepth 20000 in
theorem witness_BankCommands :
    (Admitted (sStaged (O.BANK 0 3) imageOne) .stream (O.BANK_CMD (0 : LoopId)) [BitVec.ofNat 8 (0x10 + (3 : BankId).val)] ∧
      commitCheck (sStaged (O.BANK 0 3) imageOne) .stream 0 3 = 0) ∧
    (Admitted (keyed State.reset) .can (O.BANK_CMD (7 : LoopId)) [BitVec.ofNat 8 (0x10 + (0 : BankId).val)] ∧
      commitCheck (keyed State.reset) .can 7 0 ≠ 0) ∧
    (Admitted (keyed State.reset) .can (O.BANK_CMD (7 : LoopId)) [BitVec.ofNat 8 (0x20 + (3 : BankId).val)] ∧
      bankActive (keyed State.reset) 7 ≠ (3 : BankId).val ∧ bankState (keyed State.reset) 7 3 ≠ 1) ∧
    (Admitted (keyed (sOn [(O.BANK_ACTIVE 7, 3)])) .can (O.BANK_CMD (7 : LoopId)) [BitVec.ofNat 8 (0x20 + (3 : BankId).val)] ∧
      bankActive (keyed (sOn [(O.BANK_ACTIVE 7, 3)])) 7 = (3 : BankId).val) ∧
    (Admitted (keyed (sOn [(O.BANK_STATE 7, 1)])) .can (O.BANK_CMD (7 : LoopId)) [BitVec.ofNat 8 (0x20 + (0 : BankId).val)] ∧
      bankState (keyed (sOn [(O.BANK_STATE 7, 1)])) 7 0 = 1) ∧
    Admitted (keyed State.reset) .twoWire (O.BANK_CMD (7 : LoopId)) [BitVec.ofNat 8 (0x30 + (3 : BankId).val)] ∧
    bankState (setBankState State.reset 7 3 1) 7 3 = 1 :=
  ⟨⟨admits_sound (by decide +kernel), by decide +kernel⟩, ⟨admits_sound (by decide +kernel), by decide +kernel⟩,
    ⟨admits_sound (by decide +kernel), by decide +kernel⟩, ⟨admits_sound (by decide +kernel), by decide +kernel⟩,
    ⟨admits_sound (by decide +kernel), by decide +kernel⟩, admits_sound (by decide +kernel), by decide +kernel⟩

/-- Loop L0 in a state, bank 1 VALID, bank 0 active. -/
def sBank (st : Nat) : State := setBankState (sLoop st [(O.BANK_ACTIVE 0, 0)]) 0 1 2

theorem witness_BankSelection :
    Admitted State.reset .can (O.BANK_FORCE (7 : LoopId)) [255] ∧
    (Admitted (sBank 3) .can (O.BANK_FORCE (0 : LoopId)) [BitVec.ofNat 8 (1 : BankId).val] ∧ bankState (sBank 3) 0 (1 : BankId) = 2 ∧
      running (sBank 3) 0 = true) ∧
    (Admitted (sBank 1) .can (O.BANK_FORCE (0 : LoopId)) [BitVec.ofNat 8 (1 : BankId).val] ∧ bankState (sBank 1) 0 (1 : BankId) = 2 ∧
      (sBank 1).getN (O.LOOP_STATE (0 : LoopId)) = 1 ∧ bankActive (sBank 1) 0 ≠ (1 : BankId).val) ∧
    (Admitted (sBank 0) .can (O.BANK_FORCE (0 : LoopId)) [BitVec.ofNat 8 (1 : BankId).val] ∧ bankState (sBank 0) 0 (1 : BankId) = 2 ∧
      running (sBank 0) 0 = false ∧ (sBank 0).getN (O.LOOP_STATE (0 : LoopId)) ≠ 1) ∧
    (let s := sMod (setBankState (sBank 3) 0 3 2) fun l => { l with eng := { l.eng with eligible := [16, 15, 0, 16] } }
     autoRuns s 0 = true ∧ 3 < 4 ∧ bankState s 0 3 = 2 ∧ 16 ≤ s.loops[(0 : LoopId)].eng.eligible.getD 3 0 ∧
      ∀ j < 3, bankState s 0 j = 2 → s.loops[(0 : LoopId)].eng.eligible.getD j 0 < 16) :=
  ⟨admits_sound (by decide +kernel), ⟨admits_sound (by decide +kernel), by decide +kernel⟩,
    ⟨admits_sound (by decide +kernel), by decide +kernel⟩, ⟨admits_sound (by decide +kernel), by decide +kernel⟩, by decide +kernel⟩

theorem witness_EccAndGroundLaw :
    (running (sBank 3) 0 = true ∧ bankActive (sBank 3) 0 < 4) ∧
    (let s := sLoop 3 [(O.MISS_CONSEC 0, 4)]
     running s 0 = true ∧ grounded s 0 = false ∧ s.loops[(0 : LoopId)].eng.runNoted = false ∧ 4 ≤ s.getN (O.MISS_CONSEC (0 : LoopId))) ∧
    (let s := sLoop 3 [(O.MISS_CONSEC 0, 4), (O.ENG_FLAGS 0, 2)]
     running s 0 = true ∧ grounded s 0 = true ∧ s.loops[(0 : LoopId)].eng.runNoted = false ∧ 4 ≤ s.getN (O.MISS_CONSEC (0 : LoopId))) ∧
    (sMod (sLoop 3) fun l => { l with eng := { l.eng with noBank := true } }).loops[(0 : LoopId)].eng.noBank = true ∧
    (let s := sLoop 3 [(O.MISS_CONSEC 0, 64)]
     running s 0 = true ∧ 64 ≤ s.getN (O.MISS_CONSEC (0 : LoopId)) ∧ standby s = false) ∧
    (let s := sLoop 3 [(O.MISS_CONSEC 0, 64), (O.TW_ROLE, 2)]
     running s 0 = true ∧ standby s = true) ∧
    (let s := sMod (sLoop 3) fun l => { l with eng := { l.eng with bins := [(0, 1000)] } }
     running s 0 = true ∧ 1000 ≤ missWin s 0) ∧
    (let s := setBankState (sLoop 3 [(O.BANK_ACTIVE 0, 0), (O.ENG_FLAGS 0, 2)]) 0 0 2
     running s 0 = true ∧ grounded s 0 = true ∧ quietMs s 0 = true ∧ s.loops[(0 : LoopId)].eng.noBank = false ∧
      bankState s 0 (bankActive s 0) = 2) ∧
    (let s := setBankState (sLoop 3 [(O.BANK_ACTIVE 0, 0), (O.ENG_FLAGS 0, 2), (O.BANK_FORCE 0, 1)]) 0 1 2
     running s 0 = true ∧ grounded s 0 = true ∧ quietMs s 0 = true ∧ s.loops[(0 : LoopId)].eng.noBank = false ∧
      bankState s 0 (bankActive s 0) ≠ 2 ∧ bankNamed s 0 s.fb.vbus = some 1) := by
  decide +kernel

/-- Five entries of a timing table. -/
def timBytes : List Byte := (List.replicate 5 [0x28, 0x28, 0x50, 0x00]).flatten

theorem witness_TableCommands :
    (Admitted (sStaged (tabAddr .fbTim) timBytes) .can (tabAddr .fbTim + 1) [0xC5] ∧
      tabCheck (sStaged (tabAddr .fbTim) timBytes) .fbTim (staged (sStaged (tabAddr .fbTim) timBytes) .can (tabAddr .fbTim)) = none) ∧
    tabIdle State.reset .fbTim = true ∧
    (Admitted (keyed State.reset) .can (tabAddr (.rip 7) + 1) [0xC5] ∧
      tabCheck (keyed State.reset) (.rip 7) (staged (keyed State.reset) .can (tabAddr (.rip 7))) = some (0xA021, 255)) ∧
    Admitted (keyed State.reset) .stream (tabAddr (.lsat 23) + 1) [0x5C] ∧
    (let s := sOn [(tabAddr .fbTim + 2, 1)]
     tabPending s .fbTim = true ∨ s.getN (tabAddr .fbTim + 2) = 1) ∧
    (let s := sLoop 0 [(tabAddr (.rip 0) + 2, 1)] true
     masterOf s 0 = (0 : RegionId).val ∧ s.getN (tabAddr (.rip 0) + 2) = 1) ∧
    (let s := sLoop 0 [(tabAddr (.tim 0) + 2, 1)] true
     (regionsOf s 0).contains (1 : RegionId).val = true ∧ s.getN (tabAddr (.tim 0) + 2) = 1) ∧
    (let s := sOn [(tabAddr (.lsat 23) + 2, 1)]
     (23 : BlockId).val / 3 = (7 : RegionId).val ∧ s.getN (tabAddr (.lsat 23) + 2) = 1) :=
  ⟨⟨admits_sound (by decide +kernel), by decide +kernel⟩, by decide +kernel, ⟨admits_sound (by decide +kernel), by decide +kernel⟩,
    admits_sound (by decide +kernel), by decide +kernel⟩

/-! ### Sketch-ahead -/

/-- Loop L0 with the sketch state given. -/
def sSketch (st sk : Nat) (f : LoopSk → LoopSk := id) : State := sMod (sLoop st [(O.SK_STATE 0, sk)]) fun l => { l with sk := f l.sk }

theorem witness_SketchLife :
    (let s := sSketch 3 0 fun k => { k with pending := some ⟨1, 1, 1, 1⟩ }
     s.loops[(0 : LoopId)].sk.pending = some ⟨1, 1, 1, 1⟩ ∧ s.loops[(0 : LoopId)].sk.openAt ≤ s.loops[(0 : LoopId)].eng.sample + 1 ∧
      skState s 0 ≠ 1 ∧ loopState s 0 = 3 ∧ observing s 0 = false ∧ grounded s 0 = false ∧
      standby s = false) ∧
    (let s := sSketch 3 1 fun k => { k with pending := some ⟨1, 1, 1, 1⟩ }
     s.loops[(0 : LoopId)].sk.pending = some ⟨1, 1, 1, 1⟩ ∧ s.loops[(0 : LoopId)].sk.openAt ≤ s.loops[(0 : LoopId)].eng.sample + 1 ∧
      skState s 0 = 1 ∧ closeCause s 0 (movement s 0 (s.loops[(0 : LoopId)].sk.imeas.take 4)) = none) ∧
    (let s := sSketch 3 1 fun k => { k with pending := some ⟨1, 1, 1, 1⟩, cancel := true }
     s.loops[(0 : LoopId)].sk.pending = some ⟨1, 1, 1, 1⟩ ∧ s.loops[(0 : LoopId)].sk.openAt ≤ s.loops[(0 : LoopId)].eng.sample + 1 ∧
      skState s 0 = 1 ∧ closeCause s 0 (movement s 0 (s.loops[(0 : LoopId)].sk.imeas.take 4)) = some 0x11 ∧ 0x11 ≠ 1) ∧
    (let s := sMod (sSketch 3 1) fun l => { l with eng := { l.eng with tick := 10000000 } }
     skState s 0 = 1 ∧ sketchEndsAt s 0 < s.loops[(0 : LoopId)].eng.tick) ∧
    (let s := sSketch 3 3
     s.loops[(0 : LoopId)].sk.bias = 0 ∧ s.loops[(0 : LoopId)].sk.biasTo = 0 ∧ skState s 0 = 3 ∧ wokenGone s 0 = true) ∧
    (let s := sSketch 3 2
     s.loops[(0 : LoopId)].sk.bias = 0 ∧ s.loops[(0 : LoopId)].sk.biasTo = 0 ∧ skState s 0 = 2 ∧
      ∀ u, s.loops[(0 : LoopId)].sk.hold = some u → u ≤ s.loops[(0 : LoopId)].eng.tick) ∧
    (1 < 2 ∧ Admitted (sSketch 3 1) .can (O.SK_EN (0 : LoopId)) [BitVec.ofNat 8 1] ∧
      Admitted (sSketch 3 1) .can (O.SK_EN (0 : LoopId)) [BitVec.ofNat 8 0] ∧ skState (sSketch 3 1) 0 = 1) :=
  ⟨by decide +kernel, by decide +kernel, by decide +kernel, by decide +kernel, by decide +kernel,
    ⟨by decide +kernel, by decide +kernel, by decide +kernel, fun u h => nomatch (show (none : Option Nat) = some u from h)⟩, by decide,
    admits_sound (by decide +kernel), admits_sound (by decide +kernel), by decide +kernel⟩

/-! ### Pulses and phases -/

/-- Loop L0 regulating with cell 0 active, and that cell as given. -/
def sAct (c : Cell) (f : LoopPh → LoopPh := id) (l : List (Addr × Nat) := []) : State :=
  sMod ((sLoop 3 l).modCell 0 fun _ => c) fun l => { l with ph := f { l.ph with active := [0] } }

/-- The entry of L0's timing table at the band of cell 0, and the time of the cell's slot position. -/
def entry0 (s : State) : Nat := s.loops[(0 : LoopId)].eng.tim.getD (s.getN (O.TMON_BAND ((0 : CellId) / 4))) 0x505028
def slotTime0 (s : State) : Nat := s.loops[(0 : LoopId)].track[regionOf ((0 : CellId) / 12)].zero + s.getN (O.SLOT_POS (0 : CellId))

theorem witness_PulsesAndLedger :
    (let s := sLoop 3
     (regionsOf s 0).contains (0 : RegionId).val = true ∧ regionReady s (0 : RegionId) = true ∧ pllLocked s (0 : RegionId) = true ∧
      masterOf s 0 = (0 : RegionId).val ∧ isOff s 0 = false) ∧
    (let s := sAct { waking := true }
     loopOfCell s (0 : CellId) = some 0 ∧ (0 : CellId).val / 12 = (0 : RegionId).val ∧ s.cells[(0 : CellId)].waking = true ∧ cellStop s (0 : CellId) = 0) ∧
    (let s := sAct { stopped := false, onReq := 1 }
     loopOfCell s (0 : CellId) = some 0 ∧ switching s 0 = true ∧ s.cells[(0 : CellId)].onReq + s.get (O.LEDGER (0 : CellId)) < tonMin (entry0 s) ∧
      0 < s.cells[(0 : CellId)].onReq + s.get (O.LEDGER (0 : CellId))) ∧
    ([1, 1000].all fun x =>
      let s := sAct { stopped := false, onReq := x } id [(O.TW_ROLE, 2)]
      standby s && switching s 0 && !envInput s (.cell 0 1)) = true ∧
    (let s := sAct { stopped := false, onReq := 1000 }
     loopOfCell s (0 : CellId) = some 0 ∧ switching s 0 = true ∧
      (tonMin (entry0 s) : Int) ≤ s.cells[(0 : CellId)].onReq + s.get (O.LEDGER (0 : CellId)) ∧ envInput s (.cell 0 1) = false) ∧
    (let s := { sAct { stopped := false, onReq := 1000, edges := [499] } with inputs := [latchNo (.cell 0 1)] }
     let t := sMod s fun l => { l with track := l.track.set 0 { zero := 500 } }
     loopOfCell t (0 : CellId) = some 0 ∧ switching t 0 = true ∧ (tonMin (entry0 t) : Int) ≤ t.cells[(0 : CellId)].onReq + t.get (O.LEDGER (0 : CellId)) ∧
      (blankUntil t.cells[(0 : CellId)].edges (blankOf (entry0 t)) (slotTime0 t - 1)).isSome = true) ∧
    (let s := { sAct { stopped := false, onReq := 1000 } with inputs := [latchNo (.cell 0 1)] }
     loopOfCell s (0 : CellId) = some 0 ∧ switching s 0 = true ∧ isOff s 0 = false ∧
      (tonMin (entry0 s) : Int) ≤ s.cells[(0 : CellId)].onReq + s.get (O.LEDGER (0 : CellId)) ∧ envInput s (.cell 0 1) = true ∧
      blankUntil s.cells[(0 : CellId)].edges (blankOf (entry0 s)) (slotTime0 s - 1) = none) ∧
    (sAct { inPulse := true }).cells[(0 : CellId)].inPulse = true ∧
    (let s := sAct { stopped := true }
     loopOfCell s (0 : CellId) = some 0 ∧ s.cells[(0 : CellId)].stopped = true ∧ cellStop s (0 : CellId) = 0 ∧ running s 0 = true ∧
      s.loops[(0 : LoopId)].ph.active.contains (0 : CellId).val = true ∧ s.loops[(0 : LoopId)].ph.wake.contains (0 : CellId).val = false ∧
      s.cells[(0 : CellId)].waking = false) := by
  decide +kernel

theorem witness_CellDisables :
    (Admitted State.reset .can (O.CELL_DIS (95 : CellId)) [0] ∧ Admitted State.reset .can (O.CELL_DIS (95 : CellId)) [1]) ∧
    (Admitted State.reset .can (O.BLK_DIS (23 : BlockId)) [0] ∧ Admitted State.reset .can (O.BLK_DIS (23 : BlockId)) [1]) ∧
    Admitted State.reset .can (O.RG_PWM_DIS (7 : RegionId)) [0] ∧ Admitted State.reset .can (O.RG_PWM_DIS (7 : RegionId)) [1] :=
  ⟨⟨admits_sound (by decide +kernel), admits_sound (by decide +kernel)⟩, ⟨admits_sound (by decide +kernel), admits_sound (by decide +kernel)⟩,
    admits_sound (by decide +kernel), admits_sound (by decide +kernel)⟩

theorem imonAmps_gt_zero (s : State) (n : CellId) (c : Rat) (h : s.cells[n].gt = 0) : imonAmps s n c = 0 := by
  unfold imonAmps
  simp only [Fin.getElem_fin] at *
  rw [h, mul_zero]

theorem witness_PhaseManagement :
    (let s := sMod (sAct {} (fun p => { p with addAt := some 0 }) [(O.PH_AUTO 0, 1)]) fun l => { l with eng := { l.eng with tick := 10000000 } }
     s.loops[(0 : LoopId)].ph.addAt = some 0 ∧ s.efN 0 (O.PH_ADD_T (0 : LoopId)) * 200 ≤ s.loops[(0 : LoopId)].eng.tick - 0 ∧
      phasesHeld s 0 = false) ∧
    (let s := sMod (sAct {} (fun p => { p with active := [0, 1], shedAt := some 0 }) [(O.PH_AUTO 0, 1)]) fun l =>
      { l with eng := { l.eng with tick := 100000000 } }
     s.loops[(0 : LoopId)].ph.shedAt = some 0 ∧ s.efN 0 (O.PH_SHED_T (0 : LoopId)) * 2000 ≤ s.loops[(0 : LoopId)].eng.tick - 0 ∧
      shedHolds s 0 = true) ∧
    shedHolds (sAct {}) 0 = false ∧
    (let s := sAct {} (fun p => { p with active := [0, 1], changes := [.shed] })
     s.loops[(0 : LoopId)].ph.changes = [.shed] ∧ shedFits s 0 (planned s 0).length = true ∧
      (ranked s 0 (planned s 0)).getLast? = some (1 : CellId).val ∧ (1 : CellId).val ∈ planned s 0) ∧
    (let s := sAct {} (fun p => { p with wake := [0, 1] })
     s.loops[(0 : LoopId)].ph.wake = (0 : CellId).val :: [1] ∧ s.loops[(0 : LoopId)].ph.active.contains (0 : CellId).val = true ∧
      cellStop s (0 : CellId) = 0) ∧
    (let s := sAct { conv := [(0, 256)], shedding := true, gt := 0 }
     loopOfCell s (0 : CellId) = some 0 ∧ s.cells[(0 : CellId)].conv = [(0, 256)] ∧ s.cells[(0 : CellId)].shedding = true ∧
      s.cells[(0 : CellId)].inPulse = false ∧ s.cells[(0 : CellId)].edges.headD 0 ≤ ((0, 256) : Nat × Nat).1 ∧
      toAmp (imonAmps s 0 (imonTrimmed s 0 256)) ≤ s.ef 0 (O.PH_ZC_I (0 : LoopId)) ∧ releaseTurn s 0 0 0 = true ∧
      s.loops[(0 : LoopId)].ctl.ending = false) ∧
    (let s := sAct { shedding := true, shedPeriods := 5 }
     loopOfCell s (0 : CellId) = some 0 ∧ s.cells[(0 : CellId)].shedding = true ∧ 5 ≤ s.cells[(0 : CellId)].shedPeriods) ∧
    (let s := sAct {} (fun p => { p with active := [], enabling := true, gap := 1, rampN := 1 })
     s.loops[(0 : LoopId)].ph.enabling = true ∧ loopState s 0 = 3 ∧ s.loops[(0 : LoopId)].ph.turns = 0 ∧ 1 ≤ s.loops[(0 : LoopId)].ph.gap ∧
      s.loops[(0 : LoopId)].ph.active.length < s.loops[(0 : LoopId)].ph.rampN ∧ (addOrder s 0).find? (fun n => available s n &&
        !s.loops[(0 : LoopId)].ph.started.contains n && !s.loops[(0 : LoopId)].ph.active.contains n) = some (0 : CellId).val) ∧
    (let s := sAct {} (fun p => { p with enabling := true, gap := 2, turns := 1, rampN := 1 })
     s.loops[(0 : LoopId)].ph.enabling = true ∧ loopState s 0 = 3 ∧ s.loops[(0 : LoopId)].ph.turns ≠ 0 ∧ 2 ≤ s.loops[(0 : LoopId)].ph.gap ∧
      s.loops[(0 : LoopId)].ph.rampN ≤ s.loops[(0 : LoopId)].ph.active.length) := by
  refine ⟨by decide +kernel, by decide +kernel, by decide +kernel, by decide +kernel, by decide +kernel, ⟨by decide +kernel, by decide +kernel,
    by decide +kernel, by decide +kernel, by decide +kernel, ?_, by decide +kernel, by decide +kernel⟩, by decide +kernel, by decide +kernel,
    by decide +kernel⟩
  rw [imonAmps_gt_zero _ _ _ (by decide +kernel)]
  decide +kernel

/-! ### Loop FB -/

/-- Loop FB in a state, over its eight channels, with the objects given. -/
def sFb (st : Nat) (l : List (Addr × Nat) := []) (f : Fb → Fb := id) : State :=
  let s := sOn ([(O.FB_STATE, st), (O.FB_MASK, 255)] ++ l)
  { s with fb := f s.fb }

theorem witness_FbSampleAndPulses :
    (State.reset.chip.main = true ∧ State.reset.fb.pll = true ∧ ([1023, 0] : List (Fin 1024))[(1 : ChannelId).val]? = some 0) ∧
    State.reset.getN O.FB_MASK = 0 ∧
    ((sFb 2).chip.main = true ∧ (sFb 2).fb.pll = true ∧ (sFb 2).getN O.FB_MASK ≠ 0 ∧ (sFb 2).getN O.FB_STATE = 2) ∧
    (let s := sFb 3 [] fun b => { b with chan := b.chan.set 7 { started := true, onReq := 1 } }
     chansOn s ≠ [] ∧ (chansOn s).contains (7 : ChannelId).val = true ∧
      (let e := s.fb.tim.getD (s.getN O.DTC_BAND) 0x502828
       s.fb.chan[(7 : ChannelId)].onReq + (settleChan s 7 0).fb.chan[(7 : ChannelId)].ledger < dtLh e + fminPulse e)) ∧
    (let s := sFb 3 [] fun b => { b with chan := b.chan.set 7 { started := true, onReq := 500 } }
     (chansOn s).contains (7 : ChannelId).val = true ∧
      (let e := s.fb.tim.getD (s.getN O.DTC_BAND) 0x502828
       (dtLh e + fminPulse e : Int) ≤ s.fb.chan[(7 : ChannelId)].onReq + (settleChan s 7 0).fb.chan[(7 : ChannelId)].ledger)) ∧
    (let s := sFb 3 [] fun b => { b with chan := b.chan.set 7 { inPulse := true, fhFall := 100 } }
     s.fb.chan[(7 : ChannelId)].inPulse = true ∧ s.fb.chan[(7 : ChannelId)].fhFall ≤ 100) ∧
    (let s := sFb 3 [] fun b => { b with n := 10000, chan := b.chan.set 7 { limAt := some 0 } }
     s.fb.chan[(7 : ChannelId)].limAt = some 0 ∧ 0 + 10000 ≤ s.fb.n ∧ s.fb.chan[(7 : ChannelId)].trimAt = none) := by decide +kernel

theorem witness_LoopFbStates :
    (Admitted (sFb 0 [] fun b => { b with affected := true }) .can O.FB_CMD [1] ∧ (sFb 0 [] fun b => { b with affected := true }).getN O.FB_STATE = 0 ∧
      (sFb 0 [] fun b => { b with affected := true }).fb.affected = true) ∧
    (Admitted (sFb 0) .can O.FB_CMD [1] ∧ (sFb 0).getN O.FB_STATE = 0 ∧ (sFb 0).getN O.FB_MASK ≠ 0 ∧ (sFb 0).fb.affected = false) ∧
    (Admitted (sFb 3) .can O.FB_CMD [2] ∧ ∀ k : LoopId, (sFb 3).getN (O.LOOP_STATE k) = 0 ∨ 5 ≤ (sFb 3).getN (O.LOOP_STATE k)) ∧
    (Admitted State.reset .can O.FB_CMD [2] ∧ State.reset.getN O.FB_MASK = 0) ∧
    (let s := sFb 1 [] fun b => { b with vin := 48 }
     s.getN O.START_STEP ≠ 5 ∧ s.getN O.FB_STATE = 1 ∧ fbCanStart s = true) ∧
    (let s := sFb 0 [(O.START_STEP, 5), (O.FB_AUTO, 1)]
     s.getN O.START_STEP = 5 ∧ s.isOn O.FB_AUTO = true ∧ s.getN O.FB_STATE = 0 ∧ s.getN O.FB_MASK ≠ 0 ∧ passive s = false ∧
      s.fb.affected = false) ∧
    ((sFb 2).getN O.FB_STATE = 2 ∧ 2 ≤ (sFb 2).fb.gap ∧
      (chansReady (sFb 2)).find? (fun n => !(sFb 2).fb.chan[chanOf n].started) = some (0 : ChannelId).val) ∧
    (let s := sFb 2 [] fun b => { b with vcmd := ((sFb 2).getN O.FB_VSTART : Rat) / 1000, vbus := ((sFb 2).getN O.FB_VSTART : Rat) / 1000 + 1 / 5 }
     s.getN O.FB_STATE = 2 ∧ s.fb.vcmd = (s.getN O.FB_VSTART : Rat) / 1000 ∧ absR (s.fb.vbus - s.fb.vcmd) ≤ 1 / 5) ∧
    (let s := { sFb 2 with uptime := 10000000 }
     s.getN O.FB_STATE = 2 ∧ s.fb.ssAt + s.getN O.FB_SS_TMO * 1000 ≤ s.uptime) :=
  ⟨⟨admits_sound (by decide +kernel), by decide +kernel⟩, ⟨admits_sound (by decide +kernel), by decide +kernel⟩,
    ⟨admits_sound (by decide +kernel), by decide +kernel⟩, ⟨admits_sound (by decide +kernel), by decide +kernel⟩, by decide +kernel⟩

theorem witness_BusBudgetAndSettings :
    State.reset.getN O.FB_MASK = 0 ∧ ((sFb 3).getN O.FB_MASK ≠ 0 ∧ (sFb 3).getN O.FB_STATE = 3) ∧
    ((sFb 5).getN O.FB_MASK ≠ 0 ∧ (sFb 5).getN O.FB_STATE ≠ 0 ∧ (sFb 5).getN O.FB_STATE ≠ 3) ∧
    (Admitted (sFb 3) .can O.FCH_DIS [0xFF] ∧ bit (0xFF : Byte).toNat (7 : ChannelId) = true) ∧ Admitted (keyed (sFb 3)) .can O.BS_MODE [1] :=
  ⟨by decide +kernel, by decide +kernel, by decide +kernel, ⟨admits_sound (by decide +kernel), by decide +kernel⟩,
    admits_sound (by decide +kernel)⟩

/-! ### Loop states -/

/-- Loop L0 with a VALID bank 0 that fits every bus voltage, selected by BANK_FORCE. -/
def sArm (st : Nat) (l : List (Addr × Nat) := []) (f : Loop → Loop := id) : State :=
  sMod (setBankState (sLoop st ([(O.BANK_FORCE 0, 0), (O.TOPO_STATUS, 2)] ++ l)) 0 0 2) f

theorem witness_LoopOnAndOff :
    (Admitted (sArm 0 [(O.ON_SRC 0, 0)]) .can (O.LOOP_CMD (0 : LoopId)) [1] ∧ (sArm 0 [(O.ON_SRC 0, 0)]).getN (O.ON_SRC (0 : LoopId)) = 0 ∧ armReason (sArm 0 [(O.ON_SRC 0, 0)]) 0 = 0 ∧
      (sArm 0 [(O.ON_SRC 0, 0)]).getN (O.LOOP_STATE (0 : LoopId)) = 0 ∧ burnishBad (sArm 0 [(O.ON_SRC 0, 0)]) 0 = false) ∧
    (Admitted (sArm 3) .can (O.LOOP_CMD (0 : LoopId)) [1] ∧ (sArm 3).getN (O.LOOP_STATE (0 : LoopId)) ≠ 0) ∧
    ((sArm 0 [(O.ON_SRC 0, 2)]).getN (O.ON_SRC (0 : LoopId)) ≠ 1 ∧ (sArm 0 [(O.ON_SRC 0, 2)]).getN (O.ON_SRC (0 : LoopId)) ≠ 0 ∧
      (sArm 0 [(O.ON_SRC 0, 2)]).loops[(0 : LoopId)].ctl.en = false) ∧
    (Admitted (sArm 4) .can (O.LOOP_CMD (0 : LoopId)) [if false then 3 else 2] ∧ Admitted (sArm 2) .can (O.LOOP_CMD (0 : LoopId)) [if true then 3 else 2] ∧
      standby (sArm 4) = false ∧ standby (sArm 2) = false) ∧
    (let s := sArm 0 [(O.ON_SRC 0, 1)]
     s.chip.main = true ∧ s.getN (O.LOOP_STATE (0 : LoopId)) = 0 ∧ s.getN (O.ON_SRC (0 : LoopId)) = 1 ∧ armReason s 0 = 0 ∧ burnishBad s 0 = false) ∧
    ((sArm 0 [(O.ON_SRC 0, 0)]).getN (O.ON_SRC (0 : LoopId)) = 0 ∧ (sArm 0 [(O.ON_SRC 0, 0)]).isOn (O.LOOP_REQ (0 : LoopId)) = false) ∧
    (let s := sArm 3 [(O.ON_SRC 0, 1)]
     s.getN (O.ON_SRC (0 : LoopId)) ≠ 0 ∧ standby s = false) :=
  ⟨⟨admits_sound (by decide +kernel), by decide +kernel⟩, ⟨admits_sound (by decide +kernel), by decide +kernel⟩, by decide +kernel,
    ⟨admits_sound (by decide +kernel), admits_sound (by decide +kernel), by decide +kernel⟩, by decide +kernel⟩

theorem witness_ArmedRampAndPgood :
    ((sArm 1).getN (O.LOOP_STATE (0 : LoopId)) = 1 ∧ (sArm 1).isOn (O.PREBIAS (0 : LoopId)) = true) ∧
    (let s := { sArm 1 with uptime := 10000 }
     s.getN (O.LOOP_STATE (0 : LoopId)) = 1 ∧ s.loops[(0 : LoopId)].ctl.armedNoted = false ∧ s.loops[(0 : LoopId)].ctl.armedAt + 10000 ≤ s.uptime) ∧
    (let s := { sArm 1 [] (fun l => { l with ctl := { l.ctl with winZero := true, preDone := true } }) with
                fb := { State.reset.fb with vbus := 12 }, cells := Vector.replicate 96 { zeroDone := true }, uptime := 100000 }
     s.getN (O.LOOP_STATE (0 : LoopId)) = 1 ∧ rampUnmet s 0 = 0 ∧ standby s = false ∧ s.getB (O.FBL_FLAGS (0 : LoopId)) 0 = false ∧
      s.getB (O.FBL_FLAGS (0 : LoopId)) 1 = false) ∧
    (let s := { sArm 1 [(O.FBL_FLAGS 0, 2)] (fun l => { l with ctl := { l.ctl with winZero := true, preDone := true } }) with
                fb := { State.reset.fb with vbus := 12 }, cells := Vector.replicate 96 { zeroDone := true }, uptime := 100000 }
     s.getN (O.LOOP_STATE (0 : LoopId)) = 1 ∧ rampUnmet s 0 = 0 ∧ standby s = false ∧ s.getB (O.FBL_FLAGS (0 : LoopId)) 1 = true) ∧
    (let s := sArm 3 [] fun l => { l with ctl := { l.ctl with pgSince := some 0 }, eng := { l.eng with tick := 10000000 } }
     s.loops[(0 : LoopId)].ctl.pgSince = some 0 ∧ s.getN (O.LOOP_STATE (0 : LoopId)) = 3 ∧ observing s 0 = false ∧
      s.isOn (O.PG_STAT (0 : LoopId)) = false ∧ 0 + s.efN 0 (O.PG_DLY (0 : LoopId)) * 2000 ≤ s.loops[(0 : LoopId)].eng.tick) ∧
    ((sArm 0).getN (O.LOOP_STATE (0 : LoopId)) ≠ 3 ∧ passive (sArm 0) = false ∧ passive (sArm 0 [(O.TW_ROLE, 2)]) = true) ∧
    (let s := sArm 3 [] fun l => { l with ctl := { l.ctl with pgOut := 16 } }
     observing s 0 = false ∧ 16 ≤ s.loops[(0 : LoopId)].ctl.pgOut) := by decide +kernel

theorem witness_SetpointSources :
    (State.reset.chip.main = true ∧ State.reset.isOn (O.SPIN_MODE (7 : LoopId)) = false ∧
      (sOn [(O.SPIN_MODE 7, 1)]).isOn (O.SPIN_MODE (7 : LoopId)) = true) ∧
    (let s := sMod (sLoop 3 [(O.OWN_MAP 0, 1), (O.SP_SRC 0, 1)]) fun l => { l with sp := { l.sp with vrefZero := 64 } }
     s.chip.main = true ∧ lostNow s 0 .amdin = true ∧ lostNow s 0 .vrefin = true ∧ lostNow s 0 .spin = false ∧ srcLost s 0 (srcCode .vrefin) = false ∧
      s.getN (O.SP_SRC (0 : LoopId)) = srcCode .vrefin ∧ onOrArmed s 0 = true) ∧
    (let s := sMod (sLoop 3) fun l => { l with sp := { l.sp with quiet := Vector.replicate 3 64 } }
     s.chip.main = true ∧ ∀ x ∈ [SpSource.amdin, .vrefin, .spin], lostNow s 0 x = false ∧ 64 ≤ quietOf s 0 x) ∧
    (let s := { sMod (sLoop 3 [(O.SRC_LOSS_ACT 0, 0)]) (fun l => { l with sp := { l.sp with lostAt := some 0 } }) with uptime := 100000000 }
     s.loops[(0 : LoopId)].sp.lostAt = some 0 ∧ onOrArmed s 0 = true ∧ 0 + s.efN 0 (O.SRC_LOSS_T (0 : LoopId)) ≤ s.uptime ∧
      s.efN 0 (O.SRC_LOSS_ACT (0 : LoopId)) = 0) ∧
    (let s := { sMod (sLoop 3 [(O.SRC_LOSS_ACT 0, 1)]) (fun l => { l with sp := { l.sp with lostAt := some 0 } }) with uptime := 100000000 }
     s.loops[(0 : LoopId)].sp.lostAt = some 0 ∧ onOrArmed s 0 = true ∧ 0 + s.efN 0 (O.SRC_LOSS_T (0 : LoopId)) ≤ s.uptime ∧
      s.efN 0 (O.SRC_LOSS_ACT (0 : LoopId)) ≠ 0 ∧ standby s = false ∧ s.getN (O.LOOP_STATE (0 : LoopId)) ≠ 1) ∧
    (Admitted (sLoop 0) .can (O.SP_SRC (0 : LoopId)) [2] ∧ (sLoop 0).getN (O.LOOP_STATE (0 : LoopId)) = 0) ∧
    (Admitted (sLoop 3 [(O.OWN_MAP 0, 1), (O.SP_SRC 0, 1)]) .can (O.SP_SRC (0 : LoopId)) [0] ∧
      ownerOf (sLoop 3 [(O.OWN_MAP 0, 1), (O.SP_SRC 0, 1)]) 0 ≠ none ∧ (sLoop 3 [(O.OWN_MAP 0, 1), (O.SP_SRC 0, 1)]).getN (O.LOOP_STATE (0 : LoopId)) = 3 ∧
      srcLost (sLoop 3 [(O.OWN_MAP 0, 1), (O.SP_SRC 0, 1)]) 0 (0 : Byte).toNat = false ∧
      (sLoop 3 [(O.OWN_MAP 0, 1), (O.SP_SRC 0, 1)]).getN (O.SP_SRC (0 : LoopId)) ≠ (0 : Byte).toNat) :=
  ⟨by decide +kernel, by decide +kernel, by decide +kernel, by decide +kernel, by decide +kernel,
    ⟨admits_sound (by decide +kernel), by decide +kernel⟩, admits_sound (by decide +kernel), by decide +kernel⟩

/-! ### Protection -/

theorem witness_CellAndBlockTrips :
    (let s := sAct { stopped := false, edges := [100] }
     cellBlanked s (0 : CellId) 100 (some 101) = true ∧ s.cells[(0 : CellId)].low = false ∧ cellBlanked s (0 : CellId) 100 none = false) ∧
    (let s := sAct { low := true } id [(O.LOOP_FLT 0, 1)]
     loopOfCell s (0 : CellId) = some 0 ∧ cellWatched s (0 : CellId) = true ∧ s.cells[(0 : CellId)].low = true ∧ isOff s 0 = false) ∧
    (let s := sAct { stopped := false, onReq := 1000 }
     loopOfCell s (0 : CellId) = some 0 ∧ cellWatched s (0 : CellId) = true ∧ latchSet s (.cell 0 0) = false ∧ latchSet s (.cell 0 2) = false ∧
      isOff s 0 = false ∧ cellBlanked s (0 : CellId) 0 none = false) ∧
    (let s := sAct { stopped := false, edges := [100] }
     loopOfBlock s (0 : BlockId) = some 0 ∧ bfltIgnored s 0 0 100 (some 101) = true ∧ bfltIgnored s 0 0 100 none = false) ∧
    (loopOfBlock (sLoop 3) (0 : BlockId) = some 0 ∧ latchSet (sLoop 3) (.block 0) = false ∧ isOff (sLoop 3) 0 = false ∧
      bfltIgnored (sLoop 3) 0 0 0 none = false) := by decide +kernel

/-- The regulating loop L0 with the given counters of its comparators. -/
def sSn (f : LoopSense → LoopSense) : State := sMod (sLoop 3) fun l => { l with sn := f l.sn, eng := { l.eng with tick := 10000000 } }

theorem witness_LoopTrips :
    (running (sLoop 2) 0 = true ∧ latchSet (sLoop 2) (.loop 0 (loopBit .ovpAbs)) = false) ∧
    (let s := sSn fun n => { n with ovSet := 1000 }
     observing s 0 = false ∧ s.efN 0 (O.OVP_SET_N (0 : LoopId)) ≤ s.loops[(0 : LoopId)].sn.ovSet ∧ running s 0 = true ∧
      latchSet s (.loop 0 (loopBit .ovpSet)) = false) ∧
    (let s := sSn fun n => { n with uvSince := some 0 }
     loopState s 0 = 3 ∧ observing s 0 = false ∧ lasted s 0 s.loops[(0 : LoopId)].sn.uvSince (s.efN 0 (O.UVP_T (0 : LoopId))) = true ∧
      running s 0 = true ∧ latchSet s (.loop 0 (loopBit .uvp)) = false) ∧
    (let s := sSn fun n => { n with itSince := some 0 }
     lasted s 0 s.loops[(0 : LoopId)].sn.itSince (s.efN 0 (O.ITRIP_T (0 : LoopId))) = true ∧ running s 0 = true ∧
      latchSet s (.loop 0 (loopBit .itrip)) = false) ∧
    (let s := sSn fun n => { n with busLo := 26, busHi := 26 }
     26 ≤ s.loops[(0 : LoopId)].sn.busLo ∧ 26 ≤ s.loops[(0 : LoopId)].sn.busHi ∧ running s 0 = true ∧
      latchSet s (.loop 0 (loopBit .vbusLo)) = false ∧ latchSet s (.loop 0 (loopBit .vbusHi)) = false) ∧
    (let s := sFb 3 [] fun b => { b with fbOv := 11, fbUv := 11, vinUv := 4 }
     11 ≤ s.fb.fbOv ∧ s.getN O.FB_STATE = 3 ∧ 11 ≤ s.fb.fbUv ∧ 4 ≤ s.fb.vinUv ∧ s.getN O.FB_STATE ≠ 0 ∧ latchSet s (.fb 0) = false ∧
      latchSet s (.fb 1) = false ∧ latchSet s (.fb 2) = false ∧ latchSet s (.fb 3) = false ∧ latchSet s (.foc 7) = false ∧
      focBlanked s 7 0 none = false) ∧
    focBlanked (sFb 3 [] fun b => { b with chan := b.chan.set 7 { past := [100] } }) 7 100 (some 101) = true := by decide +kernel

/-- The waiting policy of loop L0. -/
def sPol (p : Nat) (l : List (Addr × Nat) := []) : State := sMod (sLoop 3 l) fun x => { x with ctl := { x.ctl with trip := some p } }

theorem witness_PoliciesAct :
    (let s := sPol 1
     s.twin.abdDue = false ∧ s.loops[(0 : LoopId)].ctl.trip = some 1 ∧ standby s = false ∧ s.getN (O.LOOP_STATE (0 : LoopId)) = 3) ∧
    (let s := sPol 0
     s.twin.abdDue = false ∧ s.loops[(0 : LoopId)].ctl.trip = some 0 ∧ standby s = false ∧ s.getN (O.LOOP_STATE (0 : LoopId)) = 3 ∧
      s.getN (O.RETRY_LEFT (0 : LoopId)) ≠ 0 ∧ (cellsOf s 0).contains (3 : CellId).val = true) ∧
    (let s := sPol 0 [(O.RETRY_LEFT 0, 0)]
     s.twin.abdDue = false ∧ s.loops[(0 : LoopId)].ctl.trip = some 0 ∧ standby s = false ∧ s.getN (O.LOOP_STATE (0 : LoopId)) = 3 ∧
      s.getN (O.RETRY_LEFT (0 : LoopId)) = 0) ∧
    (let s := sPol 2
     s.twin.abdDue = false ∧ s.loops[(0 : LoopId)].ctl.trip = some 2) ∧
    (let s := sFb 3 [] fun b => { b with trip := some 1 }
     s.twin.abdDue = false ∧ s.fb.trip = some 1 ∧ standby s = false ∧ s.getN O.FB_STATE = 3) ∧
    (let s := sFb 3 [] fun b => { b with trip := some 0 }
     s.twin.abdDue = false ∧ s.fb.trip = some 0 ∧ standby s = false ∧ s.getN O.FB_STATE = 3) ∧
    (let s := sOn [(O.TW_ROLE, 1)]
     let t := { s with twin := { s.twin with abdDue := true, peer := some { ready := true } } }
     t.twin.abdDue = true ∧ role t = 1 ∧ peerReady t = true) := by decide +kernel

theorem witness_LatchClearing :
    (Admitted (sLoop 3 [(O.LOOP_FLT 0, 1)]) .can (latchObjAddr (.loop 0)) (leBytes (latchObjBytes (.loop 0)) 1) ∧
      (∀ b ∈ latchBits (.loop 0), bit 1 b = true → inactiveLong (sLoop 3 [(O.LOOP_FLT 0, 1)]) (latchField (.loop 0) b) = true) ∧
      ∀ k : LoopId, (sLoop 3 [(O.LOOP_FLT 0, 1)]).getN (O.LOOP_STATE k) ≠ 6) ∧
    (Admitted (sFb 6 [(O.FB_FLT, 1)]) .can (latchObjAddr .fb) (leBytes (latchObjBytes .fb) 1) ∧
      (∀ b ∈ latchBits .fb, bit 1 b = true → inactiveLong (sFb 6 [(O.FB_FLT, 1)]) (latchField .fb b) = true) ∧
      (sFb 6 [(O.FB_FLT, 1)]).getN O.FB_STATE = 6) ∧
    (let s := { sOn [(O.CELL_FLT 95, 1)] with seen := [(latchNo (.cell 95 0), ⟨1, 1⟩)] }
     Admitted s .can (latchObjAddr (.cell 95)) (leBytes (latchObjBytes (.cell 95)) 1) ∧ (0 : Nat) ∈ latchBits (.cell 95) ∧ bit 1 0 = true ∧
      inactiveLong s (latchField (.cell 95) 0) = false) :=
  ⟨⟨admits_sound (by decide +kernel), by decide +kernel⟩, ⟨admits_sound (by decide +kernel), by decide +kernel⟩,
    admits_sound (by decide +kernel), by decide +kernel⟩

/-- RETRY_INT has passed in loop L0. -/
abbrev retryDue (s : State) : Prop := s.loops[(0 : LoopId)].ctl.retryAt + 100 * s.getN (O.RETRY_INT (0 : LoopId)) ≤ s.uptime

theorem witness_Retries :
    ((sArm 5).uptime < (sArm 5).loops[(0 : LoopId)].ctl.retryAt + 100 * (sArm 5).getN (O.RETRY_INT (0 : LoopId)) ∧
      (sArm 5).uptime < (sArm 5).fb.retryAt + 100 * (sArm 5).getN O.FB_RETRY_INT) ∧
    (let s := { sArm 5 [(O.RETRY_LEFT 0, 0)] with uptime := 10000000 }
     retryDue s ∧ s.chip.therm = false ∧ s.getN (O.LOOP_STATE (0 : LoopId)) = 5 ∧ s.getN (O.RETRY_LEFT (0 : LoopId)) = 0) ∧
    (let s := { sArm 5 [(O.LOOP_FLT 0, 4)] with seen := [(latchNo (.loop 0 2), ⟨10000000, 1⟩)], uptime := 10000000 }
     retryDue s ∧ s.chip.therm = false ∧ s.getN (O.LOOP_STATE (0 : LoopId)) = 5 ∧ s.getN (O.RETRY_LEFT (0 : LoopId)) ≠ 0 ∧
      (setLatches s (latchesOf s 0)).all (inactiveLong s) = false) ∧
    (let s := { sArm 5 [(O.LOOP_FLT 0, 4)] with uptime := 10000000 }
     retryDue s ∧ s.chip.therm = false ∧ s.getN (O.LOOP_STATE (0 : LoopId)) = 5 ∧ s.getN (O.RETRY_LEFT (0 : LoopId)) ≠ 0 ∧
      (setLatches s (latchesOf s 0)).all (inactiveLong s) = true ∧ bankFor s 0 s.fb.vbus = some 0 ∧ burnishBad s 0 = false) ∧
    (let s := { sFb 5 [(O.FB_FLT, 1)] with uptime := 10000000 }
     s.fb.retryAt + 100 * s.getN O.FB_RETRY_INT ≤ s.uptime ∧ s.chip.therm = false ∧ s.getN O.FB_STATE = 5 ∧ s.fb.retryLeft ≠ 0 ∧ (setLatches s fbLatches).all (inactiveLong s) = true) ∧
    (let s := { sFb 5 [] fun b => { b with retryLeft := 0 } with uptime := 10000000 }
     s.fb.retryAt + 100 * s.getN O.FB_RETRY_INT ≤ s.uptime ∧ s.chip.therm = false ∧ s.getN O.FB_STATE = 5 ∧ s.fb.retryLeft = 0) ∧
    (let s := { sLoop 3 with uptime := 100000000 }
     s.getN (O.LOOP_STATE (0 : LoopId)) = 3 ∧ s.loops[(0 : LoopId)].ctl.regAt + s.getN (O.RETRY_CLR_T (0 : LoopId)) * 1000 ≤ s.uptime) ∧
    (let s := { sFb 3 with uptime := 1000000 }
     s.getN O.FB_STATE = 3 ∧ s.fb.regAt + 1000000 ≤ s.uptime) := by decide +kernel

theorem witness_HatchingTree :
    (let m : Msg := { to_ := .chip, from_ := none, cause := ⟨.itrip, .loop 0⟩, summary := false, unit := .loop 0, event := 0x0223 }
     let s := { State.reset with tree := { State.reset.tree with flight := [m] } }
     s.tree.flight = m :: [] ∧ m.to_ = .chip ∧ m.summary = false ∧ s.tree.roots = []) ∧
    (let g : Root := { cause := ⟨.itrip, .loop 0⟩, event := 0x0223, unit := .loop 0, openedAt := 0, closed := true }
     let s := { State.reset with tree := { State.reset.tree with roots := [g] } }
     s.tree.roots.find? (fun g => g.closed && g.owed.isEmpty) = some g ∧ s.tree.quiet.find? (fun e => e.1 == g.cause) = none) := by decide +kernel

/-! ### Amdin links -/

/-- Loop L0 owned by the first port, whose link is in the given state, with the port's own state as given. -/
def sAml (st link : Nat) (l : List (Addr × Nat) := []) (f : Aml → Aml := id) : State :=
  let s := sLoop st ([(O.OWN_MAP (0 : Nat), 1), (O.AML_EN (0 : Nat), 1), (O.LINK_STATE (0 : Nat), link), (O.SP_SRC 0, 0)] ++ l)
  { s with aml := s.aml.set 0 (f s.aml[(0 : PortId)]) }

/-- Whether a frame with the payload meets the premises that the frames of L0 share. -/
def okUp (s : State) (ty : Nat) (v : Nat) : Bool :=
  decide (linkTakes s 0 = true ∧ frameCheck s 0 ty (0 : BitVec 4).toNat (BitVec.ofNat 24 v).toNat = 0 ∧
    (0 : LoopId) = loopOf (0 : BitVec 4).toNat ∧ cutOff s 0 = false)

theorem witness_AmdinLoopFrames :
    (okUp (sAml 3 3) up.SETV 4000 ∧ (sAml 3 3).getN (O.SP_SRC (0 : LoopId)) = 0 ∧ (sAml 3 3).getN (O.LOOP_STATE (0 : LoopId)) < 4) ∧
    (okUp (sAml 3 3 [(O.SP_SRC 0, 1)]) up.SETV 4000 ∧ (sAml 3 3 [(O.SP_SRC 0, 1)]).getN (O.SP_SRC (0 : LoopId)) ≠ 0) ∧
    (okUp (sAml 4 3) up.SETV 4000 ∧ 4 ≤ (sAml 4 3).getN (O.LOOP_STATE (0 : LoopId))) ∧
    okUp (sAml 3 3) up.SLEW 1000 ∧
    (okUp (sAml 0 3) up.PSTATE 8 ∧ (sAml 0 3).getN (O.LOOP_STATE (0 : LoopId)) = 0) ∧
    (okUp (sAml 3 3) up.PSTATE 8 ∧ (sAml 3 3).getN (O.LOOP_STATE (0 : LoopId)) = 3 ∧ (sAml 3 3).loops[(0 : LoopId)].ph.enabling = false) ∧
    (okUp (sAml 2 3) up.PSTATE 8 ∧ (sAml 2 3).getN (O.LOOP_STATE (0 : LoopId)) = 2) ∧
    (let s := sAml 3 3 [(O.SK_EN 0, 1)]
     let v := 3 * 2 ^ 21 + 5 * 2 ^ 13 + 4000
     okUp s up.PRENOTIFY v ∧ standby s = false ∧ s.getN (O.LOOP_STATE (0 : LoopId)) = 3 ∧ observing s 0 = false ∧ grounded s 0 = false ∧
      s.isOn (O.SK_EN (0 : LoopId)) = true ∧ signOf 13 (bits v 0 13) ≠ 0 ∧ s.efN 0 (O.SK_CONF_MIN (0 : LoopId)) ≤ bits v 21 2 ∧ skState s 0 ≠ 1) ∧
    (let s := sMod (sAml 3 3 [(O.SK_EN 0, 1), (O.SK_STATE 0, 1)]) fun l => { l with sk := { l.sk with notice := ⟨-3999, 1, 1, 0⟩ } }
     let v := 3 * 2 ^ 21 + 5 * 2 ^ 13 + 4000
     okUp s up.PRENOTIFY v ∧ standby s = false ∧ s.getN (O.LOOP_STATE (0 : LoopId)) = 3 ∧ observing s 0 = false ∧ grounded s 0 = false ∧
      s.isOn (O.SK_EN (0 : LoopId)) = true ∧ signOf 13 (bits v 0 13) ≠ 0 ∧ s.efN 0 (O.SK_CONF_MIN (0 : LoopId)) ≤ bits v 21 2 ∧ skState s 0 = 1 ∧
      s.loops[(0 : LoopId)].sk.notice.di.natAbs < (signOf 13 (bits v 0 13)).natAbs) ∧
    okUp (sAml 3 3) up.CANCEL 0 ∧ okUp (sAml 3 3 [(O.SK_STATE 0, 1)]) up.CANCEL 0 ∧ okUp (sAml 3 3) up.READ 8 ∧ okUp (sAml 3 3) up.LOADI 65535 := by decide +kernel

theorem witness_AmdinRefusedFrames :
    (linkTakes (sAml 3 3) 0 = true ∧ frameCheck (sAml 3 3) 0 up.SETV (1 : BitVec 4).toNat (0 : BitVec 24).toNat = rep.OWNER ∧
      frameCheck (sAml 3 3) 0 up.IDLE (0 : BitVec 4).toNat (0 : BitVec 24).toNat = rep.FORMAT ∧
      frameCheck (sAml 3 3) 0 up.SLEW (0 : BitVec 4).toNat (0 : BitVec 24).toNat = rep.RANGE) ∧
    (let s := (sAml 3 3).modRegion 0 fun g => { g with cut := true }
     linkTakes s 0 = true ∧ frameCheck s 0 up.READ (0 : BitVec 4).toNat (1 : BitVec 24).toNat = 0 ∧ cutOff s (loopOf (0 : BitVec 4).toNat) = true) ∧
    ((sAml 3 3).getN (O.LINK_STATE (0 : PortId)) = 3 ∧ amlCrc ((1 : BitVec 40).toNat / 256) ≠ (1 : BitVec 40).toNat % 256) ∧
    (let f : BitVec 40 := BitVec.ofNat 40 (0x9000_0000 * 256 + amlCrc 0x9000_0000)
     (sAml 3 3).getN (O.LINK_STATE (0 : PortId)) ≠ 0 ∧ amlCrc (f.toNat / 256) = f.toNat % 256 ∧ 9 ≤ bits f.toNat 36 4 ∧ bits f.toNat 36 4 ≠ 14 ∧
      linkTakes (sAml 3 3) 0 = true) := by decide +kernel

theorem witness_AmdinPortFrames :
    (linkTakes (sAml 3 3) 0 = true ∧ frameCheck (sAml 3 3) 0 up.IDLE (15 : BitVec 4).toNat (255 : BitVec 24).toNat = 0) ∧
    (let s := sAml 3 3 [] fun m => { m with out := m.out.set 8 (some (1, 7)) }
     linkTakes s 0 = true ∧ frameCheck s 0 up.ALACK (15 : BitVec 4).toNat (7 : BitVec 24).toNat = 0 ∧
      s.aml[(0 : PortId)].out[Fin.ofNat 9 (min (15 : BitVec 4).toNat 8)] = some (1, (7 : BitVec 24).toNat) ∧
      s.aml[(0 : PortId)].out[Fin.ofNat 9 (min (0 : BitVec 4).toNat 8)] = none ∧
      frameCheck s 0 up.ALACK (0 : BitVec 4).toNat (7 : BitVec 24).toNat = 0) ∧
    (let s := sAml 3 1 [] fun m => { m with phase := some .pattern, content := 5 }
     let v := BitVec.ofNat 24 (2 * 2 ^ 20 + 5)
     passive s = false ∧ s.getN (O.LINK_STATE (0 : PortId)) ∈ [1, 2, 4] ∧ frameCheck s 0 up.TRAIN (15 : BitVec 4).toNat v.toNat = 0 ∧
      s.aml[(0 : PortId)].phase = some .pattern ∧ bits v.toNat 20 4 = 2 ∧ bits v.toNat 0 20 = s.aml[(0 : PortId)].content) ∧
    ((sAml 3 1).getN (O.LINK_STATE (0 : PortId)) ≠ 0 ∧ passive (sAml 3 1) = false) := by decide +kernel

theorem witness_LinkTraining :
    (Admitted (sAml 3 3) .can (O.LINK_CMD (0 : PortId)) [1] ∧ mayTrain (sAml 3 3) 0 = true) ∧
    (Admitted (keyed (sAml 3 3)) .can (O.AML_EN (0 : PortId)) [if false then 1 else 0] ∧
      Admitted (keyed (sAml 3 0 [(O.AML_EN (0 : Nat), 0)])) .can (O.AML_EN (0 : PortId)) [if true then 1 else 0] ∧
      (sAml 3 0).getN O.START_STEP = 9 ∧ passive (sAml 3 0) = false) ∧
    (let s := { sAml 3 0 with uptime := 100000000 }
     mayTrain s 0 = true ∧ s.getN (O.LINK_STATE (0 : PortId)) = 0 ∧
      s.aml[(0 : PortId)].downAt + s.getN (O.LINK_RETRY (0 : PortId)) * 1000 ≤ s.uptime) ∧
    (let s (ph : TrainPhase) := sAml 3 1 [] fun m => { m with phase := some ph, good := 5000, cycles := 4, cap := some 0x101 }
     standby (s .pattern) = false ∧ (s .pattern).getN (O.LINK_STATE (0 : PortId)) ∈ [1, 2, 4] ∧
      ((s .pattern).aml[(0 : PortId)].phase = some .pattern ∧ 16 ≤ (s .pattern).aml[(0 : PortId)].good) ∧
      ((s .cap).aml[(0 : PortId)].phase = some .cap ∧ (s .cap).aml[(0 : PortId)].cap = some 0x101 ∧ 2 ≤ (s .cap).aml[(0 : PortId)].good ∧
        bits 0x101 8 4 ≠ 0 ∧ bit 0x101 0 = true) ∧
      ((s .rate).aml[(0 : PortId)].phase = some .rate ∧ 4 ≤ (s .rate).aml[(0 : PortId)].cycles) ∧
      ((s .test).aml[(0 : PortId)].phase = some .test ∧ 5000 ≤ (s .test).aml[(0 : PortId)].good) ∧
      ((s .done).aml[(0 : PortId)].phase = some .done ∧ (s .done).aml[(0 : PortId)].cycles ≠ 0)) ∧
    (let s (ph : TrainPhase) := sAml 3 2 [] fun m => { m with phase := some ph, cycles := 1024 }
     (s .pattern).getN (O.LINK_STATE (0 : PortId)) ∈ [1, 2] ∧ (s .pattern).aml[(0 : PortId)].phase = some .pattern ∧
      (s .pattern).aml[(0 : PortId)].good < 2 ∧ 1024 ≤ (s .pattern).aml[(0 : PortId)].cycles ∧ (s .cap).aml[(0 : PortId)].phase = some .cap ∧ 8 ≤ (s .cap).aml[(0 : PortId)].cycles) ∧
    (let s := sAml 3 3 [] fun m => { m with winBad := 16 }
     s.getN (O.LINK_STATE (0 : PortId)) = 3 ∧ 16 ≤ s.aml[(0 : PortId)].winBad) ∧
    (let s := sAml 3 4 [] fun m => { m with phase := some .pattern, cycles := 64 }
     s.getN (O.LINK_STATE (0 : PortId)) = 4 ∧ s.aml[(0 : PortId)].phase = some .pattern ∧ s.aml[(0 : PortId)].good < 16 ∧
      64 ≤ s.aml[(0 : PortId)].cycles) ∧
    State.reset.isOn (O.AML_EN (1 : PortId)) = false ∧
    (let s := sAml 3 3 [(O.BLK_ERR (0 : Nat), 2)]
     s.getN (O.LINK_STATE (0 : PortId)) = 3 ∧ 2 ≤ s.getN (O.BLK_ERR (0 : PortId)) ∧ s.getN (O.RATE_NOW (0 : PortId)) = 0) ∧
    (let s := sAml 3 3 [(O.BLK_ERR (0 : Nat), 2), (O.RATE_NOW (0 : Nat), 2)]
     s.getN (O.LINK_STATE (0 : PortId)) = 3 ∧ 2 ≤ s.getN (O.BLK_ERR (0 : PortId)) ∧ s.getN (O.RATE_NOW (0 : PortId)) ≠ 0 ∧
      s.aml[(0 : PortId)].replies = []) ∧
    (let s := { sAml 3 1 [] fun m => { m with firstAt := some 0 } with uptime := 100000000 }
     s.aml[(0 : PortId)].firstAt = some 0 ∧ s.aml[(0 : PortId)].everUp = false ∧ 0 + s.getN (O.LINK_UP_T (0 : PortId)) * 1000 ≤ s.uptime) :=
  ⟨⟨admits_sound (by decide +kernel), by decide +kernel⟩,
    ⟨admits_sound (by decide +kernel), admits_sound (by decide +kernel), by decide +kernel⟩, by decide +kernel⟩

/-! ### Thermal supervision -/

theorem witness_ThermalShutdownAndRestart :
    (State.reset.chip.aon = true ∧ State.reset.chip.therm = false ∧ causeHolds State.reset (1 : Fin 5).val .central 150001 5000 = true ∧
      causeHolds State.reset (1 : Fin 5).val .central 150000 5000 = false ∧ abdicates State.reset 3 = false) ∧
    (let s := sOn [(O.TW_ROLE, 1), (O.TW_ABD_MASK, 8)]
     let t := { s with twin := { s.twin with peer := some { ready := true } } }
     t.chip.aon = true ∧ t.chip.therm = false ∧ causeHolds t (1 : Fin 5).val (.die 7) 150001 5000 = true ∧ (1 : Fin 5).val = 1 ∧ abdicates t 3 = true) ∧
    (let s := { sFb 5 with chip := { State.reset.chip with therm := true, coolAt := some 0 }, uptime := 100000 }
     s.chip.therm = true ∧ coolLong s = true ∧ latchSet s .restart = false ∧ s.getN O.FB_STATE = 5) ∧
    (Admitted (keyed (sOn [(O.TH_FLT, 1)])) .can O.TH_FLT [1] ∧ inactiveLong (keyed (sOn [(O.TH_FLT, 1)])) .restart = true) ∧
    (let s := { keyed (sOn [(O.TH_FLT, 1)]) with seen := [(latchNo .restart, ⟨1, 1⟩)] }
     Admitted s .can O.TH_FLT [1] ∧ inactiveLong s .restart = false) :=
  ⟨by decide +kernel, by decide +kernel, by decide +kernel, ⟨admits_sound (by decide +kernel), by decide +kernel⟩,
    admits_sound (by decide +kernel), by decide +kernel⟩

/-- The central sensor, with loop L0 regulating. -/
def sSens (f : Sens → Sens) (l : List (Addr × Nat) := []) : State :=
  let s := sLoop 3 l
  { s with chip := { s.chip with sens := f s.chip.sens } }

theorem witness_SensorRatesBandsFailures :
    (let s := sSens fun v => { v with seen := true, want := 1, wantN := 3 }
     sensRead s .central = true ∧ 3 ≤ (sensOf s .central).wantN ∧ (sensOf s .central).want ≠ 0 ∧
      quietFor (sensOf s .central).bandAt s.uptime 10000 = true ∧ sensOn s .central = true) ∧
    (let s := sSens (fun v => { v with seen := true, far := 3 }) [(O.TH_LEVEL 0, 1)]
     sensRead s .central = true ∧ (sensOf s .central).failed = false ∧ failing s .central = true ∧
      (loopSensors s 0).contains .central = true ∧ s.getN (O.TH_LEVEL (0 : LoopId)) ≠ 0) ∧
    (let s := { sSens fun v => { v with seen := true, failed := true, okAt := some 0 } with uptime := 100000 }
     (sensOf s .central).okAt = some 0 ∧ (sensOf s .central).failed = true ∧ 0 + 100000 ≤ s.uptime ∧
      ∀ y ∈ loopSensors s 0, y ≠ .central → (sensOf s y).failed = false) := by decide +kernel

/-- Loop L0 over block P0 at 100 °C and block P1 at 20 °C, two cells of P0 active. -/
def sHot : State :=
  let s := sMod (sLoop 3 [(O.BLK_LOOP 1, 0), (O.TH_LEVEL 0, 20)]) fun l => { l with ph := { l.ph with active := [0, 1] } }
  { s with blocks := (s.blocks.set 0 { s.blocks[(0 : BlockId)] with sens := { own := [], use := 1200, seen := true } }).set 1
             { s.blocks[(1 : BlockId)] with sens := { own := [], use := 160, seen := true } } }

theorem witness_ThrottlingAndSwap :
    running State.reset 0 = false ∧ (running sHot 0 = true ∧ cutOff sHot 0 = false ∧ loopHot sHot 0 = true ∧
      sHot.loops[(0 : LoopId)].th.tUp + 10 < sHot.getN (O.TH_STEP_T (0 : LoopId))) ∧
    (let s := sMod sHot fun l => { l with th := { l.th with tUp := 1000000 } }
     running s 0 = true ∧ cutOff s 0 = false ∧ loopHot s 0 = true ∧ s.getN (O.TH_STEP_T (0 : LoopId)) ≤ s.loops[(0 : LoopId)].th.tUp + 10) ∧
    (let s := sMod (sLoop 3 [(O.TH_LEVEL 0, 1)]) fun l => { l with th := { l.th with tDn := 10000000 } }
     running s 0 = true ∧ cutOff s 0 = false ∧ loopHot s 0 = false ∧ loopCool s 0 = true ∧ s.getN (O.TH_REL_T (0 : LoopId)) ≤ s.loops[(0 : LoopId)].th.tDn + 10 ∧
      s.isOn (O.TH_FROZEN (0 : LoopId)) = false) ∧
    (let s := sHot
     let k : LoopId := 0
     s.getN (O.LOOP_STATE k) = 3 ∧ cutOff s k = false ∧ s.getN (O.TH_SHED_LVL k) ≤ s.getN (O.TH_LEVEL k) ∧
      quietFor s.loops[k].th.swapAt s.uptime (s.getN (O.TH_SHED_T k)) = true ∧
      let temp (b : Nat) := (sensOf s (.tmon (blockOf b))).use
      let blocks := (blocksOf s k).filter fun b => sensRead s (.tmon (blockOf b))
      argMax temp (blocks.filter fun b => decide (s.get (O.TH_ON_TM k) * 8 < temp b) && decide (2 ≤ (activeOf s k b).length)) = some 0 ∧
      argMax (fun b => -(temp b)) (blocks.filter fun b =>
        decide (temp b + s.get (O.TH_SHED_DT k) * 8 ≤ temp 0) && !(swapCells s k b).isEmpty) = some 1) ∧
    (let s := { sLoop 3 with blocks := State.reset.blocks.set 0 { State.reset.blocks[(0 : BlockId)] with coolAt := some 0 }, uptime := 10000000 }
     loopOfBlock s (0 : BlockId) = some 0 ∧ cutOff s 0 = false ∧ s.blocks[(0 : BlockId)].coolAt = some 0 ∧ 0 + s.getN (O.TH_REL_T (0 : LoopId)) ≤ s.uptime) := by
  decide +kernel

/-! ### Burnish -/

/-- Loop L0 in OFF ready for a burnish, in start-up or after it. -/
def sBur (st : Nat) (l : List (Addr × Nat) := []) (f : LoopBur → LoopBur := id) : State :=
  let s := sMod (sLoop 0 ([(O.START_STEP, 8), (O.BUR_STATE 0, st)] ++ l)) fun x => { x with bur := f x.bur }
  { s with fb := { s.fb with vbus := 12 } }

theorem witness_BurnishSteps :
    (let s := sBur 1 [(O.BUR_MODE 0, 2)]
     burnishReady s 0 = true ∧ s.getN O.START_STEP < 9 ∧ isOff s 0 = true ∧ s.getN (O.BUR_STATE (0 : LoopId)) = 1 ∧
      s.getN (O.BUR_MODE (0 : LoopId)) = 2) ∧
    (let s := sBur 0 [(O.BUR_MODE 0, 1), (O.BUR_VALID 0, 1)]
     burnishReady s 0 = true ∧ s.getN O.START_STEP < 9 ∧ isOff s 0 = true ∧ s.getN (O.BUR_STATE (0 : LoopId)) = 0 ∧
      s.getN (O.BUR_MODE (0 : LoopId)) = 1 ∧ s.isOn (O.BUR_VALID (0 : LoopId)) = true) ∧
    (let s := sBur 1 [(O.BUR_MODE 0, 1)]
     burnishReady s 0 = true ∧ s.getN O.START_STEP < 9 ∧ isOff s 0 = true ∧ s.getN (O.BUR_STATE (0 : LoopId)) = 1 ∧
      s.getN (O.BUR_MODE (0 : LoopId)) ≠ 2 ∧ s.isOn (O.BUR_VALID (0 : LoopId)) = false) ∧
    (let s := sBur 6 [(O.BUR_MODE 0, 1)]
     burnishReady s 0 = true ∧ s.getN O.START_STEP < 9 ∧ isOff s 0 = true ∧ s.getN (O.BUR_STATE (0 : LoopId)) = 6 ∧
      s.loops[(0 : LoopId)].bur.byCmd = false ∧ s.getN (O.BUR_MODE (0 : LoopId)) ≠ 2 ∧ s.isOn (O.BUR_VALID (0 : LoopId)) = false) ∧
    (let s := { sBur 6 [(O.START_T (3 : Nat), 1)] with uptime := 1000000000 }
     s.getN O.START_STEP < 9 ∧ s.getN (O.START_T (3 : Nat)) ≠ 0 ∧ s.getN (O.BUR_STATE (0 : LoopId)) = 6 ∧
      s.loops[(0 : LoopId)].bur.byCmd = false ∧ s.getN (O.START_T (3 : Nat)) + s.getN O.BUR_WAIT * 1000 ≤ s.uptime) ∧
    (let s := { sBur 1 [(O.START_T (3 : Nat), 1)] with uptime := 1000000000 }
     s.getN O.START_STEP < 9 ∧ s.getN (O.START_T (3 : Nat)) ≠ 0 ∧ s.getN (O.BUR_STATE (0 : LoopId)) = 1 ∧
      s.getN (O.START_T (3 : Nat)) + s.getN O.BUR_WAIT * 1000 ≤ s.uptime) ∧
    (let s := { (sBur 2 [] fun b => { b with cells := [3, 4] }) with uptime := 60 }
     loopOfCell s (3 : CellId) = some 0 ∧ burning s 0 = true ∧ s.loops[(0 : LoopId)].bur.cells = (3 : CellId).val :: [4] ∧
      s.loops[(0 : LoopId)].bur.tb + 60 + 20 * s.loops[(0 : LoopId)].bur.slots.length ≤ s.uptime ∧ [4].head? = some 4 ∧ s.fb.vbus ≠ 0) ∧
    (let m : BurnishSlot := { offsetCode := 512, peak := 10, deltaV := 1 / 100, charge := 1 / 1000, slopeHi := 1000, slopeLo := -1000, lowCurrent := 5,
                              delay := 10, readback := false }
     let s := { (sBur 2 [] fun b => { b with slots := [(3, m, false)] }) with uptime := 80 }
     s.loops[(0 : LoopId)].bur.tb + 60 + 20 * s.loops[(0 : LoopId)].bur.slots.length ≤ s.uptime ∧ burning s 0 = true ∧ s.loops[(0 : LoopId)].bur.cells = [] ∧ s.loops[(0 : LoopId)].bur.slots = [(3, m, false)] ∧
      (s.loops[(0 : LoopId)].bur.slots.map fun e => cellOf e.1).Nodup ∧ (burnResults s 0 12).map (·.cell) = [3]) ∧
    (let s := keyed (sBur 3 [(O.START_STEP, 9)])
     Admitted s .can O.BUR_CMD [BitVec.ofNat 8 (0x10 + (0 : LoopId).val)] ∧ isOff s 0 = true ∧ onRequest s 0 = false ∧ passive s = false ∧
      burnishReady s 0 = true ∧ burning s 0 = false) ∧
    Admitted (keyed (sBur 3)) .can O.BUR_CMD [BitVec.ofNat 8 (0x20 + (0 : LoopId).val)] :=
  ⟨by decide +kernel, by decide +kernel, by decide +kernel, by decide +kernel, by decide +kernel, by decide +kernel, by decide +kernel,
    by decide +kernel, ⟨admits_sound (by decide +kernel), by decide +kernel⟩, admits_sound (by decide +kernel)⟩

/-! ### Twin operation -/

/-- A device of a pair, in a role, with its own twin state as given. -/
def sTwin (ro : Nat) (f : Twin → Twin := id) (l : List (Addr × Nat) := []) (pref : Nat := 1) : State :=
  let s := sOn ([(O.TW_ROLE, ro)] ++ l)
  { s with chip := { s.chip with pref := pref }, twin := f s.twin }

theorem witness_TokenAndTakeover :
    (let s := sOn [(O.START_STEP, 4)]
     s.chip.hkLock = true ∧ 2 ≤ s.getN O.START_STEP ∧ s.getN O.START_STEP < 5 ∧ twinCfg s = false) ∧
    (let s := sTwin 3 id [(O.START_STEP, 2)]
     s.chip.hkLock = true ∧ 2 ≤ s.getN O.START_STEP ∧ s.getN O.START_STEP < 5 ∧ twinCfg s = true) ∧
    (let s := { sTwin 3 id [(O.START_STEP, 2)] 2 with uptime := 1200 }
     s.chip.pref = 2 ∧ s.getN (O.START_T (0 : Nat)) + 1200 ≤ s.uptime) ∧
    (let s := sTwin 3 id [(O.START_STEP, 2)] 2
     s.chip.pref = 2 ∧ s.uptime < s.getN (O.START_T (0 : Nat)) + 1200) ∧
    (let s := { sTwin 1 with uptime := 2 }
     role s = 1 ∧ s.twin.sentAt + 2 ≤ s.uptime) ∧
    role (sTwin 2) ≠ 1 ∧ twinCfg (sTwin 1) = true ∧ twinCfg State.reset = false ∧
    (let s := { (sTwin 1 fun t => { t with linkUp := true }) with uptime := 3 }
     twinCfg s = true ∧ s.twin.linkUp = true ∧ s.twin.heardAt + 3 ≤ s.uptime) ∧
    (let s := { sTwin 2 with uptime := 10 }
     role s = 2 ∧ s.twin.linkUp = false ∧ s.chip.therm = false ∧ s.twin.lostAt + 10 ≤ s.uptime) ∧
    (let s := sTwin 2 fun t => { t with linkUp := true, abdSeen := true }
     role s = 2 ∧ s.twin.abdSeen = true ∧ s.chip.therm = false) := by decide +kernel

theorem witness_TwinLinkFrames :
    twinCfg (sTwin 1) = true ∧
    (let s := sTwin 0 (fun t => { t with token := true }) [] 2
     twinCfg s = true ∧ s.twin.token = true ∧ s.chip.pref = 2) ∧
    (let s := sTwin 0 (fun t => { t with token := false })
     s.twin.token = false ∧ role s ≤ 1) ∧
    (role (sTwin 2) = 2 ∧ (sTwin 2 (pref := 1)).chip.pref ≠ 2 ∧ standby (sTwin 1) = false) ∧
    (let s := sTwin 2 fun t => { t with skip := t.skip.set 0 1 }
     twinCfg s = true ∧ standby s = true ∧ 0 < s.twin.skip[unitIdx (.loop 0)]) ∧
    (let s := sTwin 1 (fun t => { t with linkUp := true }) [(O.LOOP_STATE 0, 3)]
     twinCfg s = true ∧ role s ≤ 1 ∧ s.twin.linkUp = true ∧ isOff s 0 = false ∧ ∀ k, (.fb : LoopOrFb) = .loop k → isOff s k = false) ∧
    (twinCfg (sTwin 2) = true ∧ standby (sTwin 2) = true ∧ bankState (setBankState (sTwin 2) 0 1 2) 0 1 = 2) ∧
    (let s := sTwin 3 id [(O.TW_JOIN_STEP, 1)]
     twinCfg s = true ∧ s.twin.journal.length < 512 ∧ role s = 3 ∧ s.getN O.TW_JOIN_STEP = 1) ∧
    (let s := { sTwin 2 with chip := { (sTwin 2).chip with freeze := true } }
     twinCfg s = true ∧ s.twin.journal.length < 512 ∧ standby s = true ∧ s.chip.freeze = true) ∧
    ((sTwin 2).chip.freeze = false ∧ (sTwin 2).twin.journal = []) := by decide +kernel

/-- The peer as its latest heartbeat tells of it. -/
def peerUp (t : Twin) : Twin := { t with linkUp := true, peer := some { ready := true, startStep := 9 } }

theorem witness_TwinCommandsAndJoin :
    (Admitted (sTwin 1 peerUp) .can O.TW_CMD [3] ∧ role (sTwin 1 peerUp) = 1 ∧ peerReady (sTwin 1 peerUp) = true) ∧
    (Admitted (sTwin 1 peerUp) .can O.TW_CMD [if true then 0x82 else 2] ∧ role (sTwin 1 peerUp) = 1 ∧ peerReady (sTwin 1 peerUp) = true) ∧
    (Admitted (sTwin 3) .can O.TW_CMD [if false then 0x82 else 2] ∧ 1 ≤ role (sTwin 3) ∧ role (sTwin 3) ≤ 3) ∧
    (Admitted (sTwin 4) .can O.TW_CMD [1] ∧ role (sTwin 4) = 4 ∧ twinCfg (sTwin 4) = true) ∧
    (joining (sTwin 3) = true ∧ (sTwin 3).getN O.TW_JOIN_STEP = 0 ∧ (2 : Nat) ≠ (sTwin 3).chip.pref ∧ (sTwin 3).uptime ≤ (sTwin 3).twin.due) ∧
    (let s := sTwin 3 peerUp [(O.TW_JOIN_STEP, 1)]
     let i : JoinImage := { objects := [], blobs := [], topoGen := 0, crcOk := true, etchedEqual := true }
     joining s = true ∧ s.getN O.TW_JOIN_STEP = 1 ∧ s.uptime ≤ s.twin.due ∧ s.twin.journal = [] ∧ s.twin.peer = some { ready := true, startStep := 9 } ∧
      i.etchedEqual = true ∧ i.crcOk = true) ∧
    (let s := { sTwin 3 peerUp [(O.TW_JOIN_STEP, 3)] with uptime := 10000 }
     joining s = true ∧ s.getN O.TW_JOIN_STEP = 3 ∧ s.twin.linkUp = true ∧ s.twin.due ≤ s.uptime ∧ s.twin.countAt = none ∧
      s.twin.applied % 65536 = 0 ∧ s.twin.peer = some { ready := true, startStep := 9 } ∧ s.twin.journal = [] ∧ joinLate s = false) ∧
    (let s := sTwin 3 peerUp [(O.TW_JOIN_STEP, 4)]
     joining s = true ∧ s.getN O.TW_JOIN_STEP = 4 ∧ s.uptime ≤ s.twin.due ∧ s.twin.journal = []) ∧
    (let s := { sTwin 3 with uptime := 1 }
     joining s = true ∧ joinLate s = true) ∧
    (let s := { sTwin 3 (fun t => { t with waitAt := some 0 }) with uptime := 100000000 }
     s.twin.waitAt = some 0 ∧ 0 + s.getN O.TW_REJOIN_T * 1000 ≤ s.uptime ∧ role s = 3) ∧
    (let s := { sTwin 4 (fun t => { t with waitAt := some 0, linkUp := true }) [(O.TW_AUTOJOIN, 1)] with uptime := 100000000 }
     s.twin.waitAt = some 0 ∧ 0 + s.getN O.TW_REJOIN_T * 1000 ≤ s.uptime ∧ role s = 4 ∧ s.isOn O.TW_AUTOJOIN = true ∧ s.twin.linkUp = true) ∧
    (let s := sTwin 0 id [(O.TW_PEER_ADDR, 0x41)]
     twinCfg s = true ∧ s.twin.linkUp = false ∧ s.getN O.TW_PEER_ADDR ≠ 0 ∧
      (busFree { s with tw := { s.tw with stopAt := some 0 } }).isSome = true ∧ s.twin.polledAt = none) :=
  ⟨⟨admits_sound (by decide +kernel), by decide +kernel⟩, ⟨admits_sound (by decide +kernel), by decide +kernel⟩,
    ⟨admits_sound (by decide +kernel), by decide +kernel⟩, ⟨admits_sound (by decide +kernel), by decide +kernel⟩, by decide +kernel⟩

/-! ### The dictionary -/

/-- The row that an address resolves to. -/
def rowAt (a : Addr) : Row := match resolve a with | .obj _ r => r | _ => ⟨0, 1, .u8, .rw, 0, [], 0, false, false, false, 0⟩

theorem witness_PlainWrites :
    (Admitted State.reset .can (addrOf 0x1120 9) [100, 0] ∧ resolve (addrOf 0x1120 9) = .obj (addrOf 0x1120 9) (rowAt (addrOf 0x1120 9)) ∧
      ownChip State.reset .can (addrOf 0x1120 9) (ofBytes (rowAt (addrOf 0x1120 9)).ty [100, 0]).toNat {} = none ∧
      ownUnit State.reset .can (addrOf 0x1120 9) (ofBytes (rowAt (addrOf 0x1120 9)).ty [100, 0]).toNat = none) ∧
    (serves State.reset = true ∧ writeCheck State.reset .can (addrOf 0x1120 9) (rowAt (addrOf 0x1120 9)) [1, 0] ≠ 0 ∧
      writeCheck State.reset .can (addrOf 0x1120 9) (rowAt (addrOf 0x1120 9)) [1, 0] ≠ 0xA013) ∧
    (let s := (sLoop 0).modRegion 0 fun g => { g with cut := true }
     let a := O.PH_AUTO 0
     serves s = true ∧ cutRegion s a = some 0 ∧ resolve a = .obj a (rowAt a) ∧ (rowAt a).acc ≠ .rwe ∧ writeCheck s .can a (rowAt a) [1] = 0 ∧
      shadowed s .can a (rowAt a) (ofBytes (rowAt a).ty [1]) = false ∧ stateRule s a (ofBytes (rowAt a).ty [1]) = false ∧
      conflictRule s a (ofBytes (rowAt a).ty [1]) = false ∧ plateFaulted s (rowAt a) = false ∧
      ownChip s .can a (ofBytes (rowAt a).ty [1]).toNat {} = none ∧ ownUnit s .can a (ofBytes (rowAt a).ty [1]).toNat = none) ∧
    (let s := sOn [(O.LOCK_STAT, 65535)]
     serves s = true ∧ resolve O.BS_MODE = .obj O.BS_MODE (rowAt O.BS_MODE) ∧ writeCheck (keyed s) .can O.BS_MODE (rowAt O.BS_MODE) [1] = 0xA013) ∧
    serves { State.reset with chip := { State.reset.chip with hkLock := false } } = false :=
  ⟨⟨admits_sound (by decide +kernel), by decide +kernel⟩, by decide +kernel⟩

theorem witness_LevelsLocksEtched :
    (Admitted State.reset .can O.KEY (leBytes 4 (0 : BitVec 32).toNat) ∧ (State.reset.rqOf .can).keyHold ≤ State.reset.uptime) ∧
    (0 : BitVec 32).toNat = 0 ∧
    Admitted (keyed State.reset) .can O.LEVEL_DROP [0] ∧
    (let s := { keyed State.reset with uptime := 100000000000 }
     s.getN O.LEVEL_IDLE_T ≠ 0 ∧ (s.rqOf .can).served + s.getN O.LEVEL_IDLE_T * 1000000 ≤ s.uptime) ∧
    Admitted (keyed State.reset) .can O.LOCK_SET (leBytes 2 (1 : BitVec 16).toNat) ∧
    Admitted State.reset .can O.DESC_SEL (leBytes 4 (0x112009 : BitVec 32).toNat) ∧
    (let s := keyed State.reset
     let a := addrOf 0x1120 1
     let r := rowAt a
     let d : List Byte := [5]
     serves s = true ∧ resolve a = .obj a r ∧ r.acc = .rwe ∧ writeCheck s .can a r d = 0 ∧ shadowed s .can a r (ofBytes r.ty d) = false ∧
      stateRule s a (ofBytes r.ty d) = false ∧ conflictRule s a (ofBytes r.ty d) = false ∧ plateFaulted s r = false ∧
      etchedRule s a (ofBytes r.ty d).toNat = 0 ∧ s.get a ≠ ofBytes r.ty d ∧ s.chip.etchAt = none ∧ slotsLeft s a ≠ 0) ∧
    (let a := addrOf 0x1120 1
     let s := { keyed State.reset with chip := { State.reset.chip with slots := [(a, [none, none, none, none, none, none, none, none])] } }
     slotsLeft s a = 0) := by
  refine ⟨⟨admits_sound (by decide +kernel), by decide +kernel⟩, by decide +kernel, admits_sound (by decide +kernel), by decide +kernel,
    admits_sound (by decide +kernel), admits_sound (by decide +kernel), ?_⟩
  decide +kernel

/-! ### The two-wire port -/

theorem witness_TwoWireWrites :
    (twUp (sOn [(O.START_STEP, 9)]) = true ∧ lenOk 2 = true ∧ ([100, 0] : List Byte).length = 2 ∧ Admitted (sOn [(O.START_STEP, 9)]) .twoWire (addrOf 0x1120 9) [100, 0] ∧
      resolve (addrOf 0x1120 9) = .obj (addrOf 0x1120 9) (rowAt (addrOf 0x1120 9)) ∧
      ownChip (sOn [(O.START_STEP, 9)]) .twoWire (addrOf 0x1120 9) (ofBytes (rowAt (addrOf 0x1120 9)).ty [100, 0]).toNat {} = none ∧
      ownUnit (sOn [(O.START_STEP, 9)]) .twoWire (addrOf 0x1120 9) (ofBytes (rowAt (addrOf 0x1120 9)).ty [100, 0]).toNat = none) ∧
    (lenOk 64 = true ∧ SegAdmitted (keyed (sOn [(O.START_STEP, 9)])) .twoWire (addrOf 0x2203 1) 0 (List.replicate 64 0)) ∧
    ((sOn [(O.START_STEP, 9), (O.TW_PEC_REQ, 0)]).isOn O.TW_PEC_REQ = false ∧ (sOn [(O.START_STEP, 9)]).isOn O.TW_PEC_REQ = true) ∧
    (let p (bs : List Byte) := pec (twHead (sOn [(O.START_STEP, 9)]) 0x10 (leBytes 2 0x1120 ++ leBytes 1 9) 2 ++ bs)
     ([100] : List Byte).length < 2 ∧ ([100, 0, p [100, 0] + 1] : List Byte)[2]? ≠ some (p (([100, 0, p [100, 0] + 1] : List Byte).take 2)) ∧
      ([100, 0, p [100, 0], 7] : List Byte)[2]? = some (p (([100, 0, p [100, 0], 7] : List Byte).take 2))) ∧
    (lenOk 65 = false ∧ lenOk 0 = false) ∧
    (lenOk 4 = true ∧ ([1, 2, 3, 4] : List Byte).length = 4 ∧ 57340 + 4 ≤ 57344 ∧ (sOn [(O.START_STEP, 9)]).chip.freeze = false) :=
  ⟨⟨by decide +kernel, by decide +kernel, by decide +kernel, admits_sound (by decide +kernel), by decide +kernel⟩,
    ⟨by decide +kernel, segAdmits_sound (by decide +kernel)⟩, by decide +kernel⟩

theorem witness_TwoWireReadsAndErrors :
    (twUp (sOn [(O.START_STEP, 9)]) = true ∧ lenOk 4 = true ∧ (readLimited (sOn [(O.START_STEP, 9)]) .twoWire (addrOf 0x1000 1) 4).2.abort = 0 ∧
      (readLimited (sOn [(O.START_STEP, 9)]) .twoWire (addrOf 0x0001 1) 4).2.abort ≠ 0) ∧
    (readSegment (sOn [(O.START_STEP, 9)]) .twoWire (addrOf 0x1000 5) 0 8).2.abort = 0 ∧ (0x12 : Byte) ∉ ([0x10, 0x11, 0x16, 0x20, 0x21, 0x30] : List Byte) := by
  decide +kernel

/-- One alert message waits for the bus. -/
def sAlert (f : TwoWire → TwoWire) : State :=
  let s := sOn [(O.TW_HOST_ADDR, 8), (O.START_STEP, 9)]
  { s with tw := f { s.tw with alerts := [(1, 2, 3)] } }

theorem witness_TwoWireController :
    (let s := sAlert fun t => { t with stopAt := some 0 }
     ctrlReady s = true ∧ s.tw.alerts = (1, 2, 3) :: [] ∧ s.tw.failed = false) ∧
    ctrlReady (sAlert id) = false ∧
    (let s := sAlert fun t => { t with stopAt := some 0, failed := true, tries := 6 }
     ctrlReady s = true ∧ BusAttempt.arbitrationLost ≠ .done ∧ s.tw.tries < 7) ∧
    (let s := sAlert fun t => { t with stopAt := some 0, failed := true, tries := 7 }
     ctrlReady s = true ∧ BusAttempt.arbitrationLost ≠ .done ∧ s.tw.failed = true ∧ 7 ≤ s.tw.tries) ∧
    ctrlWaits (sAlert id) = true ∧
    (twUp (sTwin 1 id [(O.START_STEP, 9)]) = true ∧ twinCfg (sTwin 1 id [(O.START_STEP, 9)]) = true ∧
      (sTwin 1 id [(O.START_STEP, 9)]).twin.linkUp = false) := by decide +kernel

/-! ### The CAN FD port -/

/-- The CAN port is open. -/
def sCan (l : List (Addr × Nat) := []) : State :=
  let s := sOn ([(O.CAN_EN, 1), (O.CAN_NODE, 5)] ++ l)
  { s with can := { s.can with on := true } }

theorem witness_CanTransactions :
    (canTakes (sCan) = true ∧ Admitted (sCan) .can (addrOf 0x1120 9) [100, 0] ∧
      resolve (addrOf 0x1120 9) = .obj (addrOf 0x1120 9) (rowAt (addrOf 0x1120 9)) ∧
      ownChip (sCan) .can (addrOf 0x1120 9) (ofBytes (rowAt (addrOf 0x1120 9)).ty [100, 0]).toNat {} = none ∧
      ownUnit (sCan) .can (addrOf 0x1120 9) (ofBytes (rowAt (addrOf 0x1120 9)).ty [100, 0]).toNat = none) ∧
    SegAdmitted (keyed (sCan)) .can (addrOf 0x2203 1) 0 (List.replicate 56 0) ∧
    (readLimited (sCan) .can (addrOf 0x1000 1) 56).2.abort = 0 ∧ (readSegment (sCan) .can (addrOf 0x1000 5) (0 % 65536) 56).2.abort = 0 ∧
    (readLimited (sCan) .can (addrOf 0x1000 1) 4).2.abort = 0 :=
  ⟨⟨by decide +kernel, admits_sound (by decide +kernel), by decide +kernel⟩, segAdmits_sound (by decide +kernel), by decide +kernel⟩

theorem witness_CanPortEvents :
    Admitted State.reset .twoWire O.CAN_EN [1] ∧ Admitted (sCan) .can O.CAN_EN [0] ∧
    (canUp (sCan) = true ∧ canTakes (sCan [(O.CAN_TIME_EN, 1)]) = true ∧ (sCan [(O.CAN_TIME_EN, 1)]).isOn O.CAN_TIME_EN = true ∧
      (sCan [(O.CAN_TIME_EN, 1)]).getN O.CAN_NODE = 5 ∧ (List.replicate 12 (0 : Byte)).length = 12) ∧
    (serves (sCan) = true ∧ (sCan).getN O.CAN_HB_T ≠ 0 ∧
      quietFor (sCan).can.hbAt (sCan).uptime ((sCan).getN O.CAN_HB_T * 1000) = true) ∧ (sOn [(O.CAN_STAT, 2)]).getB O.CAN_STAT 1 = true :=
  ⟨admits_sound (by decide +kernel), admits_sound (by decide +kernel), by decide +kernel⟩

/-! ### The stream port -/

/-- The low window word of an object of the stream port, and with the bit of the high half the high one. -/
def winOf (a : Addr) (high : Bool := false) : BitVec 32 := BitVec.ofNat 32 (0x1000000 + a / 256 * 256 + a % 256 * 4 + (if high then 0x800000 else 0))

/-- Ring 0 enabled over the first KiB of stream memory, ring 1 over the second; the given bytes stand in ring 0. -/
def sRing (bs : List Byte := []) (l : List (Addr × Nat) := []) : State :=
  let s := sOn ([(O.RING_CFG (0 : Nat), 0x2000), (O.RING_CFG (1 : Nat), 0x2001), (O.RING_PI (0 : Nat), bs.length), (O.START_STEP, 9)] ++ l)
  { s with sp := { s.sp with mem := putBytes [] 0 bs } }

theorem witness_StreamPortReads :
    (serves State.reset = true ∧ ¬ (inWindowRegion (winOf O.SP_WSTAT).toNat = true ∧ 16 < 16) ∧
      ¬ (inWindowRegion (0x20000000 : BitVec 32).toNat = true ∧ 16 < 65535)) ∧
    (portRefusal State.reset ((winOf (addrOf 0x1120 9)).toNat + 4 * 0) false = 0 ∧ portRefusal State.reset ((0x20000002 : BitVec 32).toNat + 4 * 0) false ≠ 0) ∧
    lanesOk (12 : BitVec 16).toNat = true ∧ lanesOk (5 : BitVec 16).toNat = false ∧
    ((0x03 : Byte) ∉ ([0x0B, 0x1B, 0x02, 0x12] : List Byte)) ∧ State.reset.chip.freeze = false ∧
    (inWindowRegion (winOf O.SP_WSTAT).toNat = true ∧ 16 < 17 ∧ 65535 < 65536) ∧
    (64 < (List.replicate 65 (0 : BitVec 32)).length ∧ 16 < (List.replicate 17 (0 : BitVec 32)).length) := by decide +kernel

theorem witness_StreamPortWrites :
    (let s := sRing
     serves s = true ∧ 1020 % 4 = 0 ∧ ringEn s 0 = true ∧ ringBase s 0 ≤ 1020 ∧ 1020 + 4 * ([7] : List (BitVec 32)).length ≤ ringBase s 0 + ringSize s 0 ∧
      1020 + 4 * 1 ≤ 0x80000 ∧ lanesOk (8 : BitVec 16).toNat = true) ∧
    (let a := addrOf 0x1120 9
     let r := rowAt a
     spAt (winOf a).toNat = .win a false ∧ resolve a = .obj a r ∧ r.ty ≠ .u64 ∧ upperOk r.ty (100 : BitVec 32).toNat = true ∧
      Admitted State.reset .stream a (leBytes r.ty.bytes (100 : BitVec 32).toNat) ∧
      ownChip State.reset .stream a (ofBytes r.ty (leBytes r.ty.bytes (100 : BitVec 32).toNat)).toNat {} = none ∧
      ownUnit State.reset .stream a (ofBytes r.ty (leBytes r.ty.bytes (100 : BitVec 32).toNat)).toNat = none) ∧
    (let a := O.WALL_SET_S
     let r := rowAt a
     spAt (winOf a true).toNat = .win a true ∧ spAt (winOf a).toNat = .win a false ∧ resolve a = .obj a r ∧ r.ty = .u64 ∧
      Admitted State.reset .stream a (leBytes 4 (5 : BitVec 32).toNat ++ leBytes 4 (heldHigh State.reset a)) ∧
      ownChip State.reset .stream a (ofBytes r.ty (leBytes 4 (5 : BitVec 32).toNat ++ leBytes 4 (heldHigh State.reset a))).toNat {} = none ∧
      ownUnit State.reset .stream a (ofBytes r.ty (leBytes 4 (5 : BitVec 32).toNat ++ leBytes 4 (heldHigh State.reset a))).toNat = none) ∧
    State.reset.chip.main = true ∧
    (let a := addrOf 0x1120 9
     let r := rowAt a
     (∀ i, i ≤ ([] : List (BitVec 32)).length → portRefusal State.reset ((winOf a).toNat + 4 * i) false = 0) ∧
      upperOk r.ty (1 : BitVec 32).toNat = true ∧ writeCheck State.reset .stream a r (leBytes r.ty.bytes (1 : BitVec 32).toNat) ≠ 0 ∧
      writeCheck State.reset .stream a r (leBytes r.ty.bytes (1 : BitVec 32).toNat) ≠ 0xA013) :=
  ⟨by decide +kernel, ⟨by decide +kernel, by decide +kernel, by decide +kernel, by decide +kernel, admits_sound (by decide +kernel), by decide +kernel⟩,
    ⟨by decide +kernel, by decide +kernel, by decide +kernel, by decide +kernel, admits_sound (by decide +kernel), by decide +kernel⟩,
    by decide +kernel, by decide +kernel⟩

/-- No ring is enabled. -/
def sNoRing : State := sOn ((List.range 16).map fun r => (O.RING_CFG r, 0))

theorem witness_RingRegisters :
    (Admitted (keyed sNoRing) .stream (O.RING_CFG (15 : RingId)) (leBytes 4 (0x21FF : BitVec 32).toNat) ∧ bit (0x21FF : BitVec 32).toNat 13 = true ∧
      ringEn sNoRing 15 = false ∧ bits (0x21FF : BitVec 32).toNat 0 9 + 2 ^ bits (0x21FF : BitVec 32).toNat 9 4 ≤ 512 ∧
      ∀ x : RingId, ringEn sNoRing x = false) ∧
    (Admitted (keyed sNoRing) .stream (O.RING_CFG (15 : RingId)) (leBytes 4 (0x23FF : BitVec 32).toNat) ∧
      512 < bits (0x23FF : BitVec 32).toNat 0 9 + 2 ^ bits (0x23FF : BitVec 32).toNat 9 4) ∧
    (Admitted (keyed sRing) .stream (O.RING_CFG (1 : RingId)) (leBytes 4 (0 : BitVec 32).toNat) ∧ ringEn sRing 1 = true ∧
      bit (0 : BitVec 32).toNat 13 = false ∧ bits (sRing.getN (O.RING_CFG (1 : RingId))) 0 13 ≠ bits (0 : BitVec 32).toNat 0 13 ∧
      bits (sRing.getN (O.RING_CFG (0 : RingId))) 0 13 = bits (0 : BitVec 32).toNat 0 13) ∧
    (let s := sRing [0x01, 3, 0, 0, 0, 0, 0, 0, 0, 0, 0, 0] [(O.RING_PI (0 : Nat), 0)]
     Admitted s .stream (O.RING_PI (0 : Nat)) (leBytes 4 (12 : BitVec 32).toNat) ∧ ringEn s 0 = true ∧
      ((12 : BitVec 32).toNat + 2 ^ 32 - s.getN (O.RING_CI (0 : Nat))) % 2 ^ 32 ≤ ringSize s 0 ∧
      ((12 : BitVec 32).toNat + 2 ^ 32 - s.getN (O.RING_PI (0 : Nat))) % 2 ^ 32 ≤ ringSize s 0 ∧
      boundary s (12 : BitVec 32).toNat (((12 : BitVec 32).toNat + 2 ^ 32 - s.getN (O.RING_PI (0 : Nat))) % 2 ^ 32 / 4) (s.getN (O.RING_PI (0 : Nat))) = true ∧
      boundary s (8 : BitVec 32).toNat (((8 : BitVec 32).toNat + 2 ^ 32 - s.getN (O.RING_PI (0 : Nat))) % 2 ^ 32 / 4) (s.getN (O.RING_PI (0 : Nat))) = false ∧
      Admitted s .stream (O.RING_PI (0 : Nat)) (leBytes 4 (8 : BitVec 32).toNat)) ∧
    (let s := (sRing [] [(O.RING_PI (1 : Nat), 12)]).modRing 1 fun g => { g with recs := [{ len := 12, at_ := 0 }] }
     Admitted s .stream (O.RING_CI (1 : RingId)) (leBytes 4 (12 : BitVec 32).toNat) ∧
      ((12 : BitVec 32).toNat + 2 ^ 32 - s.getN (O.RING_CI (1 : RingId))) % 2 ^ 32 ≤ ringUsed s 1 ∧
      consume s.rings[(1 : RingId)].recs (((12 : BitVec 32).toNat + 2 ^ 32 - s.getN (O.RING_CI (1 : RingId))) % 2 ^ 32) = some [] ∧
      consume s.rings[(1 : RingId)].recs (((4 : BitVec 32).toNat + 2 ^ 32 - s.getN (O.RING_CI (1 : RingId))) % 2 ^ 32) = none ∧
      Admitted s .stream (O.RING_CI (1 : RingId)) (leBytes 4 (4 : BitVec 32).toNat) ∧
      Admitted s .stream (O.RING_PI (1 : RingId)) (leBytes 4 (4 : BitVec 32).toNat) ∧ Admitted s .stream (O.RING_CI (0 : RingId)) (leBytes 4 (4 : BitVec 32).toNat)) ∧
    (let s := (sOn [(O.RING_CFG (2 : Nat), 0x2000)]).modRing 2 fun g => { g with stopped := true }
     s.chip.freeze = false ∧ ringEn s 2 = true ∧ s.rings[(2 : RingId)].stopped = true ∧ ringSize s 2 ≤ 2 * ringFree s 2) ∧
    (let s := { (sOn [(O.RING_CFG (15 : Nat), 0x1002000)]).modRing 15 fun g => { g with recs := [{ len := 12, at_ := 0 }] } with uptime := 10 }
     ringEn s 15 = true ∧ oldRecord s 15 = true) ∧
    ((sLoop 3 [(O.RING_OPT (4 : Nat), 1)]).getN (O.RING_OPT (4 + (0 : LoopId).val)) ≠ 0 ∧ isOff (sLoop 3 [(O.RING_OPT (4 : Nat), 1)]) 0 = false ∧
      intervalDone (sLoop 3).loops[(0 : LoopId)].tel.at_ 0 1 = true ∧ intervalDone (some 3) 4 300 = true ∧ intervalDone (some 2) 3 300 = false) ∧
    ((sFb 3 [(O.RING_OPT (13 : Nat), 1000)]).getN (O.RING_OPT (13 : Nat)) ≠ 0 ∧ fbState (sFb 3 [(O.RING_OPT (13 : Nat), 1000)]) ≠ 0) :=
  ⟨⟨admits_sound (by decide +kernel), by decide +kernel⟩, ⟨admits_sound (by decide +kernel), by decide +kernel⟩,
    ⟨admits_sound (by decide +kernel), by decide +kernel⟩,
    ⟨admits_sound (by decide +kernel), by decide +kernel, by decide +kernel, by decide +kernel, by decide +kernel, by decide +kernel,
      admits_sound (by decide +kernel)⟩,
    ⟨admits_sound (by decide +kernel), by decide +kernel, by decide +kernel, by decide +kernel, admits_sound (by decide +kernel),
      admits_sound (by decide +kernel), admits_sound (by decide +kernel)⟩, by decide +kernel⟩

/-- A request in ring 0: its words after the header, and its length in words. -/
def sReq (cmd index sub n : Nat) (data : List Byte) : State :=
  sRing ([1, BitVec.ofNat 8 (3 + data.length / 4), 7, 0] ++ leBytes 1 cmd ++ leBytes 1 sub ++ leBytes 2 index ++ [0, 0] ++ leBytes 1 n ++ [0] ++ data)

theorem witness_RingRequests :
    (let s := sReq 0x20 0x1000 1 4 []
     serves s = true ∧ ringEn s 0 = true ∧ ringEn s 1 = true ∧ ringUsed s 0 ≠ 0 ∧ 76 ≤ ringFree s 1 ∧ (requestAt s).len ≠ 0 ∧
      requestOk (requestAt s) = true ∧ bits (requestAt s).w1 0 8 = 0x20) ∧
    (requestOk (requestAt (sReq 0x22 0x1000 1 4 [])) = false ∧ (requestAt (sReq 0x22 0x1000 1 4 [])).len ≠ 0) ∧
    (let s := sReq 0x10 0x1120 9 2 [100, 0, 0, 0]
     let q := requestAt s
     let a := addrOf 0x1120 9
     a = q.w1 / 256 % 256 + q.w1 / 65536 * 256 ∧ ringUsed s 0 ≠ 0 ∧ 76 ≤ ringFree s 1 ∧ q.len ≠ 0 ∧ requestOk q = true ∧
      bits q.w1 0 8 = 0x10 ∧ Admitted s .stream a q.data ∧ resolve a = .obj a (rowAt a) ∧
      ownChip s .stream a (ofBytes (rowAt a).ty q.data).toNat { pagesOk := logPagesOk s } = none ∧
      ownUnit s .stream a (ofBytes (rowAt a).ty q.data).toNat = none) ∧
    (let s := keyed (sReq 0x11 0x2203 1 4 [1, 2, 3, 4])
     let q := requestAt s
     let a := addrOf 0x2203 1
     a = q.w1 / 256 % 256 + q.w1 / 65536 * 256 ∧ requestOk q = true ∧ bits q.w1 0 8 = 0x11 ∧ SegAdmitted s .stream a (bits q.w2 0 16) q.data) :=
  ⟨by decide +kernel, by decide +kernel,
    ⟨by decide +kernel, by decide +kernel, by decide +kernel, by decide +kernel, by decide +kernel, by decide +kernel, admits_sound (by decide +kernel),
      by decide +kernel⟩,
    by decide +kernel, by decide +kernel, by decide +kernel, segAdmits_sound (by decide +kernel)⟩

/-! ### Recorder, plate, trace -/

/-- A record of the log. -/
def aRecord : Record := { seq := 0, code := 0x0801, sev := 1, flags := 0, uptime := 0, wall := 0, payload := [] }

theorem witness_RecorderAndTime :
    (let s := State.reset
     knownCode 0x0220 = true ∧ (0x0220 : Nat) ≠ 0x080A ∧ (0x0220 : Nat) ≠ 0x0805 ∧ s.getB O.LOG_STAT 0 = false ∧ s.getB O.LOG_STAT 1 = false ∧
      s.getB O.LOG_STAT 2 = false ∧ logBytes s.plate.log + 32 + (payloadOf .chip [1, 2]).length ≤ 524288 - 64) ∧
    (marginFree State.reset = true ∧ marginFree (sOn [(O.MARGIN_USED, 4)]) = false ∧
      marginFree { State.reset with plate := { State.reset.plate with bad := [0xB13] } } = false) ∧ State.reset.chip.aon = true ∧
    (999999 < 2 ^ 32 ∧ Admitted State.reset .can O.WALL_SET_US (leBytes 4 999999)) ∧
    (serves State.reset = true ∧ State.reset.chip.freeze = false ∧ (State.reset.rqOf .can).wallUs = none ∧
      ((State.reset.modReq .can fun r => { r with wallUs := some 5 }).rqOf .can).wallUs = some 5) ∧
    (selectedRecord State.reset = none ∧
      selectedRecord { sOn [(O.LOG_SEL_SEQ, 0)] with plate := { State.reset.plate with log := [aRecord] } } = some aRecord ∧
      ((State.reset.modReq .can fun r => { r with buffer := some (O.LOG_REC, [1]) }).rqOf .can).buffer = some (O.LOG_REC, [1])) ∧
    Admitted (keyed State.reset) .can O.LOG_CMD [0xC1] :=
  ⟨by decide +kernel, by decide +kernel, by decide +kernel, ⟨by decide +kernel, admits_sound (by decide +kernel)⟩, by decide +kernel,
    by decide +kernel, admits_sound (by decide +kernel)⟩

/-- A store into bank 1 that runs. -/
def aStore : Store := { trigger := 1, target := 1, seq := 1, uptime := 0, nextEvt := 0, all := true, pages := [], image := {}, pf := false }

/-- The page of CAN_HB_T, whichever it is, holds an uncorrectable error. -/
def sBad : State := { State.reset with plate := { State.reset.plate with
  bad := [pageAt (addrOf 0x1120 9)], marker := Vector.replicate 2 { state := 0x5E } } }

theorem page_of_hb : pageAt (addrOf 0x1120 9) = Config.pageOf (addrOf 0x1120 9) % 768 := rfl

theorem witness_PlateStores :
    (Admitted State.reset .can O.STORE_CMD [0xA5] ∧ State.reset.chip.aon = true ∧ State.reset.plate.recalled = true ∧
      State.reset.plate.store = none ∧ quietFor State.reset.plate.pfAt State.reset.uptime 1000 = true) ∧
    (let s := { State.reset with plate := { State.reset.plate with store := some aStore } }
     s.chip.aon = true ∧ s.plate.recalled = true ∧ s.plate.store = some aStore ∧ aStore.pf = false ∧ aStore.again = none) ∧
    Admitted (keyed State.reset) .can O.STORE_CMD [0x3C] ∧
    (let b : Fin 2 := if State.reset.getN O.BANK_NOW = 0 then 1 else 0
     dictWf State.reset.plate.bank[b].dict = true ∧ storedA (addrOf 0x1120 9) = true ∧ recorderObj (addrOf 0x1120 9) = false ∧
      addrOf 0x1120 9 ≠ O.DICT_GEN ∧ addrOf 0x1120 9 ≠ O.PLATE_FLT ∧ markerOk sBad.plate.marker[b] = true) ∧
    (pageAt (addrOf 0x1120 9) ∈ sBad.plate.bad ∧ restorable (pageAt (addrOf 0x1120 9)) = true ∧ pageAt (addrOf 0x1120 9) ∉ sBad.plate.badOther) ∧
    Admitted State.reset .can O.SCR_DATA (leBytes 4 (1 : BitVec 32).toNat) := by
  refine ⟨⟨admits_sound (by decide +kernel), by decide +kernel⟩, by decide +kernel, admits_sound (by decide +kernel), by decide +kernel,
    ⟨by simp [sBad], ?_, by simp [sBad, State.reset]⟩, admits_sound (by decide +kernel)⟩
  rw [page_of_hb, restorable]
  simp only [Bool.or_eq_true, decide_eq_true_eq]
  exact Or.inl (Or.inl (Nat.mod_lt _ (by decide)))

/-- The trace of region 0 in a state, with one stream selected. -/
def sTr (st : Nat) (l : List (Addr × Nat) := []) (f : Trace → Trace := id) : State :=
  let s := sOn ([(O.RG_STATE 0, 2), (O.TR_SEL 0 0, 0x2000), (O.TR_STAT 0, st)] ++ l)
  { s with traces := s.traces.set 0 (f s.traces[(0 : RegionId)]) }

theorem witness_TraceCommands :
    (Admitted (sTr 0) .can (O.TR_CMD (0 : RegionId)) [1] ∧ trStreams (sTr 0) 0 ≠ [] ∧ (sTr 0).getN (O.RG_STATE (0 : RegionId)) ≠ 0 ∧ trState (sTr 0) 0 ≠ 5) ∧
    (Admitted State.reset .can (O.TR_CMD (7 : RegionId)) [1] ∧ State.reset.getN (O.RG_STATE (7 : RegionId)) = 0) ∧
    (Admitted (sTr 2) .can (O.TR_CMD (0 : RegionId)) [2] ∧ Admitted (sTr 3) .can (O.TR_CMD (0 : RegionId)) [3] ∧
      Admitted (sTr 3) .can (O.TR_CMD (0 : RegionId)) [4]) ∧
    (trState (sTr 3) 0 ∈ [1, 2, 3] ∧ trState (sTr 4) 0 ∉ [1, 2, 3] ∧ unloading (sTr 3 [(O.TR_UNLOAD_STAT, 0xF)]) ≠ (0 : RegionId).val) ∧
    (trState (sTr 3) 0 = 3 ∧ (sTr 3).traces[(0 : RegionId)].left = 0) ∧
    (let s := sTr 4 [(O.TR_UNLOAD_STAT, 0xF)]
     Admitted s .can O.TR_UNLOAD [BitVec.ofNat 8 (0x10 + (0 : RegionId).val)] ∧ trState s 0 = 4 ∧ unloading s = 15 ∧ unloadWait s = 0) ∧
    (let s := sTr 4 [(O.TR_UNLOAD_STAT, 7)]
     Admitted s .can O.TR_UNLOAD [BitVec.ofNat 8 (0x10 + (0 : RegionId).val)] ∧ trState s 0 = 4 ∧ unloading s ≠ 15) ∧
    (let s := sTr 5 [(O.TR_UNLOAD_STAT, 0)] fun t => { t with sent := 100000000 }
     unloading s = (0 : RegionId).val ∧ blocksAll s 0 ≤ s.traces[(0 : RegionId)].sent ∧ unloadWait s = 0) :=
  ⟨⟨admits_sound (by decide +kernel), by decide +kernel⟩, ⟨admits_sound (by decide +kernel), by decide +kernel⟩,
    ⟨admits_sound (by decide +kernel), admits_sound (by decide +kernel), admits_sound (by decide +kernel)⟩, by decide +kernel, by decide +kernel,
    ⟨admits_sound (by decide +kernel), by decide +kernel⟩, ⟨admits_sound (by decide +kernel), by decide +kernel⟩, by decide +kernel⟩

/-! ### The manual's own figures -/

/-- The nine characters "123456789" of the check values. -/
def nine : List Byte := [0x31, 0x32, 0x33, 0x34, 0x35, 0x36, 0x37, 0x38, 0x39]

/-- R166, R418, R660: the check values of the three CRCs. -/
theorem test_crc_check_values :
    crc32 nine = 0xCBF43926 ∧ Nat.xor (crcBytes 8 0x07 0 nine) 0x55 = 0xA1 ∧ spCrc nine = 0x29B1 := by decide +kernel

/-- 10_amdin_link.md, the PRENOTIFY example: the CRC of the frame, and the whole reply. -/
theorem test_amdin_frames : amlFrame ⟨4, 0, 0x6644B0⟩ = 0x406644B060 ∧ amlFrame ⟨8, 0, 0x340⟩ = 0x800003409C := by decide +kernel

/-- 00_scope.md and 18_stream_port.md: the window word of 0x3020.05 and its alias of bit 3; bit 2 of 0x3053.01. -/
theorem test_stream_addresses :
    spAt 0x01302014 = .win (addrOf 0x3020 5) false ∧ spAt 0x4604028C = .bitOf (addrOf 0x3020 5) false 3 ∧
      spAt 0x01B01510 = .win (addrOf 0x3015 4) true ∧ spAt 0x01305304 = .win (addrOf 0x3053 1) false := by decide +kernel

/-- 16_two_wire_port.md, the read example: VOUT_MEAS of L0 at 0.630 V. -/
theorem test_two_wire_read : ∃ t, exec (.twRead 0x3009 4 2) (sOn [(O.VOUT_MEAS 0, 5040), (O.START_STEP, 9)]) = .next t ∧
    t.tw.response.take 4 = [0x00, 0x02, 0xB0, 0x13] := ⟨_, rfl, by decide +kernel⟩

/-- 16_two_wire_port.md: the PEC of that read, 0x54. -/
theorem test_two_wire_pec : pec [0x86, 0x20, 0x09, 0x30, 0x04, 0x02, 0x87, 0x00, 0x02, 0xB0, 0x13] = 0x54 := by decide +kernel

/-- 17_can_fd_port.md, the example: the response of the read and of the compact read. -/
theorem test_can_read : ∃ t u, exec (.canRead 0x5A 0x3009 4 2) (sCan [(O.VOUT_MEAS 0, 5040)]) = .next t ∧
    exec (.canCompactRead 0x3009 4) (sCan [(O.VOUT_MEAS 0, 5040)]) = .next u ∧
    t.can.tx = [(5, [0x20, 0x5A, 0x09, 0x30, 0x04, 0x00, 0x02, 0x00, 0xB0, 0x13, 0x00, 0x00])] ∧
    u.can.tx = [(5, [0x00, 0x09, 0x30, 0x04, 0xB0, 0x13])] := ⟨_, _, rfl, rfl, by decide +kernel, by decide +kernel⟩

/-- 07_pwm_and_phases.md, the stipple example: the sequence over 12 cells, and k at the first and the 32nd period. -/
theorem test_stipple : stippleSeq 12 = [0, 8, 4, 2, 10, 6, 1, 9, 5, 3, 11, 7] ∧ extraCells 12 107 0 = 5 ∧ extraCells 12 107 124 = 6 := by
  decide +kernel

/-- 11_bus_shaping.md, the example: v_eff at 1,723 W in band 4. -/
theorem test_v_eff : effLookup ((List.replicate 128 0).set 52 9400 |>.set 60 9800) 1723 250 4 = 9756 ∧ vinBand 4 48 = 4 := by decide +kernel

/-- 05_compensation_tables.md, the example: the droop in DROOP_NOW. -/
theorem test_droop :
    toStep (droopOf (sLoop 3 [(O.LL_R_NOW 0, 60), (O.LL_CSLEW 0, 2500)]) 0 (2400 * 256) 5000 * 4000) = 546 := by decide +kernel

/-- 07_pwm_and_phases.md, the ledger example: 2,500 counts, TON_MIN 40, TOFF_MIN 80; requests 25, 25, 30, 60, and 2,460 cut to 2,420. -/
theorem test_ledger :
    let s (req : Int) (led : Nat) := sAct { stopped := false, onReq := req } id [(O.LEDGER 0, led), (O.PERIOD_CNT 0, 2500)]
    let slot (s : State) := match exec (.cellSlotPosition 0 none) s with | .next t => t | _ => s
    let fall (s : State) := match exec (.cellFallingEdge 0) s with | .next t => t | _ => s
    let on (s : State) := s.getN (O.TON_LAST (0 : CellId))
    let l (s : State) := s.get (O.LEDGER (0 : CellId))
    l (slot (s 25 0)) = 25 ∧ l (fall (slot (s 25 25))) = 0 ∧ on (fall (slot (s 25 25))) = 50 ∧ l (slot (s 30 0)) = 30 ∧
      l (fall (slot (s 60 30))) = 0 ∧ on (fall (slot (s 60 30))) = 90 ∧ l (fall (slot (s 2460 0))) = 40 ∧
      on (fall (slot (s 2460 0))) = 2420 := by decide +kernel

/-! ### The machine as a whole -/

theorem witness_StepRunsFront :
    ({ State.reset with pending := [Instr.twStartStop true, .heartbeatTx] }).pending = .twStartStop true :: [.heartbeatTx] ∧ State.reset.pending = [] := by
  decide +kernel

theorem canonical_reset : Canonical State.reset := by unfold Canonical; decide +kernel

theorem witness_CanonicalKept :
    ∃ t, Canonical { State.reset with pending := [Instr.twStartStop true] } ∧
      step { State.reset with pending := [Instr.twStartStop true] } = .next t :=
  ⟨_, canonical_reset, rfl⟩

/-! ### Well-formedness: for each check of `Instr.wf` a term that it refuses, and one that it takes -/

theorem test_wf_object :
    (Instr.dictWrite .can 0x10000 1 [0]).wf = false ∧ (Instr.etchedWrite .can 0x1120 0x100 [0]).wf = false ∧
    (Instr.twWrite 0x10000 1 1 [0] .stop).wf = false ∧ (Instr.twWriteSeg 1 0x100 0 1 [0] .stop).wf = false ∧
    (Instr.twRead 0x10000 1 1).wf = false ∧ (Instr.twReadSeg 0x10000 1 0 1).wf = false ∧ (Instr.canWrite 0 0x10000 1 [0]).wf = false ∧
    (Instr.canWriteSeg 0 1 0x100 0 [0]).wf = false ∧ (Instr.canRead 0 0x10000 1 1).wf = false ∧ (Instr.canReadSeg 0 1 0x100 0 1).wf = false ∧
    (Instr.canCompactWrite 0x10000 1 [0]).wf = false ∧ (Instr.canCompactRead 1 0x100).wf = false ∧
    (Instr.canRequestBusy true 0 0 0x10000 1).wf = false ∧ (Instr.dictWrite .can 0x1120 9 [100, 0]).wf = true := by decide +kernel

theorem test_wf_data :
    (Instr.dictWrite .can 1 1 []).wf = false ∧ (Instr.etchedWrite .can 1 1 (List.replicate 65 0)).wf = false ∧
    (Instr.canWrite 0 1 1 (List.replicate 65 0)).wf = false ∧ (Instr.canWriteSeg 0 1 1 0 (List.replicate 65 0)).wf = false ∧
    (Instr.canCompactWrite 1 1 [0, 0, 0, 0, 0]).wf = false ∧ (Instr.journalEntryApply true ⟨0, 1, 1, none, []⟩).wf = false ∧
    (Instr.eventRecord 0x0220 .chip (List.replicate 221 0)).wf = false ∧ (Instr.canTime 0 true [0] 0).wf = false ∧
    (Instr.spWrite 0 [] true .whole).wf = false ∧ (Instr.spWrite 0 (List.replicate 65 0) true .whole).wf = false ∧
    (Instr.fbSample [0]).wf = false ∧ (Instr.regionReady 0 true true 0 [] []).wf = false ∧
    (Instr.regionReady 0 true true 0 (List.replicate 12 0) [(0, 0), (0, 0), (0, 0)]).wf = false ∧
    (Instr.loopSampleTick 0 { tick := 0, remote := [], localCode := 0 }).wf = false ∧ (Instr.canTime 0 true (List.replicate 12 0) 0).wf = true := by decide +kernel

theorem test_wf_widths :
    (Instr.vsSrcSelWrite .can 0 256).wf = false ∧
    (Instr.bankForceWrite .can 0 256).wf = false ∧ (Instr.skEnWrite .can 0 256).wf = false ∧
    (Instr.cellDisWrite .can 0 256).wf = false ∧ (Instr.blkDisWrite .can 0 256).wf = false ∧ (Instr.rgPwmDisWrite .can 0 256).wf = false ∧
    (Instr.fchDisWrite .can 256).wf = false ∧ (Instr.bsModeWrite .can 256).wf = false ∧ (Instr.latchClearWrite .can .fb 0x10000).wf = false ∧
    (Instr.spSrcWrite .can 0 256).wf = false ∧ (Instr.amlEnWrite .can 0 256).wf = false ∧ (Instr.takeover 0x100000000).wf = false ∧
    (Instr.joinStepFail 4).wf = false ∧ (Instr.levelDropWrite .can 256).wf = false ∧ (Instr.lockSetWrite .can 0x10000).wf = false ∧
    (Instr.canEnWrite .can 256).wf = false ∧ (Instr.spRead 0 0 .whole).wf = false ∧ (Instr.spRead 0 0x10000 .whole).wf = false ∧
    (Instr.eventRecord 0x10000 .chip []).wf = false ∧ (Instr.wallSet .can 1000000).wf = false ∧
    (Instr.trUnload .can 256).wf = false ∧ (Instr.spFrameError 0 0x10000 .whole).wf = false ∧ (Instr.spRead 0 0xFFFF .whole).wf = true := by decide +kernel

theorem test_wf_lengths :
    (Instr.twWrite 1 1 256 [] .early).wf = false ∧ (Instr.twWriteSeg 1 1 0x10000 1 [0] .stop).wf = false ∧
    (Instr.twScratchWr 0x10000 1 [0] .stop).wf = false ∧ (Instr.twScratchWr 0 256 [0] .stop).wf = false ∧
    (Instr.twReadSeg 1 1 0x10000 1).wf = false ∧ (Instr.twRead 1 1 256).wf = false ∧ (Instr.canRead 0 1 1 256).wf = false ∧
    (Instr.canWriteSeg 0 1 1 0x10000 [0]).wf = false ∧ (Instr.canReadSeg 0 1 1 0x10000 1).wf = false ∧
    (Instr.logRecRead .can 0x10000 1).wf = false ∧ (Instr.logRecRead .can 0 65).wf = false ∧ (Instr.logRecRead .can 64 64).wf = true := by decide +kernel

theorem test_wf_twin :
    (Instr.heartbeatRx true {}).wf = false ∧ (Instr.heartbeatRx true { loopStates := List.replicate 8 0 }).wf = true ∧
    (Instr.dutyDigestRx true { unit := .loop 0, sample := 0, low := 0, full := [1, 2] }).wf = false ∧
    (Instr.dutyDigestRx true { unit := .fb, sample := 0, low := 0, full := List.replicate 9 0 }).wf = false ∧
    (Instr.alignmentRecordRx true (.fb ⟨0, 0, [0], 3⟩)).wf = false ∧
    (Instr.alignmentRecordRx true (.fb ⟨0, 0, List.replicate 8 0, 7⟩)).wf = false ∧
    (Instr.alignmentRecordRx true (.loop ⟨0, 0, 3, [], [0, 0], 0, false, 0, 0, [], [], [], 3⟩)).wf = false ∧
    (Instr.joinStepComplete (.trained 3)).wf = false ∧ (Instr.joinStepComplete (.image ⟨[], [], 0x100000000, true, true⟩)).wf = false ∧
    (Instr.journalEntryApply true ⟨0x10000, 1, 1, none, [0]⟩).wf = false ∧
    (Instr.journalEntryApply true ⟨0, 0x10000, 1, none, [0]⟩).wf = false ∧ (Instr.journalEntryApply true ⟨0, 1, 1, none, [0]⟩).wf = true := by
  decide +kernel

end Sys2Proof.Tests
end

section
/-! What running the checks of R387 again leaves unchanged beside what `LoopsOnly` states: every part of the units that records and the
shared transitions of the loops do not name. -/

namespace Sys2Proof.Machine

/-- A state with the units that the shared transitions of the loops move taken from `o`. -/
def loopUnits (o s : State) : State :=
  { s with loops := o.loops, cells := o.cells, aml := o.aml, tree := o.tree, seen := o.seen,
           twin := { s.twin with abdDue := o.twin.abdDue } }

/-- What is left of a state beside event records and what the shared transitions of the loops move. -/
def loopRest (o s : State) : State := loopUnits o (rest s)

section
variable (o s : State) (k : LoopId)

theorem loopRest_of_rest {s t : State} (h : rest t = rest s) : loopRest o t = loopRest o s :=
  congrArg (loopUnits o) h

@[simp] theorem loopRest_set (a : Addr) (v : Int) : loopRest o (s.set a v) = loopRest o s := loopRest_of_rest o (rest_set s a v)
@[simp] theorem loopRest_setN (a : Addr) (v : Nat) : loopRest o (s.setN a v) = loopRest o s := loopRest_set o s a v
@[simp] theorem loopRest_setBitAt (a : Addr) (b : Nat) (v : Bool) : loopRest o (s.setBitAt a b v) = loopRest o s :=
  loopRest_setN o s a _
@[simp] theorem loopRest_bump (a : Addr) : loopRest o (s.bump a) = loopRest o s := loopRest_setN o s a _
@[simp] theorem loopRest_modLoop (f : Loop → Loop) : loopRest o (s.modLoop k f) = loopRest o s := rfl
@[simp] theorem loopRest_modCell (n : CellId) (f : Cell → Cell) : loopRest o (s.modCell n f) = loopRest o s := rfl
@[simp] theorem loopRest_modAml (p : PortId) (f : Aml → Aml) : loopRest o (s.modAml p f) = loopRest o s := rfl
@[simp] theorem loopRest_record (e : Nat) (u : UnitId) (vs : List Byte) : loopRest o (record s e u vs) = loopRest o s :=
  loopRest_of_rest o (record_only s e u vs).rest
@[simp] theorem loopRest_recordLoop (e : Nat) (vs : List Byte) : loopRest o (recordLoop s e k vs) = loopRest o s :=
  loopRest_record o s e _ vs

theorem loopRest_foldl {α : Type} (f : State → α → State) (hf : ∀ u x, loopRest o (f u x) = loopRest o u) (l : List α) :
    loopRest o (l.foldl f s) = loopRest o s := by
  induction l generalizing s with
  | nil => rfl
  | cons x l ih => exact (ih (f s x)).trans (hf s x)

@[simp] theorem loopRest_foldl_modCell {α : Type} (c : α → CellId) (f : Cell → Cell) (l : List α) :
    loopRest o (l.foldl (fun s n => s.modCell (c n) f) s) = loopRest o s :=
  loopRest_foldl o s (fun s n => s.modCell (c n) f) (fun _ _ => rfl) l

@[simp] theorem loopRest_amlAlert (b : Nat) : loopRest o (amlAlert s k b) = loopRest o s := by
  unfold amlAlert amlPend
  split
  · split <;> simp
  · rfl
@[simp] theorem loopRest_pgoodLow : loopRest o (pgoodLow s k) = loopRest o s := by
  unfold pgoodLow
  split <;> simp
@[simp] theorem loopRest_stopCell (n : CellId) : loopRest o (stopCell s n) = loopRest o s := rfl
@[simp] theorem loopRest_decideChange (c : Change) : loopRest o (decideChange s k c) = loopRest o s := rfl
@[simp] theorem loopRest_report (c : FaultClass) (l : LoopOrFb) (u : UnitId) (e : Nat) (vs : List Byte) :
    loopRest o (report s c l u e vs) = loopRest o s := rfl
@[simp] theorem loopRest_tripWaits (p : Nat) : loopRest o (tripWaits s k p) = loopRest o s := rfl
@[simp] theorem loopRest_setLatch (l : LatchId) : loopRest o (setLatch s l) = loopRest o s :=
  loopRest_setBitAt o s (latchAt l).1 (latchAt l).2 true
@[simp] theorem loopRest_sketchErase (c : Nat) : loopRest o (sketchErase s k c) = loopRest o s := by
  unfold sketchErase
  simp [apply_ite (loopRest o)]
@[simp] theorem loopRest_sketchEnd (c : Nat) : loopRest o (sketchEnd s k c) = loopRest o s := by simp [sketchEnd]
@[simp] theorem loopRest_putLevel (v : Nat) : loopRest o (putLevel s k v) = loopRest o s := by
  unfold putLevel ilimRefresh
  simp [apply_ite (loopRest o)]
@[simp] theorem loopRest_thermQuiet : loopRest o (thermQuiet s k) = loopRest o s := by
  simp [thermQuiet, apply_ite (loopRest o)]
@[simp] theorem loopRest_loopQuiet (c : Nat) : loopRest o (loopQuiet s k c) = loopRest o s := by
  simp [loopQuiet, loopRest_foldl o _ (fun s n => stopCell s (cellOf n)) fun _ _ => rfl, apply_ite (loopRest o)]
@[simp] theorem loopRest_burnishAbandon : loopRest o (burnishAbandon s k) = loopRest o s := by
  simp [burnishAbandon, apply_ite (loopRest o)]
@[simp] theorem loopRest_stopBy (p : Nat) : loopRest o (stopBy s k p) = loopRest o s := by
  simp [stopBy, toLatched, toFault, apply_ite (loopRest o)]
@[simp] theorem loopRest_controlTrip (b : Fin 16) (e : Option Nat) (u : UnitId) (vs : List Byte) :
    loopRest o (controlTrip s k b e u vs) = loopRest o s := by
  unfold controlTrip
  split
  · rfl
  extract_lets u v
  have hv : loopRest o v = loopRest o s := by cases e <;> simp [v, u]
  split
  · exact hv
  · simpa using hv
@[simp] theorem loopRest_enterArmed (m : Nat) : loopRest o (enterArmed s k m) = loopRest o s := by
  unfold enterArmed
  extract_lets u v w x y
  have hx : loopRest o x = loopRest o s := by simp [x, w, v, u, apply_ite (loopRest o)]
  have hy : loopRest o y = loopRest o s := by simp [y, holdLost, apply_ite (loopRest o), hx]
  split
  · simpa using hy
  · exact hy
@[simp] theorem loopRest_tryArm : loopRest o (tryArm s k).1 = loopRest o s := by
  simp [tryArm, apply_ite (loopRest o), apply_ite Prod.fst]
@[simp] theorem loopRest_rearm : loopRest o (rearm s k) = loopRest o s := by
  simp [rearm, apply_ite (loopRest o)]
theorem loopRest_rearmAll : loopRest o (rearmAll s) = loopRest o s := loopRest_foldl o s _ (fun _ _ => by simp) _
end

end Sys2Proof.Machine
end

section
/-! Frames: which objects a chain of operations may write, and which units it may change. The templates of the objects of each kind of
unit (R576) say which objects a frame names. -/

namespace Sys2Proof.Machine

/-! ### Templates (R576) -/

theorem template_chip {a : Nat} (h : 0x115000 ≤ a ∧ a < 0x210000) : template a = a := by
  unfold template Addr
  rw [if_neg, if_neg, if_pos]
  all_goals omega

theorem template_ring {a n : Nat} (h : 0x114000 ≤ a ∧ a < 0x114100) (hn : n < 16) : template (a + 0x100 * n) = a := by
  unfold template Addr
  rw [if_neg, if_pos]
  all_goals omega

theorem template_region {a n : Nat} (h : 0x210000 ≤ a ∧ a < 0x212000) (hn : n < 8) : template (a + 0x2000 * n) = a := by
  unfold template Addr
  rw [if_neg, if_neg, if_neg, if_pos]
  all_goals omega

theorem template_block {a n : Nat} (h : 0x220000 ≤ a ∧ a < 0x220800) (hn : n < 24) : template (a + 0x800 * n) = a := by
  unfold template Addr
  rw [if_neg, if_neg, if_neg, if_neg, if_pos]
  all_goals omega

theorem template_loop {a n : Nat} (h : 0x300000 ≤ a ∧ a < 0x310000) (hn : n < 8) : template (a + 0x10000 * n) = a := by
  unfold template Addr
  rw [if_neg, if_neg, if_neg, if_neg, if_neg, if_neg, if_pos]
  all_goals omega

theorem template_cell {a n : Nat} (h : 0x400000 ≤ a ∧ a < 0x402000) (hn : n < 96) : template (a + 0x2000 * n) = a := by
  unfold template Addr
  rw [if_neg, if_neg, if_neg, if_neg, if_neg, if_neg, if_neg, if_neg, if_pos]
  all_goals omega

theorem template_trace {a n : Nat} (h : 0x781000 ≤ a ∧ a < 0x781100) (hn : n < 8) : template (a + 0x100 * n) = a := by
  unfold template Addr
  rw [if_neg, if_neg, if_neg, if_neg, if_neg, if_neg, if_neg, if_neg, if_neg, if_neg, if_neg, if_neg, if_pos]
  all_goals omega

section
variable {l : List Addr} {a n : Nat}

/-- An object is among those of a list that names its template. -/
theorem among_of_template {b : Addr} (h : template b = a) (hl : a ∈ l.map template) : among l b := by
  unfold among
  rwa [h]

theorem among_region (h : 0x210000 ≤ a ∧ a < 0x212000 := by decide) (hn : n < 8) (hl : a ∈ l.map template := by decide) :
    among l (a + 0x2000 * n) := among_of_template (template_region h hn) hl

theorem among_block (h : 0x220000 ≤ a ∧ a < 0x220800 := by decide) (hn : n < 24) (hl : a ∈ l.map template := by decide) :
    among l (a + 0x800 * n) := among_of_template (template_block h hn) hl

theorem among_loop (h : 0x300000 ≤ a ∧ a < 0x310000 := by decide) (hn : n < 8) (hl : a ∈ l.map template := by decide) :
    among l (a + 0x10000 * n) := among_of_template (template_loop h hn) hl

theorem among_cell (h : 0x400000 ≤ a ∧ a < 0x402000 := by decide) (hn : n < 96) (hl : a ∈ l.map template := by decide) :
    among l (a + 0x2000 * n) := among_of_template (template_cell h hn) hl

theorem among_trace (h : 0x781000 ≤ a ∧ a < 0x781100 := by decide) (hn : n < 8) (hl : a ∈ l.map template := by decide) :
    among l (a + 0x100 * n) := among_of_template (template_trace h hn) hl

/-- The elements of an array below the units' ranges. -/
theorem arrays_chip (h : 0x115000 ≤ a ∧ a < 0x210000 ∧ a % 256 < 128 := by decide) (hn : n < 128)
    (hl : a / 256 ∈ l.map fun b => template b / 256 := by decide) : arrays l (a + n) := by
  have ht : template (a + n) = a + n := template_chip (by omega)
  have hi : (a + n) / 256 = a / 256 := by omega
  unfold arrays Addr
  rw [ht, hi]
  exact hl

end

theorem among_mono {l m : List Addr} {a : Addr} (h : among l a) (hl : l ⊆ m) : among m a := List.map_subset _ hl h

theorem arrays_mono {l m : List Addr} {a : Addr} (h : arrays l a) (hl : l ⊆ m) : arrays m a := List.map_subset _ hl h

theorem among_ring_cfg {l : List Addr} (hl : 0x114001 ∉ l.map template := by decide) (r : RingId) : ¬ among l (O.RING_CFG r) := by
  unfold among
  rw [template_ring (by decide) r.isLt]
  exact hl

theorem arrays_ring_cfg {l : List Addr} (hl : 0x1140 ∉ (l.map fun b => template b / 256) := by decide) (r : RingId) :
    ¬ arrays l (O.RING_CFG r) := by
  unfold arrays
  rw [template_ring (by decide) r.isLt]
  exact hl

/-! ### Frames -/

/-- Beside event records, only the objects that `f` names may differ, and of what records leave (`rest`) only what `Q` hides. -/
structure Frame (Q : State → State) (f : Addr → Prop) (s t : State) : Prop where
  objects : SameObjects s t f
  units : Q (rest t) = Q (rest s)
  outside : ∀ o, outsideRings s o → byteAt t.sp.mem o = byteAt s.sp.mem o

namespace Frame

variable {Q : State → State} {f g : Addr → Prop} {s t u : State}

theorem refl (Q : State → State) (f : Addr → Prop) (s : State) : Frame Q f s s := ⟨fun _ _ _ => rfl, rfl, fun _ _ => rfl⟩

theorem trans (hc : ∀ r : RingId, ¬ f (O.RING_CFG r)) (h : Frame Q f s t) (k : Frame Q f t u) : Frame Q f s u where
  objects a ha hf := (k.objects a ha hf).trans (h.objects a ha hf)
  units := k.units.trans h.units
  outside o ho := (k.outside o (outsideRings_congr (fun r => h.objects _ (cfg_free r) (hc r)) ho)).trans (h.outside o ho)

theorem mono (h : Frame Q f s t) (hfg : ∀ a, f a → g a) : Frame Q g s t :=
  ⟨fun a ha hg => h.objects a ha fun hf => hg (hfg a hf), h.units, h.outside⟩

/-- More of the units may differ. -/
theorem hide (P : State → State) (h : Frame Q f s t) : Frame (fun u => P (Q u)) f s t :=
  ⟨h.objects, congrArg P h.units, h.outside⟩

theorem get (h : Frame Q f s t) {a : Addr} (ha : recorderObj a = false) (hf : ¬ f a) : t.get a = s.get a := h.objects a ha hf

theorem getN (h : Frame Q f s t) {a : Addr} (ha : recorderObj a = false) (hf : ¬ f a) : t.getN a = s.getN a :=
  congrArg Int.toNat (h.get ha hf)

/-- What `Q` and records leave of the units is as before. -/
theorem field {α : Type} (h : Frame Q f s t) (p : State → α) (hp : ∀ u, p (Q (rest u)) = p u := by exact fun _ => rfl) : p t = p s := by
  rw [← hp t, ← hp s, h.units]

/-- An object that the frame names takes a value. -/
theorem set (h : Frame Q f s t) {a : Addr} (ha : f a) (v : Int) : Frame Q f s (t.set a v) where
  objects b hb hf := (State.get_set_ne t v (fun e : b = a => hf (e ▸ ha))).trans (h.objects b hb hf)
  units := (congrArg Q (rest_set t a v)).trans h.units
  outside := h.outside

theorem setN (h : Frame Q f s t) {a : Addr} (ha : f a) (v : Nat) : Frame Q f s (t.setN a v) := h.set ha v

/-- A step that changes only hidden units. -/
theorem step (h : Frame Q f s t) (hg : u.dict = t.dict := by rfl) (hq : Q (rest u) = Q (rest t) := by rfl)
    (hm : u.sp.mem = t.sp.mem := by rfl) : Frame Q f s u where
  objects a ha hf := (congrArg (dval · a) hg).trans (h.objects a ha hf)
  units := hq.trans h.units
  outside o ho := (congrArg (byteAt · o) hm).trans (h.outside o ho)

/-- An operation repeated over a list. -/
theorem foldl {α : Type} {l : List α} {F : State → α → State} (h : Frame Q f s t)
    (hF : ∀ u, ∀ x ∈ l, Frame Q f s u → Frame Q f s (F u x)) : Frame Q f s (l.foldl F t) := by
  induction l generalizing t with
  | nil => exact h
  | cons x l ih =>
    exact ih (hF t x List.mem_cons_self h) fun u y hy => hF u y (List.mem_cons_of_mem x hy)

/-- The checks of R387 run again. -/
theorem rearmAll (o s : State) : Frame (loopUnits o) (among loopTemplates) s (rearmAll s) := by
  have h : LoopsOnly s (Machine.rearmAll s) := (LoopsOnly.refl s).rearmAll
  have hl : loopTemplates.map template = loopTemplates := by decide
  refine ⟨fun a ha hf => h.get a ?_, loopRest_rearmAll o s, h.outside⟩
  simp only [among, hl] at hf
  simp [loopObj, ha, hf]

end Frame

end Sys2Proof.Machine
end

section
/-! TOPO_REGION_OFF: regions that a commit leaves without a loop go off (R54, R55, R98). -/

namespace Sys2Proof.Machine

/-! ### The active topology -/

/-- The objects that the active topology is read from. -/
def topoShown (a : Addr) : Prop := (∃ b < 24, a = O.BLK_LOOP b) ∨ (∃ k < 8, a = O.LOOP_MASTER k) ∨ a = O.FB_MASK

theorem activeTopo_congr {s t : State} (h : ∀ a, topoShown a → t.get a = s.get a) : activeTopo t = activeTopo s := by
  have hb : ∀ b ∈ List.range 24, t.getN (O.BLK_LOOP b) = s.getN (O.BLK_LOOP b) := fun b hb =>
    congrArg Int.toNat (h _ (.inl ⟨b, List.mem_range.mp hb, rfl⟩))
  have hk : ∀ k ∈ List.range 8, t.getN (O.LOOP_MASTER k) = s.getN (O.LOOP_MASTER k) := fun k hk =>
    congrArg Int.toNat (h _ (.inr (.inl ⟨k, List.mem_range.mp hk, rfl⟩)))
  have hm : t.getN O.FB_MASK = s.getN O.FB_MASK := congrArg Int.toNat (h _ (.inr (.inr rfl)))
  simp only [activeTopo, List.map_congr_left hb, List.map_congr_left hk, hm]

theorem recorderObj_of_topoShown {a : Addr} (h : topoShown a) : recorderObj a = false := by
  have hb : ∀ b < 24, recorderObj (O.BLK_LOOP b) = false := by decide
  have hk : ∀ k < 8, recorderObj (O.LOOP_MASTER k) = false := by decide
  obtain ⟨b, h, rfl⟩ | ⟨k, h, rfl⟩ | rfl := h
  · exact hb b h
  · exact hk k h
  · decide

theorem topoShown_range {a : Addr} (h : topoShown a) : 0x201401 ≤ a ∧ a ≤ 0x201701 := by
  have hb : ∀ b < 24, 0x201401 ≤ O.BLK_LOOP b ∧ O.BLK_LOOP b ≤ 0x201701 := by decide
  have hk : ∀ k < 8, 0x201401 ≤ O.LOOP_MASTER k ∧ O.LOOP_MASTER k ≤ 0x201701 := by decide
  obtain ⟨b, h, rfl⟩ | ⟨k, h, rfl⟩ | rfl := h
  · exact hb b h
  · exact hk k h
  · decide

/-- No template of a list lies among the topology's objects: a step that writes only such objects keeps the topology. -/
theorem not_among_of_topoShown {l : List Addr} {a : Addr} (h : topoShown a)
    (hl : ∀ b ∈ l.map template, b < 0x201401 ∨ 0x201701 < b := by decide) : ¬ among l a := by
  obtain ⟨h1, h2⟩ := topoShown_range h
  unfold among
  rw [template_chip ⟨Nat.le_trans (by decide) h1, Nat.lt_of_le_of_lt h2 (by decide)⟩]
  intro hm
  rcases hl a hm with h3 | h3
  · exact absurd h1 (Nat.not_le.mpr h3)
  · exact absurd h2 (Nat.not_le.mpr h3)

/-! ### Regions switched off (R54, R55, R98) -/

/-- The objects of a region, of its blocks and of its cells that read their reset values while it is off, RG_STATE apart. -/
def offObjs : List Addr :=
  [O.RG_FLAGS 0, O.RG_LOOPS 0, O.RG_ROLE 0, O.TR_STAT 0, O.DIE_T 0, O.DIE_BAND 0, O.DIE_STAT 0, O.DIE_ROR 0, O.IMREF_MEAS 0,
   O.IMREF_STAT 0, O.TMON_T 0, O.BLK_FLT 0, O.TMON_MV 0, O.TMON_BAND 0, O.TMON_STAT 0, O.TMON_ROR 0, O.IMON_RAW 0, O.IMON_CUR 0,
   O.IMON_BAND 0, O.LEDGER 0, O.SLOT_POS 0, O.TON_LAST 0, O.LEDGER_DROP 0, O.RUNT_CNT 0, O.CELL_FLT 0, O.CS_GT 0]

/-- A state with its loops, cells and blocks taken from `o`. -/
def blankUnits (o s : State) : State := { s with loops := o.loops, cells := o.cells, blocks := o.blocks }

/-- A state with its loops, cells, blocks, regions and traces taken from `o`. -/
def offUnits (o s : State) : State := { blankUnits o s with regions := o.regions, traces := o.traces }

theorem Frame.modBlock {o s t : State} {f : Addr → Prop} (h : Frame (blankUnits o) f s t) (b : BlockId) (g : Block → Block) :
    Frame (blankUnits o) f s (t.modBlock b g) := h.step

theorem Frame.modCell {o s t : State} {f : Addr → Prop} (h : Frame (blankUnits o) f s t) (n : CellId) (g : Cell → Cell) :
    Frame (blankUnits o) f s (t.modCell n g) := h.step

/-- What a region's blank leaves once its flags and its state are cleared. -/
theorem regionBlank_frame (o s : State) (r : RegionId) :
    Frame (blankUnits o) (among offObjs) ((s.setN (O.RG_FLAGS r) 0).setN (O.RG_STATE r) 0) (regionBlank s r) := by
  unfold regionBlank
  extract_lets u v w x y z
  have hr := r.isLt
  have hv : Frame (blankUnits o) (among offObjs) u v :=
    .setN (.setN (.setN (.refl _ _ _) (among_region (hn := hr)) _) (among_region (hn := hr)) _) (among_trace (hn := hr)) _
  have hw : Frame (blankUnits o) (among offObjs) u w := hv.foldl fun _ _ _ h => h.step
  have hy : Frame (blankUnits o) (among offObjs) u y :=
    .set (.setN (.setN (.set hw (among_region (hn := hr)) _) (among_region (hn := hr)) _) (among_region (hn := hr)) _)
      (among_region (hn := hr)) _
  have hz : Frame (blankUnits o) (among offObjs) u z := hy.foldl fun t b hb h => by
    have hn : b < 24 := by
      simp only [List.mem_cons, List.not_mem_nil, or_false] at hb
      omega
    extract_lets t1
    have h1 : Frame (blankUnits o) (among offObjs) u t1 :=
      .setN (.set (.setN (.setN h (among_block (hn := hn)) _) (among_block (hn := hn)) _) (among_block (hn := hn)) _)
        (among_block (hn := hn)) _
    have h2 : Frame (blankUnits o) (among offObjs) u
        ((((t1.setN (O.TMON_MV b) 0).setN (O.TMON_BAND b) 1).setN (O.TMON_STAT b) 0).set (O.TMON_ROR b) 0) :=
      .set (.setN (.setN (.setN h1 (among_block (hn := hn)) _) (among_block (hn := hn)) _) (among_block (hn := hn)) _)
        (among_block (hn := hn)) _
    exact h2.modBlock _ _
  refine hz.foldl fun t i hi h => ?_
  extract_lets n t1 t2 t3
  have hn : n < 96 := by
    have := List.mem_range.mp hi
    omega
  have h1 : Frame (blankUnits o) (among offObjs) u t1 :=
    .setN (.set (.setN h (among_cell (hn := hn)) _) (among_cell (hn := hn)) _) (among_cell (hn := hn)) _
  have h2 : Frame (blankUnits o) (among offObjs) u t2 :=
    .setN (.setN (.set h1 (among_cell (hn := hn)) _) (among_cell (hn := hn)) _) (among_cell (hn := hn)) _
  have h3 : Frame (blankUnits o) (among offObjs) u t3 :=
    .setN (.setN (.setN h2 (among_cell (hn := hn)) _) (among_cell (hn := hn)) _) (among_cell (hn := hn)) _
  have h4 : Frame (blankUnits o) (among offObjs) u (t3.setN (O.CS_GT n) 4096) := .setN h3 (among_cell (hn := hn)) _
  exact h4.modCell _ _

/-- The objects that switching a region off writes. -/
def offWritten : List Addr := O.RG_STATE 0 :: offObjs

theorem rgState_free (r : RegionId) : recorderObj (O.RG_STATE r) = false := by
  revert r
  decide

/-- No frame whose templates lack RG_STATE writes it. -/
theorem not_among_rgState {l : List Addr} (r : RegionId) (hl : 0x210001 ∉ l.map template := by decide) : ¬ among l (O.RG_STATE r) := by
  unfold among
  rw [template_region (by decide) r.isLt]
  exact hl

theorem rgState_injective {r j : RegionId} (h : O.RG_STATE j = O.RG_STATE r) : j = r := by
  have h : 0x210001 + 0x2000 * j.val = 0x210001 + 0x2000 * r.val := h
  exact Fin.ext (by omega)

theorem rgState_ne_rgFlags (j r : RegionId) : O.RG_STATE j ≠ O.RG_FLAGS r := by
  intro h
  have h : 0x210001 + 0x2000 * j.val = 0x210004 + 0x2000 * r.val := h
  omega

theorem regionBlank_rgState (s : State) (r j : RegionId) :
    (regionBlank s r).getN (O.RG_STATE j) = if j = r then 0 else s.getN (O.RG_STATE j) := by
  rw [(regionBlank_frame s s r).getN (rgState_free j) (not_among_rgState j)]
  split
  · next h => simp [h]
  · next h =>
    rw [State.getN_setN_ne _ _ fun e => h (rgState_injective e), State.getN_setN_ne _ _ (rgState_ne_rgFlags j r)]

theorem regionBlank_regions (s : State) (r : RegionId) : (regionBlank s r).regions = s.regions :=
  (regionBlank_frame s s r).field State.regions

/-- A region's trace, and what the region keeps, are gone. -/
def resetRegion (s : State) (r : RegionId) : State := (s.modTrace r fun _ => {}).modRegion r fun _ => {}

theorem Frame.resetRegion {o s t : State} {f : Addr → Prop} (h : Frame (offUnits o) f s t) (r : RegionId) :
    Frame (offUnits o) f s (resetRegion t r) := h.step

theorem getN_resetRegion (s : State) (r : RegionId) (a : Addr) : (resetRegion s r).getN a = s.getN a := rfl

theorem writes_resetRegion (s : State) (r j : RegionId) :
    (resetRegion s r).regions[j].writes = if j = r then [] else s.regions[j].writes := by
  unfold resetRegion
  by_cases h : j = r <;> simp [h]

/-- A region goes off for which no write waits. -/
theorem regionOff_eq {s : State} {r : RegionId} (hw : s.regions[r].writes = []) :
    regionOff s r = resetRegion (regionBlank s r) r := by
  unfold regionOff
  rw [hw]
  rfl

theorem regionOff_frame (o : State) {s : State} {r : RegionId} (hw : s.regions[r].writes = []) :
    Frame (offUnits o) (among offWritten) s (regionOff s r) := by
  have h0 : Frame (blankUnits o) (among offWritten) s ((s.setN (O.RG_FLAGS r) 0).setN (O.RG_STATE r) 0) :=
    .setN (.setN (.refl _ _ _) (among_region (hn := r.isLt)) _) (among_region (hn := r.isLt)) _
  have h1 : Frame (blankUnits o) (among offWritten) s (regionBlank s r) :=
    h0.trans (among_ring_cfg) ((regionBlank_frame o s r).mono fun _ ha => List.mem_cons_of_mem _ ha)
  have h2 : Frame (offUnits o) (among offWritten) s (regionBlank s r) :=
    h1.hide fun u => { u with regions := o.regions, traces := o.traces }
  rw [regionOff_eq hw]
  exact h2.resetRegion r

/-- Step 2 of R98 for one region: it goes off where it holds no loop. -/
def offIfEmpty (s : State) (r : RegionId) : State :=
  if (heldBy s r).isEmpty && s.getN (O.RG_STATE r) != 0 then regionOff s r else s

/-- No write waits for a region that holds no loop. -/
def EmptyIdle (s : State) : Prop := ∀ r : RegionId, heldBy s r = [] → s.regions[r].writes = []

section
variable {s : State} (hw : EmptyIdle s)
include hw

theorem offIfEmpty_frame (o : State) (r : RegionId) : Frame (offUnits o) (among offWritten) s (offIfEmpty s r) := by
  unfold offIfEmpty
  split
  · next h =>
    simp only [Bool.and_eq_true, List.isEmpty_iff] at h
    exact regionOff_frame o (hw r h.1)
  · exact .refl _ _ _

theorem activeTopo_offIfEmpty (r : RegionId) : activeTopo (offIfEmpty s r) = activeTopo s :=
  activeTopo_congr fun _ ha => (offIfEmpty_frame hw s r).get (recorderObj_of_topoShown ha) (not_among_of_topoShown ha)

theorem heldBy_offIfEmpty (r : RegionId) (n : Nat) : heldBy (offIfEmpty s r) n = heldBy s n :=
  congrArg (Topo.held · n) (activeTopo_offIfEmpty hw r)

theorem offIfEmpty_rgState (r j : RegionId) :
    (offIfEmpty s r).getN (O.RG_STATE j) = if j = r ∧ heldBy s j = [] then 0 else s.getN (O.RG_STATE j) := by
  unfold offIfEmpty
  split
  · next h =>
    simp only [Bool.and_eq_true, List.isEmpty_iff] at h
    rw [regionOff_eq (hw r h.1), getN_resetRegion, regionBlank_rgState]
    by_cases hj : j = r
    · subst hj; simp [h.1]
    · simp [hj]
  · next h =>
    split
    · next hj =>
      obtain ⟨rfl, hj⟩ := hj
      simpa [hj] using h
    · rfl

theorem offIfEmpty_idle (r : RegionId) : EmptyIdle (offIfEmpty s r) := by
  intro j hj
  rw [heldBy_offIfEmpty hw] at hj
  unfold offIfEmpty
  split
  · next h =>
    simp only [Bool.and_eq_true, List.isEmpty_iff] at h
    rw [regionOff_eq (hw r h.1), writes_resetRegion, regionBlank_regions]
    split
    · rfl
    · exact hw j hj
  · exact hw j hj
end

/-- The regions of a list go off where they hold no loop, and no other object of theirs but the listed ones moves. -/
theorem foldl_offIfEmpty (o : State) (l : List RegionId) {s : State} (hw : EmptyIdle s) :
    Frame (offUnits o) (among offWritten) s (l.foldl offIfEmpty s) ∧
      ∀ j : RegionId, (l.foldl offIfEmpty s).getN (O.RG_STATE j) =
        if j ∈ l ∧ heldBy s j = [] then 0 else s.getN (O.RG_STATE j) := by
  induction l generalizing s with
  | nil => exact ⟨.refl _ _ _, fun _ => by simp⟩
  | cons r l ih =>
    obtain ⟨hf, hs⟩ := ih (offIfEmpty_idle hw r)
    refine ⟨(offIfEmpty_frame hw o r).trans among_ring_cfg hf, fun j => ?_⟩
    rw [List.foldl_cons, hs j, heldBy_offIfEmpty hw, offIfEmpty_rgState hw]
    by_cases hj : heldBy s j = []
    · by_cases hr : j = r
      · subst hr; simp [hj]
      · simp [hj, hr]
    · simp [hj]

/-! ### A commit applied (R98 step 4, R101) -/

/-- A state with everything taken from `o` that settling a commit may change beside objects. -/
def settleUnits (o s : State) : State :=
  { s with loops := o.loops, fb := { s.fb with affected := o.fb.affected }, chip := { s.chip with applying := o.chip.applying } }

theorem topoSettle_frame (o s : State) : Frame (settleUnits o) (among [O.TOPO_STATUS]) s (topoSettle s) := by
  have h (v : Nat) : Frame (settleUnits o) (among [O.TOPO_STATUS]) s (s.setN O.TOPO_STATUS v) :=
    .setN (.refl _ _ _) (by unfold among; decide) v
  have failed {t : State} (h : Frame (settleUnits o) (among [O.TOPO_STATUS]) s t) :
      Frame (settleUnits o) (among [O.TOPO_STATUS]) s { t with chip := { t.chip with applying := none } } := h.step
  have applied {t : State} (h : Frame (settleUnits o) (among [O.TOPO_STATUS]) s t) : Frame (settleUnits o) (among [O.TOPO_STATUS]) s
      { t with chip := { t.chip with applying := none }, fb := { t.fb with affected := false } } := h.step
  unfold topoSettle
  split
  · split
    · exact failed (h 4)
    · exact applied ((h 2).foldl fun _ _ _ h => h.step)
  · exact .refl _ _ _

/-- A state with everything taken from `o` that TOPO_REGION_OFF may move beside objects. -/
def regionOffUnits (o s : State) : State :=
  let u := loopUnits o s
  { u with blocks := o.blocks, regions := o.regions, traces := o.traces, fb := { u.fb with affected := o.fb.affected },
           chip := { u.chip with bus := o.chip.bus, applying := o.chip.applying } }

/-- The share bus takes a schedule. -/
def scheduleBus (s : State) (b : List (Nat × Nat)) : State := { s with chip := { s.chip with bus := b } }

theorem Frame.scheduleBus {o s t : State} {f : Addr → Prop} (h : Frame (regionOffUnits o) f s t) (b : List (Nat × Nat)) :
    Frame (regionOffUnits o) f s (scheduleBus t b) := h.step

/-- The objects, by template, that TOPO_REGION_OFF may write beside those of `loopTemplates`. -/
def regionOffObjs : List Addr :=
  [O.TOPO_STATUS, O.RG_STATE 0, O.RG_FLAGS 0, O.DIE_T 0, O.DIE_BAND 0, O.DIE_STAT 0, O.DIE_ROR 0, O.IMREF_MEAS 0,
   O.IMREF_STAT 0, O.TMON_T 0, O.TMON_MV 0, O.TMON_BAND 0, O.TMON_STAT 0, O.TMON_ROR 0, O.IMON_RAW 0, O.IMON_CUR 0, O.IMON_BAND 0,
   O.LEDGER 0, O.TON_LAST 0, O.CS_GT 0, O.RG_LOOPS 0, O.RG_ROLE 0, O.TR_STAT 0, O.BLK_FLT 0, O.LEDGER_DROP 0, O.RUNT_CNT 0,
   O.CELL_FLT 0]

/-- The objects that TOPO_REGION_OFF may write. -/
def regionOffObj (a : Addr) : Prop := among loopTemplates a ∨ among regionOffObjs a

theorem regionOffObj_of_offWritten {a : Addr} (h : among offWritten a) : regionOffObj a := by
  have hsub : offWritten ⊆ loopTemplates ++ regionOffObjs := by decide
  have h := among_mono h hsub
  unfold among at h
  rwa [List.map_append, List.mem_append] at h

theorem regionOffObj_ring_cfg (r : RingId) : ¬ regionOffObj (O.RING_CFG r) := by
  rintro (h | h)
  · exact among_ring_cfg (by decide) r h
  · exact among_ring_cfg (by decide) r h

theorem execTopoRegionOff_eq {s : State} (ha : s.chip.applying = some .commit) : execTopoRegionOff s =
    .next (rearmAll (topoSettle (scheduleBus (eachRegion s offIfEmpty) (activeTopo (eachRegion s offIfEmpty)).schedule))) := by
  unfold execTopoRegionOff scheduleBus offIfEmpty
  rw [if_pos ha]

theorem execTopoRegionOff_frame {s : State} (ha : s.chip.applying = some .commit) (hw : EmptyIdle s) :
    ∃ t, execTopoRegionOff s = .next t ∧ Frame (regionOffUnits s) regionOffObj s t ∧ t.chip.bus = (activeTopo s).schedule ∧
      ∀ r : RegionId, t.getN (O.RG_STATE r) = if heldBy s r = [] then 0 else s.getN (O.RG_STATE r) := by
  obtain ⟨hf, hs⟩ := foldl_offIfEmpty s (List.finRange 8) hw
  have hexec := execTopoRegionOff_eq ha
  unfold eachRegion at hexec
  generalize (List.finRange 8).foldl offIfEmpty s = u at hf hs hexec
  have htopo : activeTopo u = activeTopo s :=
    activeTopo_congr fun _ ha => hf.get (recorderObj_of_topoShown ha) (not_among_of_topoShown ha)
  obtain ⟨v, hv⟩ : ∃ v, v = scheduleBus u (activeTopo u).schedule := ⟨_, rfl⟩
  have hset := topoSettle_frame s v
  have harm := Frame.rearmAll s (topoSettle v)
  refine ⟨rearmAll (topoSettle v), hv ▸ hexec, ?_, ?_, fun r => ?_⟩
  · have h1 : Frame (regionOffUnits s) regionOffObj s u :=
      (hf.mono fun _ h => regionOffObj_of_offWritten h).hide (regionOffUnits s)
    have h2 : Frame (regionOffUnits s) regionOffObj v (topoSettle v) :=
      (hset.mono fun _ h => .inr (among_mono h (by decide))).hide (regionOffUnits s)
    have h3 : Frame (regionOffUnits s) regionOffObj (topoSettle v) (rearmAll (topoSettle v)) :=
      (harm.mono fun _ h => .inl h).hide (regionOffUnits s)
    exact ((hv ▸ h1.scheduleBus _ : Frame _ _ s v).trans regionOffObj_ring_cfg h2).trans regionOffObj_ring_cfg h3
  · rw [harm.field (fun u => u.chip.bus), hset.field (fun u => u.chip.bus), hv, ← htopo]
    rfl
  · rw [harm.getN (rgState_free r) (not_among_rgState r), hset.getN (rgState_free r) (not_among_rgState r)]
    have h1 : v.getN (O.RG_STATE r) = u.getN (O.RG_STATE r) := by rw [hv]; rfl
    simpa [h1] using hs r

end Sys2Proof.Machine
end

section
/-! The accepted commit: the dictionary takes the staged topology, and the loops that it affects wait (R94 to R98). -/

namespace Sys2Proof.Machine

/-! ### Objects copied one after another -/

section
variable {A : Nat → Addr} {V : State → Nat → Int} {s : State} {n : Nat}

/-- A value that no write of the copy disturbs is the same after it. -/
theorem foldl_set_const {β : Type} (p : State → β) (hp : ∀ u x, ∀ i < n, p (u.set (A i) x) = p u) :
    p ((List.range n).foldl (fun s i => s.set (A i) (V s i)) s) = p s := by
  induction n with
  | zero => rfl
  | succ n ih =>
    rw [List.range_succ, List.foldl_append, List.foldl_cons, List.foldl_nil, hp _ _ n (Nat.lt_succ_self n)]
    exact ih fun u x i hi => hp u x i (Nat.lt_succ_of_lt hi)

/-- Each object of the copy has its own value. -/
theorem get_foldl_set (hA : ∀ i < n, ∀ j < n, A i = A j → i = j) (hV : ∀ u x, ∀ i < n, ∀ j < n, V (u.set (A i) x) j = V u j)
    {i : Nat} (hi : i < n) : ((List.range n).foldl (fun s i => s.set (A i) (V s i)) s).get (A i) = V s i := by
  induction n with
  | zero => exact absurd hi (Nat.not_lt_zero i)
  | succ n ih =>
    rw [List.range_succ, List.foldl_append, List.foldl_cons, List.foldl_nil]
    by_cases h : i = n
    · subst h
      rw [State.get_set_same]
      exact foldl_set_const (fun u => V u i) fun u x j hj => hV u x j (Nat.lt_succ_of_lt hj) i hi
    · have hn := Nat.lt_succ_self n
      rw [State.get_set_ne _ _ fun e => h (hA i hi n hn e)]
      exact ih (fun i hi j hj => hA i (Nat.lt_succ_of_lt hi) j (Nat.lt_succ_of_lt hj))
        (fun u x i hi j hj => hV u x i (Nat.lt_succ_of_lt hi) j (Nat.lt_succ_of_lt hj)) (by omega)

end

/-! ### The staged topology becomes active -/

/-- The objects that show what follows from the active topology. -/
def derivedObj (a : Addr) : Prop := arrays [O.LOOP_RATE 0] a ∨ among [O.RG_LOOPS 0, O.RG_ROLE 0] a

theorem derived_frame (Q : State → State) (s : State) : Frame Q derivedObj s (eachRegion (loopRates s) rolesShown) := by
  have hr : Frame Q derivedObj s (loopRates s) := Frame.foldl (.refl _ _ _) fun _ k hk h =>
    h.setN (.inl (arrays_chip (hn := Nat.lt_trans (List.mem_range.mp hk) (by decide)))) _
  refine hr.foldl fun t r _ h => ?_
  unfold rolesShown
  split
  · exact h
  · exact (h.setN (.inr (among_region (hn := r.isLt))) _).setN (.inr (among_region (hn := r.isLt))) _

/-- The objects that a topology is written to as it becomes active. -/
def takenObj (a : Addr) : Prop := arrays [O.BLK_LOOP 0, O.LOOP_MASTER 0] a ∨ a = O.FB_MASK ∨ derivedObj a

theorem topoTake_frame (Q : State → State) (s : State) (t : Topo) : Frame Q takenObj s (topoTake s t) := by
  unfold topoTake
  extract_lets u v
  have hu : Frame Q takenObj s u := Frame.foldl (.refl _ _ _) fun _ b hb h =>
    h.setN (.inl (arrays_chip (hn := Nat.lt_trans (List.mem_range.mp hb) (by decide)))) _
  have hv : Frame Q takenObj s v := hu.foldl fun _ k hk h =>
    h.setN (.inl (arrays_chip (hn := Nat.lt_trans (List.mem_range.mp hk) (by decide)))) _
  have hm : Frame Q takenObj s (v.setN O.FB_MASK t.mask) := hv.setN (.inr (.inl rfl)) _
  refine hm.trans ?_ ((derived_frame Q _).mono fun _ h => .inr (.inr h))
  rintro r (h | h | h | h)
  · exact arrays_ring_cfg (by decide) r h
  · revert h r; decide
  · exact arrays_ring_cfg (by decide) r h
  · exact among_ring_cfg (by decide) r h

theorem topoTake_mask (s : State) (t : Topo) : (topoTake s t).getN O.FB_MASK = t.mask := by
  have hd : ¬ derivedObj O.FB_MASK := by unfold derivedObj arrays among; decide
  unfold topoTake
  rw [(derived_frame id _).getN (by decide) hd, State.getN_setN_same]

theorem topoTake_blkLoop (s : State) (t : Topo) {b : Nat} (hb : b < 24) : (topoTake s t).getN (O.BLK_LOOP b) = t.blk.getD b 255 := by
  have hd : ∀ b < 24, ¬ derivedObj (O.BLK_LOOP b) := by unfold derivedObj arrays among; decide
  have hr : ∀ b < 24, recorderObj (O.BLK_LOOP b) = false := by decide
  have hmask : ∀ b < 24, O.BLK_LOOP b ≠ O.FB_MASK := by decide
  have hmaster : ∀ b < 24, ∀ k < 8, O.BLK_LOOP b ≠ O.LOOP_MASTER k := by decide
  have hi : ∀ b < 24, ∀ c < 24, O.BLK_LOOP b = O.BLK_LOOP c → b = c := fun b _ c _ h => Nat.add_left_cancel h
  unfold topoTake
  extract_lets u v
  rw [(derived_frame id _).getN (hr b hb) (hd b hb), State.getN_setN_ne _ _ (hmask b hb)]
  have hv : v.get (O.BLK_LOOP b) = u.get (O.BLK_LOOP b) :=
    foldl_set_const (State.get · (O.BLK_LOOP b)) fun u x k hk => State.get_set_ne u x (hmaster b hb k hk)
  have hu : u.get (O.BLK_LOOP b) = (t.blk.getD b 255 : Nat) :=
    get_foldl_set (V := fun _ b => (t.blk.getD b 255 : Nat)) hi (fun _ _ _ _ _ _ => rfl) hb
  simp [State.getN, hv, hu]

theorem stagedTopo_blk (s : State) {b : Nat} (hb : b < 24) : (stagedTopo s).blk.getD b 255 = s.getN (O.BLK_LOOP_STG b) := by
  simp [stagedTopo, hb]

/-- The dictionary of an accepted commit: the topology, TOPO_STATUS APPLYING, no reason, TOPO_GEN counted (R95, R98). -/
def commitObjs (s : State) (t : Topo) : State :=
  (((((topoTake s t).setN O.TOPO_STATUS 1).setN O.TOPO_REASON 0).setN O.TOPO_UNIT 0).setN O.TOPO_REASONS 0).bump O.TOPO_GEN

/-- The loops of an accepted commit: those that it affects wait, their burnish results end, their cells and counters start afresh. -/
def commitLoops (s : State) (a t : Topo) : State :=
  let s := eachLoop s fun s k => s.modLoop k fun l => { l with ctl := { l.ctl with affected := l.ctl.affected || loopAffected a t k } }
  let s := eachLoop s fun s k => if loopAffected a t k then s.setN (O.BUR_VALID k) 0 else s
  let s := eachLoop s fun s k => if loopAffected a t k then spaceLoop s k else s
  newCounters s a t

/-- The commit begins to be applied (R98). -/
def commitBegins (s : State) (mask : Bool) : State :=
  { s with chip := { s.chip with rising := regionsToRise s, switchAt := none, failed := false, applying := some .commit }
           fb := { s.fb with affected := s.fb.affected || mask } }

/-- The checks of a commit's requester (R95; log entry 42). -/
abbrev commitBad (s : State) (byTwin : Bool) : List (Nat × Nat) :=
  topoBad s (activeTopo s) (stagedTopo s) (((List.range 12).map (· + 1)).filter fun c => !(byTwin && c == 2))

/-- The state of an accepted commit but for its event. -/
def committed (s : State) : State :=
  commitBegins (commitLoops (commitObjs s (stagedTopo s)) (activeTopo s) (stagedTopo s)) ((activeTopo s).mask != (stagedTopo s).mask)

theorem topoCommit_accepted {s : State} {q : Bool} (h : commitBad s q = []) : topoCommit s q = (record (committed s) 0x0104 .chip, 0) := by
  unfold topoCommit committed commitBegins commitLoops commitObjs
  simp only [h]

theorem topoCommit_refused {s : State} {q : Bool} {c u : Nat} {l : List (Nat × Nat)} (h : commitBad s q = (c, u) :: l) :
    topoCommit s q = (topoReject s ((c, u) :: l), if c = 1 ∨ c = 2 ∨ c = 11 ∨ c = 12 then 0xA030 else 0xA031) := by
  unfold topoCommit
  simp only [h]

/-- A state with the units that a commit's loops have taken from `o`. -/
def commitUnits (o s : State) : State := { s with loops := o.loops, cells := o.cells, free := o.free }

/-- The objects that the loops of a commit write. -/
def commitLoopObj : Addr → Prop := among [O.BUR_VALID 0, O.SLOT_POS 0]

namespace Frame
variable {o s t : State} {f : Addr → Prop}

theorem commitModLoop (h : Frame (commitUnits o) f s t) (k : LoopId) (g : Loop → Loop) : Frame (commitUnits o) f s (t.modLoop k g) := h.step
theorem commitModCell (h : Frame (commitUnits o) f s t) (n : CellId) (g : Cell → Cell) : Frame (commitUnits o) f s (t.modCell n g) := h.step
theorem commitDraw (h : Frame (commitUnits o) f s t) : Frame (commitUnits o) f s t.draw.2 := h.step

theorem spaceLoop (h : Frame (commitUnits o) commitLoopObj s t) (k : LoopId) : Frame (commitUnits o) commitLoopObj s (spaceLoop t k) := by
  unfold Machine.spaceLoop
  split
  · refine h.foldl fun u e _ h => ?_
    split
    · exact h
    · unfold placeCell
      rw [if_neg Bool.false_ne_true]
      have hn : (cellOf e.1).val < 96 := (cellOf e.1).isLt
      have hp : commitLoopObj (O.SLOT_POS (cellOf e.1)) := among_cell (hn := hn)
      exact (h.setN hp _).commitModCell _ _
  · exact h

theorem newCounters (h : Frame (commitUnits o) f s t) (a b : Topo) : Frame (commitUnits o) f s (newCounters t a b) := by
  refine h.foldl fun u k _ h => h.foldl fun v r _ h => ?_
  split
  · unfold startCounter modTrack
    exact h.commitDraw.commitModLoop _ _
  · split
    · exact h.commitModLoop _ _
    · exact h

theorem commitLoops (o s : State) (a b : Topo) : Frame (commitUnits o) commitLoopObj s (commitLoops s a b) := by
  unfold Machine.commitLoops
  extract_lets u v w
  have hu : Frame (commitUnits o) commitLoopObj s u := Frame.foldl (.refl _ _ _) fun _ _ _ h => h.commitModLoop _ _
  have hv : Frame (commitUnits o) commitLoopObj s v := hu.foldl fun _ k _ h => by
    split
    · exact h.setN (among_loop (hn := k.isLt)) _
    · exact h
  have hw : Frame (commitUnits o) commitLoopObj s w := hv.foldl fun _ k _ h => by
    split
    · exact h.spaceLoop k
    · exact h
  exact hw.newCounters a b
end Frame

/-- The objects that a commit writes. -/
def commitObj (a : Addr) : Prop :=
  arrays [O.BLK_LOOP 0, O.LOOP_MASTER 0, O.LOOP_RATE 0] a ∨
    among [O.TOPO_STATUS, O.TOPO_REASON, O.TOPO_REASONS, O.TOPO_UNIT, O.TOPO_GEN, O.FB_MASK, O.BUR_VALID 0, O.RG_LOOPS 0, O.RG_ROLE 0,
      O.SLOT_POS 0] a

theorem commitObj_ring_cfg (r : RingId) : ¬ commitObj (O.RING_CFG r) := by
  rintro (h | h)
  · exact arrays_ring_cfg (by decide) r h
  · exact among_ring_cfg (by decide) r h

theorem commitObjs_frame (Q : State → State) (s : State) (t : Topo) : Frame Q commitObj s (commitObjs s t) := by
  have h0 : Frame Q commitObj s (topoTake s t) := (topoTake_frame Q s t).mono fun a h => by
    rcases h with h | h | h | h
    · exact .inl (arrays_mono h (by decide))
    · exact .inr (among_mono (l := [O.FB_MASK]) (List.mem_map.mpr ⟨a, by simp [h]⟩) (by decide))
    · exact .inl (arrays_mono h (by decide))
    · exact .inr (among_mono h (by decide))
  have status {a : Addr} (h : a ∈ [O.TOPO_STATUS, O.TOPO_REASON, O.TOPO_REASONS, O.TOPO_UNIT, O.TOPO_GEN]) : commitObj a :=
    .inr (among_mono (List.mem_map_of_mem h) (by decide))
  exact ((((h0.setN (status (by decide)) 1).setN (status (by decide)) 0).setN (status (by decide)) 0).setN
    (status (by decide)) 0).setN (status (by decide)) _


theorem committed_frame (s : State) : Frame (commitUnits s) commitLoopObj (commitObjs s (stagedTopo s))
    (commitLoops (commitObjs s (stagedTopo s)) (activeTopo s) (stagedTopo s)) := Frame.commitLoops s _ _ _

/-- An object that the loops of a commit leave reads as the commit's dictionary has it. -/
theorem getN_committed (s : State) {a : Addr} (ha : recorderObj a = false) (hl : ¬ commitLoopObj a) :
    (committed s).getN a = (commitObjs s (stagedTopo s)).getN a :=
  (committed_frame s).getN ha hl

theorem commitLoopObj_chip {a : Addr} (h : 0x115000 ≤ a ∧ a < 0x210000) : ¬ commitLoopObj a := by
  have hl : ∀ b ∈ [O.BUR_VALID 0, O.SLOT_POS 0].map template, 0x210000 ≤ b := by decide
  intro hm
  unfold commitLoopObj among at hm
  rw [template_chip h] at hm
  exact absurd (hl a hm) (Nat.not_le.mpr h.2)

theorem committed_status (s : State) : (committed s).getN O.TOPO_STATUS = 1 := by
  rw [getN_committed s (by decide) (commitLoopObj_chip (by decide))]
  unfold commitObjs State.bump
  rw [State.getN_setN_ne _ _ (by decide), State.getN_setN_ne _ _ (by decide), State.getN_setN_ne _ _ (by decide),
    State.getN_setN_ne _ _ (by decide), State.getN_setN_same]

theorem committed_reason (s : State) : (committed s).getN O.TOPO_REASON = 0 := by
  rw [getN_committed s (by decide) (commitLoopObj_chip (by decide))]
  unfold commitObjs State.bump
  rw [State.getN_setN_ne _ _ (by decide), State.getN_setN_ne _ _ (by decide), State.getN_setN_ne _ _ (by decide),
    State.getN_setN_same]

/-- An object that is not of the commit's status reads as the topology that becomes active has it. -/
theorem getN_commitObjs (s : State) (t : Topo) {a : Addr}
    (h : a ∉ [O.TOPO_STATUS, O.TOPO_REASON, O.TOPO_UNIT, O.TOPO_REASONS, O.TOPO_GEN]) :
    (commitObjs s t).getN a = (topoTake s t).getN a := by
  simp only [List.mem_cons, List.not_mem_nil, or_false, not_or] at h
  obtain ⟨h1, h2, h3, h4, h5⟩ := h
  unfold commitObjs State.bump
  rw [State.getN_setN_ne _ _ h5, State.getN_setN_ne _ _ h4, State.getN_setN_ne _ _ h3, State.getN_setN_ne _ _ h2,
    State.getN_setN_ne _ _ h1]

theorem committed_gen (s : State) : (committed s).getN O.TOPO_GEN = (s.getN O.TOPO_GEN + 1) % 2 ^ 32 := by
  have ht : ¬ takenObj O.TOPO_GEN := by unfold takenObj derivedObj arrays among; decide
  rw [getN_committed s (by decide) (commitLoopObj_chip (by decide))]
  unfold commitObjs
  rw [State.getN_bump_same, State.getN_setN_ne _ _ (by decide), State.getN_setN_ne _ _ (by decide), State.getN_setN_ne _ _ (by decide),
    State.getN_setN_ne _ _ (by decide), (topoTake_frame id s _).getN (by decide) ht]
  rfl

theorem committed_mask (s : State) : (committed s).getN O.FB_MASK = s.getN O.FB_MASK_STG := by
  rw [getN_committed s (by decide) (commitLoopObj_chip (by decide)), getN_commitObjs s _ (by decide), topoTake_mask]
  rfl

theorem committed_blkLoop (s : State) {b : Nat} (hb : b < 24) : (committed s).getN (O.BLK_LOOP b) = s.getN (O.BLK_LOOP_STG b) := by
  have hr : ∀ b < 24, recorderObj (O.BLK_LOOP b) = false := by decide
  have hn : ∀ b < 24, O.BLK_LOOP b ∉ [O.TOPO_STATUS, O.TOPO_REASON, O.TOPO_UNIT, O.TOPO_REASONS, O.TOPO_GEN] := by decide
  have hc : ∀ b < 24, 0x115000 ≤ O.BLK_LOOP b ∧ O.BLK_LOOP b < 0x210000 := by decide
  rw [getN_committed s (hr b hb) (commitLoopObj_chip (hc b hb)), getN_commitObjs s _ (hn b hb), topoTake_blkLoop s _ hb, stagedTopo_blk s hb]

theorem regionsToRise_congr {s t : State} (h : ∀ a, topoShown a → t.get a = s.get a)
    (hr : ∀ r : RegionId, t.getN (O.RG_STATE r) = s.getN (O.RG_STATE r)) : regionsToRise t = regionsToRise s := by
  unfold regionsToRise heldBy
  rw [activeTopo_congr h]
  refine List.filter_congr fun r hm => ?_
  rw [show t.getN (O.RG_STATE r) = s.getN (O.RG_STATE r) from hr ⟨r, List.mem_range.mp hm⟩]

theorem committed_chip (s : State) : (committed s).chip =
    { s.chip with rising := regionsToRise (committed s), switchAt := none, failed := false, applying := some .commit } := by
  have hc : (commitLoops (commitObjs s (stagedTopo s)) (activeTopo s) (stagedTopo s)).chip = s.chip :=
    ((committed_frame s).field State.chip).trans ((commitObjs_frame id s _).field State.chip)
  unfold committed commitBegins
  rw [hc]
  rfl

end Sys2Proof.Machine
end

section
/-! Writes of TOPO_CMD: a commit accepted or rejected (R95, R96), a discard (R97), and the statement of O5. -/

namespace Sys2Proof.Machine

/-! ### Writes -/

section
variable {s t u : State} {q : Requester} {a : Addr} {data : List Byte} {f : Addr → Prop}

/-- An admitted write whose object's operation answers an abort: the operation's state, and the requester's record of the abort. -/
theorem writeWhole_aborted {w : With} {c : Nat} (h : Admitted s q a data) (hc : c ≠ 0)
    (hu : ∀ r, resolve a = .obj a r → ownChip s q a (ofBytes r.ty data).toNat w = some (u, c)) :
    serve s (fun s => writeWhole s q a data w) = noteAns u q a c := by
  obtain ⟨hs, -, r, hr, hacc, hw, hsh, hst, hcf, -⟩ := h
  have ha : applyWrite s q a r (ofBytes r.ty data) w = (u, c) := by
    unfold applyWrite
    rw [if_neg (by simp [hsh, hst]), if_neg (by simp [hcf]), if_neg hacc, hu r hr]
  unfold serve
  rw [if_pos hs]
  unfold writeWhole
  simp only [hr, hw, ha]
  simp [hc]

/-- An object that no accepted write touches beside its own. -/
def writeFree (a : Addr) : Prop := recorderObj a = false ∧ a ≠ O.DICT_GEN ∧ a ≠ O.TW_ROLE

theorem Written.get (h : Written s t f) {a : Addr} (ha : writeFree a) (hf : ¬ f a) : t.get a = s.get a := by
  obtain ⟨hobj, -, -⟩ := h
  obtain ⟨hr, hd, ht⟩ := ha
  exact hobj a hr (by simp [hd, ht, hf])

theorem Written.getN (h : Written s t f) {a : Addr} (ha : writeFree a) (hf : ¬ f a) : t.getN a = s.getN a :=
  congrArg Int.toNat (h.get ha hf)

theorem Written.chip (h : Written s t f) : t.chip = s.chip := by
  obtain ⟨-, hrest, -⟩ := h
  exact (congrArg State.chip hrest :)

/-- A state with everything taken from `o` that an accepted write may change beside objects. -/
def writeUnits (o s : State) : State :=
  { s with req := o.req, free := o.free, twin := { s.twin with journal := o.twin.journal, jseq := o.twin.jseq } }

/-- The objects that an accepted write may change, with those that `f` names. -/
def writeObj (f : Addr → Prop) (a : Addr) : Prop := a = O.DICT_GEN ∨ a = O.TW_ROLE ∨ f a

theorem Frame.of_written (o : State) (h : Written s t f) : Frame (writeUnits o) (writeObj f) s t := by
  obtain ⟨hobj, hrest, hmem⟩ := h
  exact ⟨hobj, (congrArg (writeUnits o) hrest :), hmem⟩

theorem Frame.written (h : Frame (writeUnits s) (writeObj f) s t) : Written s t f := by
  obtain ⟨hobj, hunits, hmem⟩ := h
  exact ⟨hobj, hunits, hmem⟩

theorem writeObj_ring_cfg (hf : ∀ r : RingId, ¬ f (O.RING_CFG r)) (r : RingId) : ¬ writeObj f (O.RING_CFG r) := by
  rintro (h | h | h)
  · revert h r; decide
  · revert h r; decide
  · exact hf r h

end

/-! ### TOPO_CMD -/

theorem exec_topoCommit (q : Requester) (s : State) :
    exec (.topoCommit q) s = .next (serve s fun s => writeWhole s q O.TOPO_CMD [0xC5]) := rfl

theorem exec_topoDiscard (q : Requester) (s : State) :
    exec (.topoDiscard q) s = .next (serve s fun s => writeWhole s q O.TOPO_CMD [0x5C]) := rfl

theorem topoCmd_ty {r : Row} (h : resolve O.TOPO_CMD = .obj O.TOPO_CMD r) : r.ty = .u8 := by
  have hr : (match resolve O.TOPO_CMD with | .obj _ r => r.ty | _ => .u8) = .u8 := by decide +kernel
  rwa [h] at hr

theorem ownChip_topoCmd (s : State) (q : Requester) (v : Nat) (w : With) :
    ownChip s q O.TOPO_CMD v w = some (if v = 0xC5 then topoCommit s (q == .twin) else (topoDiscard s, 0)) := rfl

theorem writeFree_topo : ∀ a ∈ [O.TOPO_STATUS, O.TOPO_REASON, O.TOPO_UNIT, O.TOPO_GEN, O.FB_MASK, O.FB_MASK_STG], writeFree a := by
  unfold writeFree
  decide

theorem writeFree_blkLoop : ∀ b < 24, writeFree (O.BLK_LOOP b) ∧ writeFree (O.BLK_LOOP_STG b) := by
  unfold writeFree
  decide

theorem writeFree_loopMaster : ∀ k < 8, writeFree (O.LOOP_MASTER k) ∧ writeFree (O.LOOP_MASTER_STG k) := by
  unfold writeFree
  decide

theorem writeFree_rgState : ∀ r : RegionId, writeFree (O.RG_STATE r) := by
  unfold writeFree
  decide

theorem writeFree_of_topoShown {a : Addr} (h : topoShown a) : writeFree a := by
  obtain ⟨b, h, rfl⟩ | ⟨k, h, rfl⟩ | rfl := h
  · exact (writeFree_blkLoop b h).1
  · exact (writeFree_loopMaster k h).1
  · exact writeFree_topo _ (by decide)

/-! ### The accepted commit (R95, R98) -/

theorem topoCommit_write {s : State} {q : Requester} (h : Admitted s q O.TOPO_CMD [0xC5]) (hb : commitBad s (q == .twin) = []) :
    ∃ t, exec (.topoCommit q) s = .next t ∧ Written (committed s) t (fun _ => False) := by
  obtain ⟨t, ht, hw⟩ := writeWhole_admitted (u := record (committed s) 0x0104 .chip) (w := {}) h fun r hr => by
    rw [topoCmd_ty hr, ownChip_topoCmd]
    exact topoCommit_accepted hb
  refine ⟨t, by rw [exec_topoCommit, ht], ?_⟩
  exact Written.trans (fun _ h => h) (.of_record (record_only _ _ _ _) _) hw

/-- A state with everything taken from `o` that a commit may change beside objects. -/
def topoUnits (o s : State) : State :=
  writeUnits o { s with chip := o.chip, loops := o.loops, cells := o.cells, fb := { s.fb with affected := o.fb.affected } }

/-- What an accepted commit leaves unchanged (R98), its event apart. -/
theorem committed_frame_all (s : State) : Frame (topoUnits s) commitObj s (committed s) := by
  have h1 : Frame (topoUnits s) commitObj s (commitObjs s (stagedTopo s)) := commitObjs_frame _ s _
  have h2 : Frame (topoUnits s) commitObj (commitObjs s (stagedTopo s))
      (commitLoops (commitObjs s (stagedTopo s)) (activeTopo s) (stagedTopo s)) :=
    ((committed_frame s).mono fun _ h => .inr (among_mono h (by decide))).hide (topoUnits s)
  have begins {t : State} {m : Bool} (h : Frame (topoUnits s) commitObj s t) : Frame (topoUnits s) commitObj s (commitBegins t m) := h.step
  exact begins (h1.trans commitObj_ring_cfg h2)

theorem topoCommit_passes {s : State} {q : Requester} (h : Admitted s q O.TOPO_CMD [0xC5]) (hb : commitBad s (q == .twin) = []) :
    ∃ t, exec (.topoCommit q) s = .next t ∧ t.getN O.TOPO_STATUS = 1 ∧ t.getN O.TOPO_REASON = 0 ∧
      t.getN O.TOPO_GEN = (s.getN O.TOPO_GEN + 1) % 2 ^ 32 ∧ (∀ b < 24, t.getN (O.BLK_LOOP b) = s.getN (O.BLK_LOOP_STG b)) ∧
      t.getN O.FB_MASK = s.getN O.FB_MASK_STG ∧
      t.chip = { s.chip with rising := regionsToRise t, switchAt := none, failed := false, applying := some .commit } ∧
      Written s { t with chip := s.chip, loops := s.loops, cells := s.cells, fb := { t.fb with affected := s.fb.affected } } commitObj := by
  obtain ⟨t, ht, hw⟩ := topoCommit_write h hb
  have hget {a : Addr} (ha : writeFree a) : t.getN a = (committed s).getN a := hw.getN ha id
  refine ⟨t, ht, ?_, ?_, ?_, fun b hb => ?_, ?_, ?_, ?_⟩
  · rw [hget (writeFree_topo _ (by decide)), committed_status]
  · rw [hget (writeFree_topo _ (by decide)), committed_reason]
  · rw [hget (writeFree_topo _ (by decide)), committed_gen]
  · rw [hget (writeFree_blkLoop b hb).1, committed_blkLoop s hb]
  · rw [hget (writeFree_topo _ (by decide)), committed_mask]
  · have hrise : regionsToRise t = regionsToRise (committed s) :=
      regionsToRise_congr (fun a ha => hw.get (writeFree_of_topoShown ha) id) fun r => hget (writeFree_rgState r)
    rw [hw.chip, hrise]
    exact committed_chip s
  · have h1 : Frame (topoUnits s) (writeObj commitObj) s (committed s) := (committed_frame_all s).mono fun _ h => .inr (.inr h)
    have h2 : Frame (topoUnits s) (writeObj commitObj) (committed s) t :=
      ((Frame.of_written s hw).mono fun _ h => h.imp_right (Or.imp_right False.elim)).hide (topoUnits s)
    obtain ⟨hobj, hunits, hmem⟩ := h1.trans (writeObj_ring_cfg commitObj_ring_cfg) h2
    exact ⟨hobj, hunits, hmem⟩

/-! ### The rejected commit (R95, R96) -/

theorem topoReject_written (s : State) (bad : List (Nat × Nat)) :
    Written s (topoReject s bad) (· ∈ [O.TOPO_STATUS, O.TOPO_REASON, O.TOPO_UNIT, O.TOPO_REASONS]) := by
  have written {a : Addr} (ha : a ∈ [O.TOPO_STATUS, O.TOPO_REASON, O.TOPO_UNIT, O.TOPO_REASONS]) :
      writeObj (· ∈ [O.TOPO_STATUS, O.TOPO_REASON, O.TOPO_UNIT, O.TOPO_REASONS]) a := .inr (.inr ha)
  unfold topoReject
  exact Frame.written (.setN (.setN (.setN (.setN (.refl _ _ _) (written (by decide)) _) (written (by decide)) _) (written (by decide)) _)
    (written (by decide)) _)

theorem topoCommit_fails {s : State} {q : Requester} {c u : Nat} {l : List (Nat × Nat)} (h : Admitted s q O.TOPO_CMD [0xC5])
    (hb : commitBad s (q == .twin) = (c, u) :: l) :
    ∃ t, exec (.topoCommit q) s = .next t ∧ t.getN O.TOPO_STATUS = 3 ∧ t.getN O.TOPO_REASON = c ∧ t.getN O.TOPO_UNIT = u ∧
      Written s t (· ∈ [O.TOPO_STATUS, O.TOPO_REASON, O.TOPO_UNIT, O.TOPO_REASONS]) := by
  have habort : (if c = 1 ∨ c = 2 ∨ c = 11 ∨ c = 12 then 0xA030 else 0xA031) ≠ 0 := by split <;> decide
  have ht := writeWhole_aborted (w := {}) h habort fun r hr => by
    rw [topoCmd_ty hr, ownChip_topoCmd]
    exact congrArg some (topoCommit_refused hb)
  refine ⟨_, (exec_topoCommit q s).trans (congrArg _ ht), ?_, ?_, ?_, ?_⟩
  · show (topoReject s ((c, u) :: l)).getN O.TOPO_STATUS = 3
    unfold topoReject
    rw [State.getN_setN_ne _ _ (by decide), State.getN_setN_ne _ _ (by decide), State.getN_setN_ne _ _ (by decide), State.getN_setN_same]
  · show (topoReject s ((c, u) :: l)).getN O.TOPO_REASON = c
    unfold topoReject
    rw [State.getN_setN_ne _ _ (by decide), State.getN_setN_ne _ _ (by decide), State.getN_setN_same]
    rfl
  · show (topoReject s ((c, u) :: l)).getN O.TOPO_UNIT = u
    unfold topoReject
    rw [State.getN_setN_ne _ _ (by decide), State.getN_setN_same]
    rfl
  · exact (topoReject_written s _).trans (by decide) (written_req _ _ _ _)

/-! ### The discard (R97) -/

/-- The staging objects. -/
def stagingObj (a : Addr) : Prop := arrays [O.BLK_LOOP_STG 0, O.LOOP_MASTER_STG 0] a ∨ a = O.FB_MASK_STG

theorem topoDiscard_written (s : State) : Written s (topoDiscard s) stagingObj := by
  unfold topoDiscard
  extract_lets u v
  have hu : Frame (writeUnits s) (writeObj stagingObj) s u := Frame.foldl (.refl _ _ _) fun _ b hb h =>
    h.set (.inr (.inr (.inl (arrays_chip (hn := Nat.lt_trans (List.mem_range.mp hb) (by decide)))))) _
  have hv : Frame (writeUnits s) (writeObj stagingObj) s v := hu.foldl fun _ k hk h =>
    h.set (.inr (.inr (.inl (arrays_chip (hn := Nat.lt_trans (List.mem_range.mp hk) (by decide)))))) _
  exact (hv.set (.inr (.inr (.inr rfl))) _).written

theorem ne_of_topoShown {a b : Addr} (h : topoShown a) (hb : b < 0x201401) : a ≠ b :=
  fun e => absurd (topoShown_range h).1 (Nat.not_le.mpr (e ▸ hb))

theorem topoDiscard_get (s : State) :
    (∀ b < 24, (topoDiscard s).get (O.BLK_LOOP_STG b) = s.get (O.BLK_LOOP b)) ∧
    (∀ k < 8, (topoDiscard s).get (O.LOOP_MASTER_STG k) = s.get (O.LOOP_MASTER k)) ∧
    (topoDiscard s).get O.FB_MASK_STG = s.get O.FB_MASK := by
  have hblk : ∀ b < 24, O.BLK_LOOP_STG b < 0x201101 := by decide
  have hmaster : ∀ k < 8, 0x201101 ≤ O.LOOP_MASTER_STG k ∧ O.LOOP_MASTER_STG k < 0x201201 := by decide
  unfold topoDiscard
  extract_lets u v
  have hu {a : Addr} (ha : topoShown a) : u.get a = s.get a := foldl_set_const (State.get · a) fun w x b hb =>
    State.get_set_ne w x (ne_of_topoShown ha (Nat.lt_trans (hblk b hb) (by decide)))
  have hv {a : Addr} (ha : topoShown a) : v.get a = u.get a := foldl_set_const (State.get · a) fun w x k hk =>
    State.get_set_ne w x (ne_of_topoShown ha (Nat.lt_trans (hmaster k hk).2 (by decide)))
  refine ⟨fun b hb => ?_, fun k hk => ?_, ?_⟩
  · have hvb : v.get (O.BLK_LOOP_STG b) = u.get (O.BLK_LOOP_STG b) := foldl_set_const (State.get · (O.BLK_LOOP_STG b)) fun w x k hk =>
      State.get_set_ne w x (Nat.ne_of_lt (Nat.lt_of_lt_of_le (hblk b hb) (hmaster k hk).1))
    rw [State.get_set_ne _ _ (Nat.ne_of_lt (Nat.lt_trans (hblk b hb) (by decide))), hvb]
    exact get_foldl_set (V := fun w c => w.get (O.BLK_LOOP c)) (fun _ _ _ _ h => Nat.add_left_cancel h) (fun w x i hi j hj =>
      State.get_set_ne w x (ne_of_topoShown (.inl ⟨j, hj, rfl⟩) (Nat.lt_trans (hblk i hi) (by decide)))) hb
  · have hvk : v.get (O.LOOP_MASTER_STG k) = u.get (O.LOOP_MASTER k) :=
      get_foldl_set (V := fun w c => w.get (O.LOOP_MASTER c)) (fun _ _ _ _ h => Nat.add_left_cancel h) (fun w x i hi j hj =>
        State.get_set_ne w x (ne_of_topoShown (.inr (.inl ⟨j, hj, rfl⟩)) (Nat.lt_trans (hmaster i hi).2 (by decide)))) hk
    rw [State.get_set_ne _ _ (Nat.ne_of_lt (hmaster k hk).2), hvk, hu (.inr (.inl ⟨k, hk, rfl⟩))]
  · rw [State.get_set_same, hv (.inr (.inr rfl)), hu (.inr (.inr rfl))]

theorem topoDiscard_write {s : State} {q : Requester} (h : Admitted s q O.TOPO_CMD [0x5C]) :
    ∃ t, exec (.topoDiscard q) s = .next t ∧ Written (topoDiscard s) t (fun _ => False) := by
  obtain ⟨t, ht, hw⟩ := writeWhole_admitted (u := topoDiscard s) (w := {}) h fun r hr => by
    rw [topoCmd_ty hr, ownChip_topoCmd]
    rfl
  exact ⟨t, by rw [exec_topoDiscard, ht], hw⟩

theorem stagingObj_ring_cfg (r : RingId) : ¬ stagingObj (O.RING_CFG r) := by
  rintro (h | h)
  · exact arrays_ring_cfg (by decide) r h
  · revert h r; decide

theorem Written.mono {s t : State} {f g : Addr → Prop} (h : Written s t f) (hfg : ∀ a, f a → g a) : Written s t g :=
  ((Frame.of_written s h).mono fun a ha => ha.imp_right (Or.imp_right (hfg a))).written

theorem Frame.moves {s t : State} (h : Frame (regionOffUnits s) regionOffObj s t) :
    Moves s { t with blocks := s.blocks, regions := s.regions, traces := s.traces, fb := { t.fb with affected := s.fb.affected },
                     chip := { t.chip with bus := s.chip.bus, applying := s.chip.applying } } (among regionOffObjs) :=
  ⟨h.objects, h.units, h.outside⟩

/-! ### The statement -/

/-- Settles O5: a commit accepted, a commit rejected, a discard, and the regions that a commit leaves without a loop. -/
theorem topologyCommit : Obligations.TopologyCommit := by
  unfold Obligations.TopologyCommit
  refine ⟨fun s q h hb => topoCommit_passes h hb, fun s q c u l h hb => topoCommit_fails h hb, fun s q h => ?_, fun s ha hw => ?_⟩
  · obtain ⟨t, ht, hw⟩ := topoDiscard_write h
    obtain ⟨hblk, hmaster, hmask⟩ := topoDiscard_get s
    refine ⟨t, ht, fun b hb => ?_, fun k hk => ?_, ?_, (topoDiscard_written s).trans stagingObj_ring_cfg (hw.mono fun _ h => h.elim)⟩
    · rw [hw.get (writeFree_blkLoop b hb).2 id, hblk b hb]
    · rw [hw.get (writeFree_loopMaster k hk).2 id, hmaster k hk]
    · rw [hw.get (writeFree_topo _ (by decide)) id, hmask]
  · obtain ⟨t, ht, hf, hbus, hstate⟩ := execTopoRegionOff_frame ha hw
    refine ⟨t, ht, hbus, fun r hr => ?_, fun r hr => ?_, hf.moves⟩
    · rw [hstate r, if_pos hr]
    · rw [hstate r, if_neg hr]

end Sys2Proof.Machine
end

section
/-! Writes of an object that a unit's own operation takes: what the requester's answer adds to the operation, refused and done; the
staging copies that the write leaves as the operation has them (R580, R583, R602). -/

namespace Sys2Proof.Machine

section
variable {s t u : State} {q : Requester} {a : Addr} {data : List Byte} {w : With} {c : Nat}

/-- The operation of a unit's object is what an admitted write of it applies. -/
theorem applyWrite_unit {r : Row} {v : Int} {x : State × Nat} (hs : shadowed s q a r v = false) (hst : stateRule s a v = false)
    (hcf : conflictRule s a v = false) (hacc : r.acc ≠ .rwe) (hc : ownChip s q a v.toNat w = none)
    (hu : ownUnit s q a v.toNat = some x) : applyWrite s q a r v w = x := by
  unfold applyWrite
  rw [if_neg (by simp [hs, hst]), if_neg (by simp [hcf]), if_neg hacc, hc, hu]

/-- An admitted write whose unit's operation answers an abort: the operation's state, and the requester's record of the abort. -/
theorem writeWhole_unit_aborted (h : Admitted s q a data) (hc : c ≠ 0)
    (hu : ∀ r, resolve a = .obj a r → ownChip s q a (ofBytes r.ty data).toNat w = none ∧
      ownUnit s q a (ofBytes r.ty data).toNat = some (u, c)) :
    serve s (fun s => writeWhole s q a data w) = noteAns u q a c := by
  obtain ⟨hs, -, r, hr, hacc, hw, hsh, hst, hcf, -⟩ := h
  obtain ⟨hchip, hunit⟩ := hu r hr
  unfold serve
  rw [if_pos hs]
  unfold writeWhole
  simp only [hr, hw, applyWrite_unit hsh hst hcf hacc hchip hunit]
  simp [hc]

/-- An admitted write whose unit's operation answers no abort: event, DICT_GEN, journal entry and answer follow the operation. -/
theorem writeWhole_unit_done (h : Admitted s q a data)
    (hu : ∀ r, resolve a = .obj a r → ownChip s q a (ofBytes r.ty data).toNat w = none ∧
      ownUnit s q a (ofBytes r.ty data).toNat = some (u, 0)) :
    ∃ (r : Row) (x : State), (x = noteWrite s u q a r data ∨ x = (noteWrite s u q a r data).bump O.DICT_GEN) ∧
      serve s (fun s => writeWhole s q a data w) = noteAns (journalSend x q a r (ofBytes r.ty data) none data) q a 0 := by
  obtain ⟨hs, hcut, r, hr, hacc, hw, hsh, hst, hcf, hp⟩ := h
  obtain ⟨hchip, hunit⟩ := hu r hr
  refine ⟨r, if changed s u q a || changed s (noteWrite s u q a r data) q a then (noteWrite s u q a r data).bump O.DICT_GEN
    else noteWrite s u q a r data, (ite_eq_or_eq _ _ _).symm, ?_⟩
  unfold serve
  rw [if_pos hs]
  unfold writeWhole
  simp only [hr, hw, applyWrite_unit hsh hst hcf hacc hchip hunit, hp, waitWrite_here hcut]
  simp

/-! ### Staging copies -/

theorem staged_of_req (h : t.req = s.req) (p : Requester) (b : Addr) : staged t p b = staged s p b := by
  simp only [staged, State.rqOf, h]

theorem noteWrite_req (s t : State) (q : Requester) (a : Addr) (r : Row) (data : List Byte) :
    (noteWrite s t q a r data).req = t.req := by
  unfold noteWrite
  split
  · dsimp only
    split
    · exact (record_only _ _ _ _).req
    · exact (record_only _ _ _ _).req
  · rfl

theorem journalSend_req (s : State) (q : Requester) (a : Addr) (r : Row) (v : Int) (o : Option Nat) (data : List Byte) :
    (journalSend s q a r v o data).req = s.req := by
  unfold journalSend
  split
  · dsimp only
    split
    · exact (record_only _ _ _ _).req.trans (offerAsk_only _ _ _).req
    · exact (offerAsk_only _ _ _).req
  · rfl

theorem staged_noteAns (s : State) (q : Requester) (a : Addr) (c : Nat) (p : Requester) (b : Addr) :
    staged (noteAns s q a c) p b = staged s p b := by
  unfold staged noteAns
  by_cases hp : p = q
  · subst hp
    rw [State.modReq_same]
    split <;> rfl
  · rw [State.modReq_ne s _ hp]

theorem getN_noteAns (s : State) (q : Requester) (a : Addr) (c : Nat) (b : Addr) : (noteAns s q a c).getN b = s.getN b := rfl

theorem lastAbort_noteAns (s : State) (q : Requester) (a : Addr) (h : c ≠ 0) : ((noteAns s q a c).rqOf q).lastAbort = c := by
  unfold noteAns
  rw [State.modReq_same, if_neg h]

theorem written_noteAns (s : State) (q : Requester) (a : Addr) (c : Nat) (f : Addr → Prop) : Written s (noteAns s q a c) f :=
  written_req s q _ f

/-- A write that is done leaves every staging copy as its object's operation has it. -/
theorem writeWhole_unit_staged (h : Admitted s q a data)
    (hu : ∀ r, resolve a = .obj a r → ownChip s q a (ofBytes r.ty data).toNat w = none ∧
      ownUnit s q a (ofBytes r.ty data).toNat = some (u, 0)) (p : Requester) (b : Addr) :
    staged (serve s (fun s => writeWhole s q a data w)) p b = staged u p b := by
  obtain ⟨r, x, hx, ht⟩ := writeWhole_unit_done h hu
  have hreq : x.req = u.req := by
    rcases hx with rfl | rfl
    · exact noteWrite_req s u q a r data
    · exact noteWrite_req s u q a r data
  rw [ht, staged_noteAns]
  exact staged_of_req ((journalSend_req x q a r _ none data).trans hreq) p b

/-- A write that is done changes beside its object's operation what every accepted write may. -/
theorem writeWhole_unit_written (h : Admitted s q a data)
    (hu : ∀ r, resolve a = .obj a r → ownChip s q a (ofBytes r.ty data).toNat w = none ∧
      ownUnit s q a (ofBytes r.ty data).toNat = some (u, 0)) :
    Written u (serve s (fun s => writeWhole s q a data w)) (fun _ => False) := by
  obtain ⟨t, rfl, hw⟩ := writeWhole_admitted (u := u) h fun r hr => by
    obtain ⟨hchip, hunit⟩ := hu r hr
    rw [hchip, hunit]
  exact hw

theorem Written.blobs {f : Addr → Prop} (h : Written s t f) : t.blobs = s.blobs := by
  obtain ⟨-, hrest, -⟩ := h
  exact (congrArg State.blobs hrest :)

theorem staged_dropStaged_same (s : State) (q : Requester) (a : Addr) : staged (dropStaged s q a) q a = [] := by
  simp [staged, dropStaged]

theorem staged_dropStaged_ne (s : State) (q : Requester) {a b : Addr} (h : b ≠ a) :
    staged (dropStaged s q a) q b = staged s q b := by
  simp [staged, dropStaged, h]

end

end Sys2Proof.Machine
end

section
/-! What the operations of BANK_CMD change: the stored image and what the dictionary shows of it, the bank's state, the loops (R168 to
R171, R205, R387). -/

namespace Sys2Proof.Machine

/-! ### Fields of a number -/

/-- A field of a number that is replaced by `v` reads `v`. -/
theorem bits_replaced (w lo : Nat) {v n : Nat} (hv : v < 2 ^ n) : bits (w - bits w lo n * 2 ^ lo + v * 2 ^ lo) lo n = v := by
  have hfield : bits w lo n * 2 ^ lo = 2 ^ lo * (w / 2 ^ lo % 2 ^ n) := Nat.mul_comm _ _
  have hle : 2 ^ lo * (w / 2 ^ lo % 2 ^ n) ≤ 2 ^ lo * (w / 2 ^ lo) := Nat.mul_le_mul_left _ (Nat.mod_le _ _)
  have hrest : w / 2 ^ lo - w / 2 ^ lo % 2 ^ n = 2 ^ n * (w / 2 ^ lo / 2 ^ n) := by
    have := Nat.mod_add_div (w / 2 ^ lo) (2 ^ n)
    omega
  have hw : w - bits w lo n * 2 ^ lo + v * 2 ^ lo = w % 2 ^ lo + 2 ^ lo * (2 ^ n * (w / 2 ^ lo / 2 ^ n) + v) := by
    have hsplit := Nat.mod_add_div w (2 ^ lo)
    rw [← hrest, Nat.mul_add, Nat.mul_sub, hfield, Nat.mul_comm v]
    omega
  unfold bits at hw ⊢
  rw [hw, Nat.add_mul_div_left _ _ (Nat.two_pow_pos lo), Nat.div_eq_of_lt (Nat.mod_lt _ (Nat.two_pow_pos lo)), Nat.zero_add,
    Nat.mul_add_mod, Nat.mod_eq_of_lt hv]

/-! ### BANK_STATE -/

section
variable {s t : State} {k : LoopId} {m : Nat}

theorem bankState_setBankState (s : State) (k : LoopId) (m : Nat) {v : Nat} (hv : v < 16) :
    bankState (setBankState s k m v) k m = v := by
  unfold bankState setBankState
  rw [State.getN_setN_same]
  exact bits_replaced (n := 4) _ _ hv

theorem bankState_of_getN (h : t.getN (O.BANK_STATE k) = s.getN (O.BANK_STATE k)) : bankState t k m = bankState s k m := by
  simp only [bankState, h]

theorem bankState_setN {a : Addr} (s : State) (h : O.BANK_STATE k ≠ a) (v : Nat) : bankState (s.setN a v) k m = bankState s k m :=
  bankState_of_getN (State.getN_setN_ne s v h)

theorem bankState_bankLeaves (s : State) (k : LoopId) (m : BankId) (j : Nat) : bankState (bankLeaves s k m) k j = bankState s k j := rfl

theorem masterUp_congr (hm : t.getN (O.LOOP_MASTER k) = s.getN (O.LOOP_MASTER k))
    (hr : ∀ r : RegionId, t.getN (O.RG_STATE r) = s.getN (O.RG_STATE r)) : masterUp t k = masterUp s k := by
  have hmaster : masterOf t k = masterOf s k := hm
  unfold masterUp
  rw [hmaster]
  by_cases h : masterOf s k < 8
  · have hstate : t.getN (O.RG_STATE (masterOf s k)) = s.getN (O.RG_STATE (masterOf s k)) := hr ⟨masterOf s k, h⟩
    rw [hstate]
  · simp [h]

end

/-! ### The stored image -/

theorem rest_foldl_touch (s : State) (p : Plate) (g : Nat → Nat) (l : List Nat) :
    rest { s with plate := l.foldl (fun p i => p.touch (g i)) p } = rest { s with plate := p } := by
  induction l generalizing p with
  | nil => rfl
  | cons i l ih => exact ih (p.touch (g i))

theorem putBlob_blobs (s : State) (a : Addr) (bs : List Byte) :
    (putBlob s a bs).blobs = if bs.isEmpty then eraseAt s.blobs a else insertAt s.blobs a bs := rfl

theorem rest_putBlob (s : State) (a : Addr) (bs : List Byte) :
    rest (putBlob s a bs) = rest { s with blobs := (putBlob s a bs).blobs } := by
  rw [putBlob_blobs]
  unfold putBlob
  split
  · split
    · exact rest_foldl_touch { s with blobs := if bs.isEmpty then eraseAt s.blobs a else insertAt s.blobs a bs } s.plate _ _
    · rfl
  · rfl

theorem lookupAt_putBlob (s : State) (a : Addr) (bs : List Byte) :
    lookupAt (putBlob s a bs).blobs a = if bs.isEmpty then none else some bs := by
  rw [putBlob_blobs]
  split
  · exact lookupAt_eraseAt_same _ _
  · exact lookupAt_insertAt_same _ _ _

theorem lookupAt_putBlob_getD (s : State) (a : Addr) (bs : List Byte) : (lookupAt (putBlob s a bs).blobs a).getD [] = bs := by
  rw [lookupAt_putBlob]
  cases bs <;> rfl

/-! ### Frames -/

/-- A state with everything taken from `o` that an operation of BANK_CMD, and the write of it, may change beside objects: of the
loops, loop k. -/
def bankUnits (k : LoopId) (o s : State) : State :=
  { writeUnits o s with blobs := o.blobs, loops := s.loops.set k o.loops[k] }

/-- The same for an operation after which a loop may arm. -/
def bankLoopUnits (o s : State) : State := { loopUnits o (writeUnits o s) with blobs := o.blobs }

namespace Frame
variable {o s t : State} {k : LoopId} {f : Addr → Prop}

theorem putBlob (h : Frame (bankUnits k o) f s t) (a : Addr) (bs : List Byte) : Frame (bankUnits k o) f s (putBlob t a bs) :=
  h.step rfl (congrArg (bankUnits k o) (rest_putBlob t a bs) :)

theorem dropStaged (h : Frame (bankUnits k o) f s t) (q : Requester) (a : Addr) : Frame (bankUnits k o) f s (dropStaged t q a) := h.step

theorem bankLeaves (h : Frame (bankUnits k o) f s t) (m : BankId) : Frame (bankUnits k o) f s (bankLeaves t k m) := by
  have hset (u : State) (l : Loop) : bankUnits k o (rest { u with loops := u.loops.set k l }) = bankUnits k o (rest u) := by
    simp [bankUnits, writeUnits, rest]
  exact h.step (hq := hset t _)

theorem setBankState {Q : State → State} (h : Frame Q f s t) (m : Nat) (v : Nat) (hk : f (O.BANK_STATE k)) :
    Frame Q f s (setBankState t k m v) := h.setN hk _

theorem bankInfo {Q : State → State} (h : Frame Q f s t) {m : Nat} (bs : List Byte) (ht : f (O.BANK_TAG k m)) (hc : f (O.BANK_CRC k m)) :
    Frame Q f s (bankInfo t k m bs) := (h.setN ht _).setN hc _

/-- What the transitions of a loop change, where they leave what `loopRest` states. -/
theorem of_loopsOnly (h : LoopsOnly s t) (hr : loopRest o t = loopRest o s) : Frame (loopUnits o) (among loopTemplates) s t := by
  have hl : loopTemplates.map template = loopTemplates := by decide
  refine ⟨fun a ha hf => h.get a ?_, hr, h.outside⟩
  simp only [among, hl] at hf
  simp [loopObj, ha, hf]

theorem rearm (o s : State) (k : LoopId) : Frame (loopUnits o) (among loopTemplates) s (rearm s k) :=
  of_loopsOnly ((LoopsOnly.refl s).rearm k) (loopRest_rearm o s k)

end Frame

theorem bankUnits_self (k : LoopId) (s : State) : bankUnits k s (rest s) = rest s := by
  simp [bankUnits, writeUnits, rest]

theorem Frame.written_bank {k : LoopId} {s t : State} {f : Addr → Prop} (h : Frame (bankUnits k s) (writeObj f) s t) :
    Written s { t with blobs := s.blobs, loops := t.loops.set k s.loops[k] } f := by
  obtain ⟨hobj, hunits, hmem⟩ := h
  exact ⟨hobj, (hunits.trans (bankUnits_self k s) :), hmem⟩

theorem Frame.written_bankLoop {s t : State} {f : Addr → Prop} (h : Frame (bankLoopUnits s) (writeObj f) s t) :
    Written s { t with blobs := s.blobs, loops := s.loops, cells := s.cells, aml := s.aml, tree := s.tree, seen := s.seen,
                       twin := { t.twin with abdDue := s.twin.abdDue } } f := by
  obtain ⟨hobj, hunits, hmem⟩ := h
  exact ⟨hobj, hunits, hmem⟩

theorem Frame.moves_loop {s t : State} {f : Addr → Prop} (h : Frame (loopUnits s) (fun a => among loopTemplates a ∨ f a) s t) :
    Moves s t f := ⟨h.objects, h.units, h.outside⟩

/-! ### The objects of a bank -/

theorem writeFree_bankState (k : LoopId) : writeFree (O.BANK_STATE k) := by
  unfold writeFree
  revert k; decide

theorem writeFree_bankErr (k : LoopId) : writeFree (O.BANK_ERR k) := by
  unfold writeFree
  revert k; decide

theorem not_among_loopTemplates_bank (k : LoopId) :
    ¬ among loopTemplates (O.BANK_STATE k) ∧ ¬ among loopTemplates (O.BANK_ERR k) := by
  unfold among
  revert k; decide

/-- The objects that a stored bank writes. -/
def bankObj (k : LoopId) (m : BankId) (a : Addr) : Prop :=
  a ∈ [O.BANK_STATE k, O.BANK_ERR k, O.BANK_TAG k m, O.BANK_CRC k m]

theorem bankObj_range {k : LoopId} {m : BankId} {a : Addr} (h : bankObj k m a) : 0x301000 ≤ a ∧ a < 0x380000 := by
  have hk := k.isLt
  have hm := m.isLt
  simp only [bankObj, List.mem_cons, List.not_mem_nil, or_false, O.BANK_STATE, O.BANK_ERR, O.BANK_TAG, O.BANK_CRC] at h
  unfold Addr at *
  omega

theorem not_bankObj_of_lt {k : LoopId} {m : BankId} {a : Addr} (h : a < 0x301000) : ¬ bankObj k m a :=
  fun hb => Nat.not_le.mpr h (bankObj_range hb).1

theorem not_bankObj_ring_cfg (k : LoopId) (m : BankId) (r : RingId) : ¬ bankObj k m (O.RING_CFG r) :=
  not_bankObj_of_lt (by revert r; decide)

theorem ring_cfg_ne_bank (k : LoopId) (r : RingId) : O.RING_CFG r ≠ O.BANK_STATE k ∧ O.RING_CFG r ≠ O.BANK_ERR k := by
  revert k r; decide

end Sys2Proof.Machine
end

section
/-! Writes of BANK_CMD: a commit stored or refused (R168, R170), a bank emptied, a staging copy discarded (R171), an image that has
arrived (R170), and the statement of O12. -/

namespace Sys2Proof.Machine

/-! ### BANK_CMD -/

section
variable {s u : State} {q : Requester} {k : LoopId} {m : BankId} {n c : Nat}

theorem bankCmd_ty {r : Row} (k : LoopId) (h : resolve (O.BANK_CMD k) = .obj (O.BANK_CMD k) r) : r.ty = .u8 := by
  have hr : ∀ k : LoopId, (match resolve (O.BANK_CMD k) with | .obj _ r => r.ty | _ => .u8) = .u8 := by decide +kernel
  have hk := hr k
  rwa [h] at hk

theorem ownChip_bankCmd (s : State) (q : Requester) (k : LoopId) (v : Nat) (w : With) : ownChip s q (O.BANK_CMD k) v w = none := by
  fin_cases k <;> rfl

theorem ownUnit_bankCmd (s : State) (q : Requester) (k : LoopId) (v : Nat) :
    ownUnit s q (O.BANK_CMD k) v = some (bankCmdPut s q k v) := by
  fin_cases k <;> rfl

theorem bankCmd_operation {r : Row} (h : resolve (O.BANK_CMD k) = .obj (O.BANK_CMD k) r) (hn : n < 256) (w : With) :
    ownChip s q (O.BANK_CMD k) (ofBytes r.ty [BitVec.ofNat 8 n]).toNat w = none ∧
      ownUnit s q (O.BANK_CMD k) (ofBytes r.ty [BitVec.ofNat 8 n]).toNat = some (bankCmdPut s q k n) := by
  have hv : (ofBytes r.ty [BitVec.ofNat 8 n]).toNat = n := by
    rw [bankCmd_ty k h]
    exact (Nat.add_zero _).trans (Nat.mod_eq_of_lt hn)
  rw [hv]
  exact ⟨ownChip_bankCmd s q k n w, ownUnit_bankCmd s q k n⟩

/-- A write of BANK_CMD to the dictionary. -/
def bankCmdWrite (s : State) (q : Requester) (k : LoopId) (n : Nat) : State :=
  serve s fun s => writeWhole s q (O.BANK_CMD k) [BitVec.ofNat 8 n]

theorem bankCmd_refused (h : Admitted s q (O.BANK_CMD k) [BitVec.ofNat 8 n]) (hn : n < 256) (hx : bankCmdPut s q k n = (u, c))
    (hc : c ≠ 0) : bankCmdWrite s q k n = noteAns u q (O.BANK_CMD k) c :=
  writeWhole_unit_aborted h hc fun _ hr => hx ▸ bankCmd_operation hr hn _

theorem bankCmd_written (h : Admitted s q (O.BANK_CMD k) [BitVec.ofNat 8 n]) (hn : n < 256) (hx : bankCmdPut s q k n = (u, 0)) :
    Written u (bankCmdWrite s q k n) (fun _ => False) :=
  writeWhole_unit_written h fun _ hr => hx ▸ bankCmd_operation hr hn _

theorem bankCmd_staged (h : Admitted s q (O.BANK_CMD k) [BitVec.ofNat 8 n]) (hn : n < 256) (hx : bankCmdPut s q k n = (u, 0))
    (p : Requester) (b : Addr) : staged (bankCmdWrite s q k n) p b = staged u p b :=
  writeWhole_unit_staged h (fun _ hr => hx ▸ bankCmd_operation hr hn _) p b

theorem exec_bankCommit : exec (.bankCommit q k m) s = .next (bankCmdWrite s q k (0x10 + m)) := rfl

theorem exec_bankEmpty : exec (.bankEmpty q k m) s = .next (bankCmdWrite s q k (0x20 + m)) := rfl

theorem exec_bankDiscard : exec (.bankDiscard q k m) s = .next (bankCmdWrite s q k (0x30 + m)) := rfl

theorem bankCmdPut_commit (s : State) (q : Requester) (k : LoopId) (m : BankId) : bankCmdPut s q k (0x10 + m) = bankCommit s q k m := by
  fin_cases m <;> rfl

theorem bankCmdPut_empty (s : State) (q : Requester) (k : LoopId) (m : BankId) : bankCmdPut s q k (0x20 + m) = bankEmpty s k m := by
  fin_cases m <;> rfl

theorem bankCmdPut_discard (s : State) (q : Requester) (k : LoopId) (m : BankId) :
    bankCmdPut s q k (0x30 + m) = (dropStaged s q (O.BANK k m), 0) := by
  fin_cases m <;> rfl

end

/-! ### A bank becomes VALID (R170, R387) -/

section
variable (s : State) (k : LoopId) (m : BankId)

theorem bankValid_frame : Frame (loopUnits s) (fun a => among loopTemplates a ∨ a = O.BANK_STATE k) s (bankValid s k m) := by
  have hset : Frame (loopUnits s) (fun a => among loopTemplates a ∨ a = O.BANK_STATE k) s (setBankState s k m 2) :=
    (Frame.refl _ _ _).setBankState m 2 (.inr rfl)
  have hc (r : RingId) : ¬ (among loopTemplates (O.RING_CFG r) ∨ O.RING_CFG r = O.BANK_STATE k) := by
    rintro (h | h)
    · exact among_ring_cfg (by decide) r h
    · exact (ring_cfg_ne_bank k r).1 h
  exact hset.trans hc ((Frame.rearm s _ k).mono fun _ => .inl)

theorem bankState_bankValid : bankState (bankValid s k m) k m = 2 := by
  have hrearm := (Frame.rearm s (setBankState s k m 2) k).getN (writeFree_bankState k).1 (not_among_loopTemplates_bank k).1
  exact (bankState_of_getN hrearm).trans (bankState_setBankState s k m (by decide))

end

/-! ### The commit (R168, R170) -/

/-- The state of a commit whose checks pass, before the bank of an unpowered master region becomes VALID. -/
def bankStored (s : State) (q : Requester) (k : LoopId) (m : BankId) : State :=
  bankLeaves ((setBankState (bankInfo (dropStaged (putBlob s (O.BANK k m) (staged s q (O.BANK k m))) q (O.BANK k m)) k m
    (staged s q (O.BANK k m))) k m 1).setN (O.BANK_ERR k) 0) k m

section
variable {s : State} {q : Requester} {k : LoopId} {m : BankId}

theorem bankStored_frame (s : State) (q : Requester) (k : LoopId) (m : BankId) :
    Frame (bankUnits k s) (bankObj k m) s (bankStored s q k m) := by
  have hstate : bankObj k m (O.BANK_STATE k) := by simp [bankObj]
  have herr : bankObj k m (O.BANK_ERR k) := by simp [bankObj]
  have htag : bankObj k m (O.BANK_TAG k m) := by simp [bankObj]
  have hcrc : bankObj k m (O.BANK_CRC k m) := by simp [bankObj]
  exact (((((((Frame.refl _ _ _).putBlob _ _).dropStaged q _).bankInfo _ htag hcrc).setBankState m 1 hstate).setN herr 0).bankLeaves m)

theorem bankState_bankStored (s : State) (q : Requester) (k : LoopId) (m : BankId) : bankState (bankStored s q k m) k m = 1 := by
  have hne : O.BANK_STATE k ≠ O.BANK_ERR k := by revert k; decide
  rw [bankStored, bankState_bankLeaves, bankState_setN _ hne]
  exact bankState_setBankState _ k m (by decide)

theorem bankErr_bankStored (s : State) (q : Requester) (k : LoopId) (m : BankId) : (bankStored s q k m).getN (O.BANK_ERR k) = 0 :=
  State.getN_setN_same _ _ _

theorem bankStored_blobs (s : State) (q : Requester) (k : LoopId) (m : BankId) :
    (bankStored s q k m).blobs = (putBlob s (O.BANK k m) (staged s q (O.BANK k m))).blobs := rfl

theorem bankStored_image (s : State) (q : Requester) (k : LoopId) (m : BankId) :
    (lookupAt (bankStored s q k m).blobs (O.BANK k m)).getD [] = staged s q (O.BANK k m) := by
  rw [bankStored_blobs, lookupAt_putBlob_getD]

theorem bankStored_req (s : State) (q : Requester) (k : LoopId) (m : BankId) :
    (bankStored s q k m).req = (dropStaged s q (O.BANK k m)).req := rfl

theorem staged_bankStored (s : State) (q : Requester) (k : LoopId) (m : BankId) : staged (bankStored s q k m) q (O.BANK k m) = [] := by
  rw [staged_of_req (bankStored_req s q k m), staged_dropStaged_same]

theorem masterUp_bankStored (s : State) (q : Requester) (k : LoopId) (m : BankId) : masterUp (bankStored s q k m) k = masterUp s k := by
  have hmaster : ∀ k < 8, O.LOOP_MASTER k < 0x301000 := by decide
  have hregion : ∀ r < 8, O.RG_STATE r < 0x301000 := by decide
  have hf := bankStored_frame s q k m
  exact masterUp_congr (hf.getN (writeFree_loopMaster k k.isLt).1.1 (not_bankObj_of_lt (hmaster k k.isLt))) fun r =>
    hf.getN (writeFree_rgState r).1 (not_bankObj_of_lt (hregion r r.isLt))

/-- The state of a commit whose checks pass: the bank loads where the master region is powered, else it is VALID (R170). -/
def bankCommitted (s : State) (q : Requester) (k : LoopId) (m : BankId) : State :=
  if masterUp s k then bankStored s q k m else bankValid (bankStored s q k m) k m

theorem bankCommit_accepted (h : commitCheck s q k m = 0) : bankCommit s q k m = (bankCommitted s q k m, 0) := by
  unfold bankCommitted
  rw [← masterUp_bankStored s q k m]
  unfold bankCommit
  rw [if_pos h]
  rfl

theorem bankAbort_ne_zero (c : Nat) : bankAbort c ≠ 0 := by
  unfold bankAbort
  split <;> decide

theorem bankCommit_refused (h : commitCheck s q k m ≠ 0) :
    bankCommit s q k m = (recordLoop (s.setN (O.BANK_ERR k) (commitCheck s q k m)) 0x0405 k, bankAbort (commitCheck s q k m)) :=
  if_neg h

theorem bankState_bankCommitted (s : State) (q : Requester) (k : LoopId) (m : BankId) :
    bankState (bankCommitted s q k m) k m = if masterUp s k then 1 else 2 := by
  unfold bankCommitted
  split
  · exact bankState_bankStored s q k m
  · exact bankState_bankValid _ k m

/-- What becomes of the stored bank as it turns VALID: nothing beside the loops and BANK_STATE. -/
theorem bankCommitted_valid (s : State) (q : Requester) (k : LoopId) (m : BankId) :
    Frame (loopUnits (bankStored s q k m)) (fun a => among loopTemplates a ∨ a = O.BANK_STATE k) (bankStored s q k m)
      (bankCommitted s q k m) := by
  unfold bankCommitted
  split
  · exact .refl _ _ _
  · exact bankValid_frame _ k m

theorem bankErr_bankCommitted (s : State) (q : Requester) (k : LoopId) (m : BankId) : (bankCommitted s q k m).getN (O.BANK_ERR k) = 0 := by
  have hne : O.BANK_ERR k ≠ O.BANK_STATE k := by revert k; decide
  have hfree := not_among_loopTemplates_bank k
  rw [(bankCommitted_valid s q k m).getN (writeFree_bankErr k).1 (not_or.mpr ⟨hfree.2, hne⟩), bankErr_bankStored]

theorem bankCommitted_image (s : State) (q : Requester) (k : LoopId) (m : BankId) :
    (lookupAt (bankCommitted s q k m).blobs (O.BANK k m)).getD [] = staged s q (O.BANK k m) := by
  rw [(bankCommitted_valid s q k m).field State.blobs, bankStored_image]

theorem staged_bankCommitted (s : State) (q : Requester) (k : LoopId) (m : BankId) :
    staged (bankCommitted s q k m) q (O.BANK k m) = [] := by
  rw [staged_of_req ((bankCommitted_valid s q k m).field State.req), staged_bankStored]

/-- The objects that a commit whose checks pass writes. -/
def bankCommitObj (k : LoopId) (m : BankId) (a : Addr) : Prop := bankObj k m a ∨ among loopTemplates a

theorem bankCommitObj_ring_cfg (k : LoopId) (m : BankId) (r : RingId) : ¬ bankCommitObj k m (O.RING_CFG r) := by
  rintro (h | h)
  · exact not_bankObj_ring_cfg k m r h
  · exact among_ring_cfg (by decide) r h

theorem bankCommitted_frame (s : State) (q : Requester) (k : LoopId) (m : BankId) :
    Frame (bankLoopUnits s) (bankCommitObj k m) s (bankCommitted s q k m) := by
  have hstored : Frame (bankLoopUnits s) (bankCommitObj k m) s (bankStored s q k m) :=
    ((bankStored_frame s q k m).mono fun _ => .inl).hide (bankLoopUnits s)
  have hvalid : Frame (bankLoopUnits s) (bankCommitObj k m) (bankStored s q k m) (bankCommitted s q k m) := by
    refine ((bankCommitted_valid s q k m).mono fun a ha => ?_).hide (bankLoopUnits s)
    rcases ha with ha | rfl
    · exact .inr ha
    · exact .inl (by simp [bankObj])
  exact hstored.trans (bankCommitObj_ring_cfg k m) hvalid

theorem bankCommit_passes (h : Admitted s q (O.BANK_CMD k) [BitVec.ofNat 8 (0x10 + m.val)]) (hc : commitCheck s q k m = 0) :
    ∃ t, exec (.bankCommit q k m) s = .next t ∧
      bankState t k m = (if masterUp s k then 1 else 2) ∧ t.getN (O.BANK_ERR k) = 0 ∧
      (lookupAt t.blobs (O.BANK k m)).getD [] = staged s q (O.BANK k m) ∧ staged t q (O.BANK k m) = [] ∧
      Written s { t with blobs := s.blobs, loops := s.loops, cells := s.cells, aml := s.aml, tree := s.tree, seen := s.seen,
                         twin := { t.twin with abdDue := s.twin.abdDue } } (bankCommitObj k m) := by
  have hx : bankCmdPut s q k (0x10 + m) = (bankCommitted s q k m, 0) := (bankCmdPut_commit s q k m).trans (bankCommit_accepted hc)
  have hn : 0x10 + m.val < 256 := by omega
  have hw := bankCmd_written h hn hx
  refine ⟨_, exec_bankCommit, ?_, ?_, ?_, ?_, ?_⟩
  · rw [bankState_of_getN (hw.getN (writeFree_bankState k) id), bankState_bankCommitted]
  · rw [hw.getN (writeFree_bankErr k) id, bankErr_bankCommitted]
  · rw [hw.blobs, bankCommitted_image]
  · rw [bankCmd_staged h hn hx, staged_bankCommitted]
  · have hop : Frame (bankLoopUnits s) (writeObj (bankCommitObj k m)) s (bankCommitted s q k m) :=
      (bankCommitted_frame s q k m).mono fun _ ha => .inr (.inr ha)
    have hwrite : Frame (bankLoopUnits s) (writeObj (bankCommitObj k m)) (bankCommitted s q k m) (bankCmdWrite s q k (0x10 + m)) :=
      (Frame.of_written s (hw.mono fun _ => False.elim)).hide (bankLoopUnits s)
    exact (hop.trans (writeObj_ring_cfg (bankCommitObj_ring_cfg k m)) hwrite).written_bankLoop

theorem bankCommit_fails (h : Admitted s q (O.BANK_CMD k) [BitVec.ofNat 8 (0x10 + m.val)]) (hc : commitCheck s q k m ≠ 0) :
    ∃ t, exec (.bankCommit q k m) s = .next t ∧ t.getN (O.BANK_ERR k) = commitCheck s q k m ∧ Written s t (· = O.BANK_ERR k) := by
  have hx := (bankCmdPut_commit s q k m).trans (bankCommit_refused hc)
  have hrec := recordLoop_only (s.setN (O.BANK_ERR k) (commitCheck s q k m)) 0x0405 k []
  have hcfg (r : RingId) : O.RING_CFG r ≠ O.BANK_ERR k := (ring_cfg_ne_bank k r).2
  refine ⟨_, exec_bankCommit.trans (congrArg _ (bankCmd_refused h (by omega) hx (bankAbort_ne_zero _))), ?_, ?_⟩
  · rw [getN_noteAns, State.getN, hrec.get (O.BANK_ERR k) (writeFree_bankErr k).1]
    exact State.getN_setN_same _ _ _
  · have herr : Written s (s.setN (O.BANK_ERR k) (commitCheck s q k m)) (· = O.BANK_ERR k) := written_set s _ (.inr (.inr rfl))
    exact (herr.trans hcfg (.of_record hrec _)).trans hcfg (written_noteAns _ _ _ _ _)

/-! ### The command that empties a bank (R171) -/

/-- The state of a bank that is emptied. -/
def bankEmptied (s : State) (k : LoopId) (m : BankId) : State :=
  bankLeaves (setBankState (bankInfo (putBlob s (O.BANK k m) []) k m []) k m 0) k m

/-- The objects that a bank's emptying writes. -/
def bankEmptyObj (k : LoopId) (m : BankId) (a : Addr) : Prop := a ∈ [O.BANK_STATE k, O.BANK_TAG k m, O.BANK_CRC k m]

theorem bankObj_of_bankEmptyObj {a : Addr} (h : bankEmptyObj k m a) : bankObj k m a := by
  simp only [bankEmptyObj, bankObj, List.mem_cons] at h ⊢
  exact h.imp_right .inr

theorem bankEmptyObj_ring_cfg (k : LoopId) (m : BankId) (r : RingId) : ¬ bankEmptyObj k m (O.RING_CFG r) := fun h =>
  not_bankObj_ring_cfg k m r (bankObj_of_bankEmptyObj h)

theorem bankEmptied_frame (s : State) (k : LoopId) (m : BankId) : Frame (bankUnits k s) (bankEmptyObj k m) s (bankEmptied s k m) := by
  have hstate : bankEmptyObj k m (O.BANK_STATE k) := by simp [bankEmptyObj]
  have htag : bankEmptyObj k m (O.BANK_TAG k m) := by simp [bankEmptyObj]
  have hcrc : bankEmptyObj k m (O.BANK_CRC k m) := by simp [bankEmptyObj]
  exact ((((Frame.refl _ _ _).putBlob _ _).bankInfo _ htag hcrc).setBankState m 0 hstate).bankLeaves m

theorem bankState_bankEmptied (s : State) (k : LoopId) (m : BankId) : bankState (bankEmptied s k m) k m = 0 := by
  rw [bankEmptied, bankState_bankLeaves]
  exact bankState_setBankState _ k m (by decide)

theorem bankEmptied_blobs (s : State) (k : LoopId) (m : BankId) : (bankEmptied s k m).blobs = (putBlob s (O.BANK k m) []).blobs := rfl

theorem bankEmptied_image (s : State) (k : LoopId) (m : BankId) : lookupAt (bankEmptied s k m).blobs (O.BANK k m) = none := by
  rw [bankEmptied_blobs, lookupAt_putBlob]
  rfl

theorem bankEmpty_accepted (ha : bankActive s k ≠ m.val) (hl : bankState s k m ≠ 1) : bankEmpty s k m = (bankEmptied s k m, 0) := by
  unfold bankEmpty
  rw [if_neg ha, if_neg hl]
  rfl

theorem bankEmpty_refused (h : bankActive s k = m.val ∨ bankState s k m = 1) :
    bankEmpty s k m = (s, if bankActive s k = m.val then 0xA032 else 0xA030) := by
  unfold bankEmpty
  by_cases ha : bankActive s k = m.val
  · rw [if_pos ha, if_pos ha]
  · rw [if_neg ha, if_neg ha, if_pos (h.resolve_left ha)]

theorem bankEmpty_passes (h : Admitted s q (O.BANK_CMD k) [BitVec.ofNat 8 (0x20 + m.val)]) (ha : bankActive s k ≠ m.val)
    (hl : bankState s k m ≠ 1) :
    ∃ t, exec (.bankEmpty q k m) s = .next t ∧ bankState t k m = 0 ∧ lookupAt t.blobs (O.BANK k m) = none ∧
      Written s { t with blobs := s.blobs, loops := t.loops.set k s.loops[k] } (bankEmptyObj k m) := by
  have hx : bankCmdPut s q k (0x20 + m) = (bankEmptied s k m, 0) := (bankCmdPut_empty s q k m).trans (bankEmpty_accepted ha hl)
  have hw := bankCmd_written h (by omega) hx
  refine ⟨_, exec_bankEmpty, ?_, ?_, ?_⟩
  · rw [bankState_of_getN (hw.getN (writeFree_bankState k) id), bankState_bankEmptied]
  · rw [hw.blobs, bankEmptied_image]
  · have hop : Frame (bankUnits k s) (writeObj (bankEmptyObj k m)) s (bankEmptied s k m) :=
      (bankEmptied_frame s k m).mono fun _ ha => .inr (.inr ha)
    have hwrite : Frame (bankUnits k s) (writeObj (bankEmptyObj k m)) (bankEmptied s k m) (bankCmdWrite s q k (0x20 + m)) :=
      (Frame.of_written s (hw.mono fun _ => False.elim)).hide (bankUnits k s)
    exact (hop.trans (writeObj_ring_cfg (bankEmptyObj_ring_cfg k m)) hwrite).written_bank

theorem bankEmpty_fails (h : Admitted s q (O.BANK_CMD k) [BitVec.ofNat 8 (0x20 + m.val)])
    (hb : bankActive s k = m.val ∨ bankState s k m = 1) :
    ∃ t, exec (.bankEmpty q k m) s = .next t ∧
      (t.rqOf q).lastAbort = (if bankActive s k = m.val then 0xA032 else 0xA030) ∧ { t with req := s.req } = s := by
  have hx := (bankCmdPut_empty s q k m).trans (bankEmpty_refused hb)
  have hc : (if bankActive s k = m.val then 0xA032 else 0xA030) ≠ 0 := by split <;> decide
  refine ⟨_, exec_bankEmpty.trans (congrArg _ (bankCmd_refused h (by omega) hx hc)), lastAbort_noteAns s q _ hc, rfl⟩

/-! ### The discard (R171) -/

theorem bankDiscard_write (h : Admitted s q (O.BANK_CMD k) [BitVec.ofNat 8 (0x30 + m.val)]) :
    ∃ t, exec (.bankDiscard q k m) s = .next t ∧ staged t q (O.BANK k m) = [] ∧
      (∀ a, a ≠ O.BANK k m → staged t q a = staged s q a) ∧ Written s t (fun _ => False) := by
  have hx := bankCmdPut_discard s q k m
  have hn : 0x30 + m.val < 256 := by omega
  refine ⟨_, exec_bankDiscard, ?_, fun a ha => ?_, ?_⟩
  · rw [bankCmd_staged h hn hx, staged_dropStaged_same]
  · rw [bankCmd_staged h hn hx, staged_dropStaged_ne s q ha]
  · exact (written_req s q _ _).trans (fun _ => id) (bankCmd_written h hn hx)

/-! ### An image that has arrived (R170) -/

theorem bankLoadDone_valid (h : bankState s k m = 1) :
    ∃ t, exec (.bankLoadDone k m) s = .next t ∧ bankState t k m = 2 ∧ Moves s t (· = O.BANK_STATE k) :=
  ⟨bankValid s k m, if_pos h, bankState_bankValid s k m, (bankValid_frame s k m).moves_loop⟩

end

/-! ### The statement -/

/-- Settles O12: a commit stored, a commit refused, a bank emptied, an emptying refused, a discard, and an image that has arrived. -/
theorem bankCommands : Obligations.BankCommands := by
  unfold Obligations.BankCommands
  exact ⟨fun _ _ _ _ h hc => bankCommit_passes h hc, fun _ _ _ _ h hc => bankCommit_fails h hc,
    fun _ _ _ _ h ha hl => bankEmpty_passes h ha hl, fun _ _ _ _ h hb => bankEmpty_fails h hb, fun _ _ _ _ h => bankDiscard_write h,
    fun _ _ _ h => bankLoadDone_valid h⟩

end Sys2Proof.Machine
end

section
/-! Writes and commands that form no event record: what they leave unchanged beside objects, and the marks of dirty pages. -/

namespace Sys2Proof.Machine

/-! ### Frames of commands that form no event record -/

/-- A state with its objects, and the marks of dirty pages, taken from `o`. -/
def bare (o s : State) : State :=
  { s with dict := o.dict, plate := { s.plate with dirty0 := o.plate.dirty0, dirty1 := o.plate.dirty1 } }

theorem bare_set (o s : State) (a : Addr) (v : Int) : bare o (s.set a v) = bare o s := by
  unfold bare State.set
  rcases touchFor_cases s.plate a with h | ⟨n, h⟩
  · simp only [h]
  · simp only [h, Plate.touch]

/-- No event record is formed: only the objects that `f` names may differ, and of the units only what `Q` hides. -/
structure Silent (Q : State → State) (f : Addr → Prop) (s t : State) : Prop where
  objects : ∀ a, ¬ f a → t.get a = s.get a
  units : Q (bare s t) = s

namespace Silent

variable {Q : State → State} {f g : Addr → Prop} {s t u : State}

theorem refl (f : Addr → Prop) (s : State) (hq : Q s = s := by rfl) : Silent Q f s s := ⟨fun _ _ => rfl, hq⟩

/-- An object that the frame names takes a value. -/
theorem set (h : Silent Q f s t) {a : Addr} (ha : f a) (v : Int) : Silent Q f s (t.set a v) where
  objects b hb := (State.get_set_ne t v (fun e : b = a => hb (e ▸ ha))).trans (h.objects b hb)
  units := (congrArg Q (bare_set s t a v)).trans h.units

theorem setN (h : Silent Q f s t) {a : Addr} (ha : f a) (v : Nat) : Silent Q f s (t.setN a v) := h.set ha v

theorem bump (h : Silent Q f s t) {a : Addr} (ha : f a) : Silent Q f s (t.bump a) := h.setN ha _

/-- A step that changes only hidden units. -/
theorem step (h : Silent Q f s t) (hg : u.dict = t.dict := by rfl) (hq : Q (bare s u) = Q (bare s t) := by rfl) : Silent Q f s u where
  objects a ha := (congrArg (dval · a) hg).trans (h.objects a ha)
  units := hq.trans h.units

end Silent

/-! ### Admitted writes -/

section
variable {s u : State} {q : Requester} {a : Addr} {r : Row} {data : List Byte} {w : With}

/-- An admitted write whose operation answers no abort: event, DICT_GEN, journal entry and answer follow the operation. -/
theorem writeWhole_applied (h : Admitted s q a data) (hr : resolve a = .obj a r)
    (ha : applyWrite s q a r (ofBytes r.ty data) w = (u, 0)) :
    ∃ x, (x = noteWrite s u q a r data ∨ x = (noteWrite s u q a r data).bump O.DICT_GEN) ∧
      writeWhole s q a data w = (noteAns (journalSend x q a r (ofBytes r.ty data) none data) q a 0, {}) := by
  obtain ⟨-, hcut, r', hr', -, hw, -, -, -, hp⟩ := h
  obtain rfl : r = r' := by simpa [hr] using hr'
  refine ⟨if changed s u q a || changed s (noteWrite s u q a r data) q a then (noteWrite s u q a r data).bump O.DICT_GEN
    else noteWrite s u q a r data, (ite_eq_or_eq _ _ _).symm, ?_⟩
  unfold writeWhole
  simp only [hr, hw, ha, hp, waitWrite_here hcut]
  simp

theorem serve_admitted (h : Admitted s q a data) (f : State → State × Ans) : serve s f = (f s).1 := by
  obtain ⟨hs, -⟩ := h
  exact if_pos hs

/-- A write of an object whose writes no event records. -/
theorem noteWrite_open (hi : r.integrator = false) (s t : State) (q : Requester) (a : Addr) (data : List Byte) :
    noteWrite s t q a r data = t := by
  unfold noteWrite
  rw [hi]
  rfl

/-- A write of an object whose writes are not journaled (R561). -/
theorem journalSend_unjournaled {v : Int} (hj : journaled a r v = false) (s : State) (q : Requester) (o : Option Nat)
    (data : List Byte) : journalSend s q a r v o data = s := by
  unfold journalSend
  exact if_neg fun h => absurd h.2.2 (by simp [hj])

end

end Sys2Proof.Machine
end

section
/-! The rings' registers, resumption, age and telemetry (R678, R682, R686 to R688), and the statement of O52. -/

namespace Sys2Proof.Machine

/-! ### Writes of a ring's registers -/

section
variable {s u : State} {q : Requester} {r : RingId} {a : Addr} {v : BitVec 32} {c : Nat}

/-- The registers of a ring that a host writes. -/
def ringRegs (r : RingId) : List Addr := [O.RING_CFG r, O.RING_PI r, O.RING_CI r]

/-- A write of a 32-bit register to the dictionary. -/
def wordWrite (s : State) (q : Requester) (a : Addr) (v : BitVec 32) : State := serve s fun s => writeWhole s q a (leBytes 4 v.toNat)

theorem exec_ringCfgWrite (s : State) (q : Requester) (r : RingId) (v : BitVec 32) :
    exec (.ringCfgWrite q r v) s = .next (wordWrite s q (O.RING_CFG r) v) := rfl

theorem exec_ringPiWrite (s : State) (q : Requester) (r : RingId) (v : BitVec 32) :
    exec (.ringPiWrite q r v) s = .next (wordWrite s q (O.RING_PI r) v) := rfl

theorem exec_ringCiWrite (s : State) (q : Requester) (r : RingId) (v : BitVec 32) :
    exec (.ringCiWrite q r v) s = .next (wordWrite s q (O.RING_CI r) v) := rfl

theorem ringRegs_row {w : Row} (ha : a ∈ ringRegs r) (h : resolve a = .obj a w) : w.ty = .u32 ∧ w.integrator = false := by
  have hr : ∀ r : RingId, ∀ a ∈ ringRegs r,
      (match resolve a with | .obj _ w => w.ty == .u32 && !w.integrator | _ => false) = true := by decide +kernel
  have hw := hr r a ha
  rw [h] at hw
  simpa using hw

theorem ringRegs_index (ha : a ∈ ringRegs r) : a / 256 < 0x1150 := by
  revert ha a r
  decide

theorem ringRegs_unjournaled (ha : a ∈ ringRegs r) (w : Row) (x : Int) : journaled a w x = false := by
  have hi : ¬ 0x2000 ≤ a / 256 := Nat.not_le.mpr (Nat.lt_trans (ringRegs_index ha) (by decide))
  have hj : ¬ 0x6000 ≤ a / 256 := fun h => hi (Nat.le_trans (by decide) h)
  simp [journaled, hi, hj]

theorem ofLe_leBytes (n v : Nat) : ofLe (leBytes n v) = v % 256 ^ n := by
  induction n generalizing v with
  | zero => exact (Nat.mod_one v).symm
  | succ n ih =>
    have h : ofLe (leBytes (n + 1) v) = v % 256 + 256 * ofLe (leBytes n (v / 256)) := rfl
    rw [h, ih, pow_succ', Nat.mod_mul]

theorem ofBytes_word {t : Ty} (ht : t = .u32) (v : BitVec 32) : (ofBytes t (leBytes 4 v.toNat)).toNat = v.toNat := by
  subst ht
  have h : ofBytes .u32 (leBytes 4 v.toNat) = (ofLe (leBytes 4 v.toNat) : Nat) := rfl
  rw [h, Int.toNat_natCast, ofLe_leBytes]
  exact Nat.mod_eq_of_lt v.isLt

theorem ownChip_ringRegs (ha : a ∈ ringRegs r) (s : State) (q : Requester) (v : Nat) (w : With) : ownChip s q a v w = none := by
  simp only [ringRegs, List.mem_cons, List.not_mem_nil, or_false] at ha
  rcases ha with rfl | rfl | rfl <;> fin_cases r <;> rfl

theorem ownUnit_ringCfg (s : State) (q : Requester) (r : RingId) (v : Nat) : ownUnit s q (O.RING_CFG r) v = some (ringCfgPut s r v) := by
  fin_cases r <;> rfl

theorem ownUnit_ringPi (s : State) (q : Requester) (r : RingId) (v : Nat) : ownUnit s q (O.RING_PI r) v = some (ringPiPut s r v) := by
  fin_cases r <;> rfl

theorem ownUnit_ringCi (s : State) (q : Requester) (r : RingId) (v : Nat) : ownUnit s q (O.RING_CI r) v = some (ringCiPut s r v) := by
  fin_cases r <;> rfl

/-- A write that its register's operation refuses leaves only the requester's record of the abort. -/
theorem ringReg_refused (h : Admitted s q a (leBytes 4 v.toNat)) (ha : a ∈ ringRegs r) (hu : ownUnit s q a v.toNat = some (s, c))
    (hc : c ≠ 0) : ((wordWrite s q a v).rqOf q).lastAbort = c ∧ { wordWrite s q a v with req := s.req } = s := by
  have ht : wordWrite s q a v = noteAns s q a c := writeWhole_unit_aborted h hc fun w hw => by
    rw [ofBytes_word (ringRegs_row ha hw).1]
    exact ⟨ownChip_ringRegs ha _ _ _ _, hu⟩
  rw [ht]
  exact ⟨lastAbort_noteAns s q a hc, rfl⟩

/-- A write that its register's operation takes adds to it DICT_GEN and the answer: no event, no journal entry. -/
theorem ringReg_done (h : Admitted s q a (leBytes 4 v.toNat)) (ha : a ∈ ringRegs r) (hu : ownUnit s q a v.toNat = some (u, 0)) :
    wordWrite s q a v = noteAns u q a 0 ∨ wordWrite s q a v = noteAns (u.bump O.DICT_GEN) q a 0 := by
  obtain ⟨-, -, w, hw, hacc, -, hsh, hst, hcf, -⟩ := id h
  obtain ⟨hty, hint⟩ := ringRegs_row ha hw
  have hv := ofBytes_word hty v
  obtain ⟨x, hx, ht⟩ := writeWhole_applied h hw
    (applyWrite_unit (w := {}) hsh hst hcf hacc (ownChip_ringRegs ha _ _ _ _) ((congrArg (ownUnit s q a) hv).trans hu))
  rw [wordWrite, serve_admitted h, ht, journalSend_unjournaled (ringRegs_unjournaled ha _ _)]
  rw [noteWrite_open hint] at hx
  rcases hx with rfl | rfl
  · exact .inl rfl
  · exact .inr rfl

/-- A state with requesters and rings taken from `o`. -/
def ringUnits (o s : State) : State := { s with req := o.req, rings := o.rings }

/-- What a write that is done leaves of its register's operation. -/
theorem ringReg_kept {f : Addr → Prop} (h : Admitted s q a (leBytes 4 v.toNat)) (ha : a ∈ ringRegs r)
    (hu : ownUnit s q a v.toNat = some (u, 0)) (hf : Silent (ringUnits s) f s u) (hd : f O.DICT_GEN) :
    Still s { wordWrite s q a v with req := s.req, rings := s.rings } f ∧ (wordWrite s q a v).rings = u.rings ∧
      ∀ b, b ≠ O.DICT_GEN → (wordWrite s q a v).getN b = u.getN b := by
  have key {t : State} (h : Silent (ringUnits s) f s t) : Still s { noteAns t q a 0 with req := s.req, rings := s.rings } f :=
    ⟨h.objects, h.units⟩
  rcases ringReg_done h ha hu with ht | ht <;> rw [ht]
  · exact ⟨key hf, rfl, fun _ _ => rfl⟩
  · exact ⟨key (hf.bump hd), rfl, fun b hb => State.getN_setN_ne u _ hb⟩

end

/-! ### RING_CFG (R678) -/

section
variable {s : State} {q : Requester} {r : RingId} {v : BitVec 32} {n : Nat}

/-- The area of a ring that a configuration enables goes beyond stream memory, or meets that of another enabled ring (R678). -/
def areaBad (s : State) (r : RingId) (n : Nat) : Prop :=
  512 < bits n 0 9 + 2 ^ bits n 9 4 ∨ ∃ x : RingId, x ≠ r ∧ ringEn s x = true ∧ areasMeet n (s.getN (O.RING_CFG x)) = true

theorem areaBad_iff : areaBad s r n ↔ 512 < bits n 0 9 + 2 ^ bits n 9 4 ∨
    (List.finRange 16).any (fun q => q != r && ringEn s q && areasMeet n (s.getN (O.RING_CFG q))) = true := by
  simp [areaBad, and_assoc]

/-- The state after an empty ring is enabled. -/
def ringStarted (s : State) (r : RingId) (n : Nat) : State :=
  ((((s.setN (O.RING_CFG r) n).setN (O.RING_PI r) 0).setN (O.RING_CI r) 0).setN (O.RING_LOST r) 0).modRing r fun g =>
    { g with recs := [], gap := 0, stopped := false, aged := false, dropAt := none }

theorem ringCfgPut_enables (hn : bit n 13 = true) (he : ringEn s r = false) (ha : ¬ areaBad s r n) :
    ringCfgPut s r n = (ringStarted s r n, 0) := by
  have he' : bit (s.getN (O.RING_CFG r)) 13 = false := he
  unfold ringCfgPut
  rw [if_neg (by simp [he']), if_pos ⟨hn, he'⟩, if_neg (mt areaBad_iff.mpr ha)]
  rfl

theorem ringCfgPut_collides (hn : bit n 13 = true) (he : ringEn s r = false) (ha : areaBad s r n) :
    ringCfgPut s r n = (s, 0xA031) := by
  have he' : bit (s.getN (O.RING_CFG r)) 13 = false := he
  unfold ringCfgPut
  rw [if_neg (by simp [he']), if_pos ⟨hn, he'⟩, if_pos (areaBad_iff.mp ha)]

theorem ringCfgPut_moves (he : ringEn s r = true) (hm : bits (s.getN (O.RING_CFG r)) 0 13 ≠ bits n 0 13) :
    ringCfgPut s r n = (s, 0xA030) := if_pos ⟨he, hm⟩

/-- The state after RING_CFG of a ring is written that it does not enable. -/
def ringSet (s : State) (r : RingId) (n : Nat) : State :=
  if bit n 13 then s.setN (O.RING_CFG r) n
  else (s.setN (O.RING_CFG r) n).modRing r fun g => { g with recs := [], gap := 0, held := [], stopped := false, aged := false }

theorem ringCfgPut_sets (hn : bit n 13 = false ∨ ringEn s r = true)
    (hm : ringEn s r = false ∨ bits (s.getN (O.RING_CFG r)) 0 13 = bits n 0 13) : ringCfgPut s r n = (ringSet s r n, 0) := by
  have h1 : ¬ (bit (s.getN (O.RING_CFG r)) 13 = true ∧ bits (s.getN (O.RING_CFG r)) 0 13 ≠ bits n 0 13) := fun ⟨he, hb⟩ =>
    hm.elim (fun h => Bool.false_ne_true (h.symm.trans he)) hb
  have h2 : ¬ (bit n 13 = true ∧ bit (s.getN (O.RING_CFG r)) 13 = false) := fun ⟨hb, he⟩ =>
    hn.elim (fun h => Bool.false_ne_true (h.symm.trans hb)) fun h => Bool.false_ne_true (he.symm.trans h)
  unfold ringCfgPut
  rw [if_neg h1, if_neg h2]
  rfl

theorem ringStarted_silent {f : Addr → Prop} (hc : f (O.RING_CFG r)) (hp : f (O.RING_PI r)) (hi : f (O.RING_CI r))
    (hl : f (O.RING_LOST r)) : Silent (ringUnits s) f s (ringStarted s r n) :=
  ((((Silent.refl f s).setN hc n).setN hp 0).setN hi 0).setN hl 0 |>.step

theorem ringSet_silent {f : Addr → Prop} (hc : f (O.RING_CFG r)) : Silent (ringUnits s) f s (ringSet s r n) := by
  unfold ringSet
  split
  · exact (Silent.refl f s).setN hc n
  · exact ((Silent.refl f s).setN hc n).step

/-- The registers of an enabled ring. -/
theorem getN_ringStarted (s : State) (r : RingId) (n : Nat) : (ringStarted s r n).getN (O.RING_CFG r) = n ∧
    (ringStarted s r n).getN (O.RING_PI r) = 0 ∧ (ringStarted s r n).getN (O.RING_CI r) = 0 ∧
    (ringStarted s r n).getN (O.RING_LOST r) = 0 := by
  simp [ringStarted, State.getN]

theorem ringStarted_rings (s : State) (r : RingId) (n : Nat) : (ringStarted s r n).rings[r].recs = [] ∧
    (ringStarted s r n).rings[r].stopped = false ∧ ∀ x : RingId, x ≠ r → (ringStarted s r n).rings[x] = s.rings[x] :=
  ⟨congrArg Ring.recs (State.modRing_same _ r _), congrArg Ring.stopped (State.modRing_same _ r _), fun _ hx => State.modRing_ne _ _ hx⟩

theorem getN_ringSet (s : State) (r : RingId) (n : Nat) : (ringSet s r n).getN (O.RING_CFG r) = n := by
  unfold ringSet
  split <;> exact State.getN_setN_same s _ n

theorem ringSet_rings (s : State) (r : RingId) (n : Nat) : (bit n 13 = false → (ringSet s r n).rings[r].recs = []) ∧
    (bit n 13 = true → (ringSet s r n).rings = s.rings) ∧ ∀ x : RingId, x ≠ r → (ringSet s r n).rings[x] = s.rings[x] := by
  unfold ringSet
  refine ⟨fun hn => ?_, fun hn => ?_, fun x hx => ?_⟩
  · rw [if_neg (by simp [hn])]
    exact congrArg Ring.recs (State.modRing_same _ r _)
  · rw [if_pos hn]
    rfl
  · split
    · rfl
    · exact State.modRing_ne _ _ hx

theorem ringReg_ne_dictGen {a : Addr} (ha : a ∈ [O.RING_CFG r, O.RING_PI r, O.RING_CI r, O.RING_LOST r]) : a ≠ O.DICT_GEN := by
  revert ha a r
  decide

/-- RING_CFG enables a ring, or refuses its area. -/
theorem ringCfg_enables (h : Admitted s q (O.RING_CFG r) (leBytes 4 v.toNat)) (hv : bit v.toNat 13 = true) (he : ringEn s r = false) :
    ∃ t, exec (.ringCfgWrite q r v) s = .next t ∧
      (¬ areaBad s r v.toNat →
        t.getN (O.RING_CFG r) = v.toNat ∧ t.getN (O.RING_PI r) = 0 ∧ t.getN (O.RING_CI r) = 0 ∧ t.getN (O.RING_LOST r) = 0 ∧
        t.rings[r].recs = [] ∧ t.rings[r].stopped = false ∧ (∀ x : RingId, x ≠ r → t.rings[x] = s.rings[x]) ∧
        Still s { t with req := s.req, rings := s.rings }
          (· ∈ [O.DICT_GEN, O.RING_CFG r, O.RING_PI r, O.RING_CI r, O.RING_LOST r])) ∧
      (areaBad s r v.toNat → (t.rqOf q).lastAbort = 0xA031 ∧ { t with req := s.req } = s) := by
  have hreg : O.RING_CFG r ∈ ringRegs r := by simp [ringRegs]
  have hop := ownUnit_ringCfg s q r v.toNat
  refine ⟨_, exec_ringCfgWrite s q r v, fun ha => ?_, fun ha => ?_⟩
  · obtain ⟨hstill, hrings, hget⟩ := ringReg_kept (f := (· ∈ [O.DICT_GEN, O.RING_CFG r, O.RING_PI r, O.RING_CI r, O.RING_LOST r]))
      h hreg (hop.trans (congrArg some (ringCfgPut_enables hv he ha)))
      (ringStarted_silent (by simp) (by simp) (by simp) (by simp)) (by simp)
    obtain ⟨hcfg, hpi, hci, hlost⟩ := getN_ringStarted s r v.toNat
    obtain ⟨hrecs, hstop, hother⟩ := ringStarted_rings s r v.toNat
    rw [hrings, hget _ (ringReg_ne_dictGen (r := r) (by simp)), hget _ (ringReg_ne_dictGen (r := r) (by simp)),
      hget _ (ringReg_ne_dictGen (r := r) (by simp)), hget _ (ringReg_ne_dictGen (r := r) (by simp))]
    exact ⟨hcfg, hpi, hci, hlost, hrecs, hstop, hother, hstill⟩
  · exact ringReg_refused h hreg (hop.trans (congrArg some (ringCfgPut_collides hv he ha))) (by decide)

/-- RING_CFG disables a ring, sets what leaves its area alone, or refuses to move an enabled ring. -/
theorem ringCfg_sets (h : Admitted s q (O.RING_CFG r) (leBytes 4 v.toNat)) (hv : bit v.toNat 13 = false ∨ ringEn s r = true) :
    ∃ t, exec (.ringCfgWrite q r v) s = .next t ∧
      (ringEn s r = true → bits (s.getN (O.RING_CFG r)) 0 13 ≠ bits v.toNat 0 13 →
        (t.rqOf q).lastAbort = 0xA030 ∧ { t with req := s.req } = s) ∧
      (ringEn s r = false ∨ bits (s.getN (O.RING_CFG r)) 0 13 = bits v.toNat 0 13 → t.getN (O.RING_CFG r) = v.toNat ∧
        (bit v.toNat 13 = false → t.rings[r].recs = []) ∧ (bit v.toNat 13 = true → t.rings = s.rings) ∧
        (∀ x : RingId, x ≠ r → t.rings[x] = s.rings[x]) ∧
        Still s { t with req := s.req, rings := s.rings } (· ∈ [O.DICT_GEN, O.RING_CFG r])) := by
  have hreg : O.RING_CFG r ∈ ringRegs r := by simp [ringRegs]
  have hop := ownUnit_ringCfg s q r v.toNat
  refine ⟨_, exec_ringCfgWrite s q r v, fun he hm => ?_, fun hm => ?_⟩
  · exact ringReg_refused h hreg (hop.trans (congrArg some (ringCfgPut_moves he hm))) (by decide)
  · obtain ⟨hstill, hrings, hget⟩ := ringReg_kept (f := (· ∈ [O.DICT_GEN, O.RING_CFG r])) h hreg
      (hop.trans (congrArg some (ringCfgPut_sets hv hm))) (ringSet_silent (by simp)) (by simp)
    obtain ⟨hoff, hon, hother⟩ := ringSet_rings s r v.toNat
    rw [hrings, hget _ (ringReg_ne_dictGen (r := r) (by simp))]
    exact ⟨getN_ringSet s r v.toNat, hoff, hon, hother, hstill⟩

end

/-! ### RING_PI and RING_CI (R682) -/

section
variable {s : State} {q : Requester} {r : RingId} {v : BitVec 32} {n : Nat} {l : List RingRec}

/-- The bytes by which a count of the host goes beyond the present one of a register. -/
def countAhead (s : State) (a : Addr) (n : Nat) : Nat := (n + 2 ^ 32 - s.getN a) % 2 ^ 32

/-- The state after the host has published records of ring 0. -/
def ringPublished (s : State) (n : Nat) : State := (s.setN (O.RING_PI (0 : Nat)) n).modRing 0 fun g => { g with aged := false }

theorem ringPiPut_publishes (he : ringEn s 0 = true) (hci : countAhead s (O.RING_CI (0 : Nat)) n ≤ ringSize s 0)
    (hpi : countAhead s (O.RING_PI (0 : Nat)) n ≤ ringSize s 0)
    (hb : boundary s n (countAhead s (O.RING_PI (0 : Nat)) n / 4) (s.getN (O.RING_PI (0 : Nat))) = true) :
    ringPiPut s 0 n = (ringPublished s n, 0) := by
  have hok : ¬ (ringSize s 0 < countAhead s (O.RING_CI (0 : Nat)) n ∨ ringSize s 0 < countAhead s (O.RING_PI (0 : Nat)) n ∨
      boundary s n (countAhead s (O.RING_PI (0 : Nat)) n / 4) (s.getN (O.RING_PI (0 : Nat))) = false) := by
    simp [hb, hci, hpi]
  unfold ringPiPut
  rw [if_neg (by decide), if_neg (by simp [he])]
  exact if_neg hok

theorem ringPiPut_refuses (he : ringEn s 0 = true) (h : ringSize s 0 < countAhead s (O.RING_CI (0 : Nat)) n ∨
    boundary s n (countAhead s (O.RING_PI (0 : Nat)) n / 4) (s.getN (O.RING_PI (0 : Nat))) = false) : ringPiPut s 0 n = (s, 0xA020) := by
  unfold ringPiPut
  rw [if_neg (by decide), if_neg (by simp [he])]
  exact if_pos (h.imp_right .inr)

/-- The state after the host has consumed records of a device ring. -/
def ringConsumed (s : State) (r : RingId) (n : Nat) (l : List RingRec) : State :=
  let t := (s.setN (O.RING_CI r) n).modRing r fun g => { g with recs := l }
  t.modRing r fun g => { g with aged := g.aged && oldRecord t r }

theorem ringCiPut_consumes (hr : r ≠ 0) (hu : countAhead s (O.RING_CI r) n ≤ ringUsed s r)
    (hl : consume s.rings[r].recs (countAhead s (O.RING_CI r) n) = some l) : ringCiPut s r n = (ringConsumed s r n l, 0) := by
  unfold countAhead at hu hl
  unfold ringCiPut
  rw [if_neg hr]
  simp only [if_neg (Nat.not_lt.mpr hu), hl]
  rfl

theorem ringCiPut_refuses (hr : r ≠ 0) (h : ringUsed s r < countAhead s (O.RING_CI r) n ∨
    consume s.rings[r].recs (countAhead s (O.RING_CI r) n) = none) : ringCiPut s r n = (s, 0xA020) := by
  unfold countAhead at h
  unfold ringCiPut
  rw [if_neg hr]
  by_cases hu : ringUsed s r < (n + 2 ^ 32 - s.getN (O.RING_CI r)) % 2 ^ 32
  · exact if_pos hu
  · simp only [if_neg hu, h.resolve_left hu]

theorem ringConsumed_rings (s : State) (r : RingId) (n : Nat) (l : List RingRec) :
    (ringConsumed s r n l).rings[r].recs = l ∧ ∀ x : RingId, x ≠ r → (ringConsumed s r n l).rings[x] = s.rings[x] := by
  unfold ringConsumed
  extract_lets t
  refine ⟨?_, fun x hx => ?_⟩
  · exact (congrArg Ring.recs (State.modRing_same t r _)).trans (congrArg Ring.recs (State.modRing_same _ r _))
  · exact (State.modRing_ne t _ hx).trans (State.modRing_ne _ _ hx)

/-- The host publishes records of ring 0. -/
theorem ringPi_publishes (h : Admitted s q (O.RING_PI (0 : Nat)) (leBytes 4 v.toNat)) (he : ringEn s 0 = true)
    (hci : countAhead s (O.RING_CI (0 : Nat)) v.toNat ≤ ringSize s 0) (hpi : countAhead s (O.RING_PI (0 : Nat)) v.toNat ≤ ringSize s 0)
    (hb : boundary s v.toNat (countAhead s (O.RING_PI (0 : Nat)) v.toNat / 4) (s.getN (O.RING_PI (0 : Nat))) = true) :
    ∃ t, exec (.ringPiWrite q 0 v) s = .next t ∧ t.getN (O.RING_PI (0 : Nat)) = v.toNat ∧ t.rings[(0 : RingId)].aged = false ∧
      Still s { t with req := s.req, rings := s.rings } (· ∈ [O.DICT_GEN, O.RING_PI (0 : Nat)]) := by
  have hop : ownUnit s q (O.RING_PI (0 : Nat)) v.toNat = some (ringPublished s v.toNat, 0) :=
    (ownUnit_ringPi s q 0 v.toNat).trans (congrArg some (ringPiPut_publishes he hci hpi hb))
  have hsilent : Silent (ringUnits s) (· ∈ [O.DICT_GEN, O.RING_PI (0 : Nat)]) s (ringPublished s v.toNat) :=
    ((Silent.refl _ s).setN (a := O.RING_PI (0 : Nat)) (by simp) _).step
  obtain ⟨hstill, hrings, hget⟩ := ringReg_kept (r := 0) h (by simp [ringRegs]) hop hsilent (by simp)
  refine ⟨_, exec_ringPiWrite s q 0 v, (hget _ (by decide)).trans (State.getN_setN_same s _ _), ?_, hstill⟩
  exact (congrArg (fun g => g[(0 : RingId)].aged) hrings).trans (congrArg Ring.aged (State.modRing_same _ 0 _))

/-- The host consumes records of a device ring. -/
theorem ringCi_consumes (h : Admitted s q (O.RING_CI r) (leBytes 4 v.toNat)) (hr : r ≠ 0)
    (hu : countAhead s (O.RING_CI r) v.toNat ≤ ringUsed s r)
    (hl : consume s.rings[r].recs (countAhead s (O.RING_CI r) v.toNat) = some l) :
    ∃ t, exec (.ringCiWrite q r v) s = .next t ∧ t.getN (O.RING_CI r) = v.toNat ∧ t.rings[r].recs = l ∧
      (∀ x : RingId, x ≠ r → t.rings[x] = s.rings[x]) ∧ Still s { t with req := s.req, rings := s.rings } (· ∈ [O.DICT_GEN, O.RING_CI r]) := by
  have hop := (ownUnit_ringCi s q r v.toNat).trans (congrArg some (ringCiPut_consumes hr hu hl))
  have hsilent : Silent (ringUnits s) (· ∈ [O.DICT_GEN, O.RING_CI r]) s (ringConsumed s r v.toNat l) :=
    ((Silent.refl _ s).setN (a := O.RING_CI r) (by simp) _).step
  obtain ⟨hstill, hrings, hget⟩ := ringReg_kept (r := r) h (by simp [ringRegs]) hop hsilent (by simp)
  obtain ⟨hrecs, hother⟩ := ringConsumed_rings s r v.toNat l
  refine ⟨_, exec_ringCiWrite s q r v, ?_, ?_, ?_, hstill⟩
  · rw [hget _ (ringReg_ne_dictGen (r := r) (by simp))]
    exact State.getN_setN_same s _ _
  · rw [hrings, hrecs]
  · rw [hrings]
    exact hother

/-- The host does not publish records of a device ring, nor consume those of ring 0. -/
theorem ringCount_readOnly {c : Instr} (h : (c = .ringPiWrite q r v ∧ r ≠ 0 ∧ Admitted s q (O.RING_PI r) (leBytes 4 v.toNat)) ∨
    (c = .ringCiWrite q r v ∧ r = 0 ∧ Admitted s q (O.RING_CI r) (leBytes 4 v.toNat))) :
    ∃ t, exec c s = .next t ∧ (t.rqOf q).lastAbort = 0xA010 ∧ { t with req := s.req } = s := by
  rcases h with ⟨rfl, hr, h⟩ | ⟨rfl, hr, h⟩
  · exact ⟨_, exec_ringPiWrite s q r v, ringReg_refused (r := r) h (by simp [ringRegs])
      ((ownUnit_ringPi s q r v.toNat).trans (congrArg some (if_pos hr))) (by decide)⟩
  · exact ⟨_, exec_ringCiWrite s q r v, ringReg_refused (r := r) h (by simp [ringRegs])
      ((ownUnit_ringCi s q r v.toNat).trans (congrArg some (if_pos hr))) (by decide)⟩

end

/-! ### Resumption (R686) -/

section
variable (s : State) (r : RingId)

theorem ringPut_ring (bs : List Byte) (g : Option Nat) : (ringPut s r bs g).rings[r] =
    { s.rings[r] with recs := s.rings[r].recs ++ [{ len := bs.length, at_ := s.uptime, gap := g }] } :=
  State.modRing_same _ r _

/-- A ring with a gap marker after its records. -/
def gapMarked (now : Nat) (g : Ring) : Ring :=
  { g with recs := g.recs ++ [{ len := 8, at_ := now, gap := some g.gap }], gap := 0, count := g.count + 1 }

theorem ringGap_ring : (ringGap s r).rings[r] = gapMarked s.uptime s.rings[r] :=
  (State.modRing_same _ r _).trans (congrArg (fun g : Ring => { g with gap := 0, count := g.count + 1 }) (ringPut_ring s r _ _))

theorem ringWrite_held (i : RingItem) : (ringWrite s r i).rings[r].held = s.rings[r].held := by
  have hgap : (if 0 < s.rings[r].gap then ringGap s r else s).rings[r].held = s.rings[r].held := by
    split
    · exact (congrArg Ring.held (ringGap_ring s r) :)
    · rfl
  unfold ringWrite
  refine (congrArg Ring.held (State.modRing_same _ r _)).trans ?_
  exact (congrArg Ring.held (ringPut_ring _ r _ _)).trans hgap

/-- What the copier of ring 14 does with one entry that it holds. -/
def copyOne (s : State) (i : RingItem) : State :=
  if s.rings[(14 : RingId)].held.head? = some i ∧ ringEn s 14 ∧ ringNeed s.rings[(14 : RingId)] i ≤ ringFree s 14 then
    ringWrite (s.modRing 14 fun g => { g with held := g.held.drop 1 }) 14 i
  else s

theorem copyOne_only (i : RingItem) : RecorderOnly s (copyOne s i) := by
  unfold copyOne
  split
  · next h => exact (recorderOnly_ring s 14 _).trans (ringWrite_only _ 14 i h.2.1)
  · exact .refl s

theorem copyOne_held (i : RingItem) : ∃ n, (copyOne s i).rings[(14 : RingId)].held = s.rings[(14 : RingId)].held.drop n := by
  unfold copyOne
  split
  · exact ⟨1, (ringWrite_held _ 14 i).trans (congrArg Ring.held (State.modRing_same s 14 _))⟩
  · exact ⟨0, rfl⟩

/-- The copier writes entries from the front of those it holds, and changes only what records in rings may. -/
theorem copyHeld_only : RecorderOnly s (copyHeld s) ∧
    ∃ n, (copyHeld s).rings[(14 : RingId)].held = s.rings[(14 : RingId)].held.drop n := by
  have h : ∀ (l : List RingItem) (t : State), RecorderOnly t (l.foldl copyOne t) ∧
      ∃ n, (l.foldl copyOne t).rings[(14 : RingId)].held = t.rings[(14 : RingId)].held.drop n := by
    intro l
    induction l with
    | nil => exact fun t => ⟨.refl t, 0, rfl⟩
    | cons i l ih =>
      intro t
      obtain ⟨honly, n, hn⟩ := ih (copyOne t i)
      obtain ⟨m, hm⟩ := copyOne_held t i
      exact ⟨(copyOne_only t i).trans honly, m + n, by rw [List.foldl_cons, hn, hm, List.drop_drop]⟩
  exact h _ s

end

/-- A state with the traces taken from `o`. -/
def traceUnits (o s : State) : State := { s with traces := o.traces }

theorem Frame.of_record {Q : State → State} {f : Addr → Prop} {s t : State} (h : RecorderOnly s t) : Frame Q f s t :=
  ⟨fun a ha _ => h.get a ha, congrArg Q h.rest, h.outside⟩

theorem Frame.modTrace {o s t : State} {f : Addr → Prop} (h : Frame (traceUnits o) f s t) (r : RegionId) (g : Trace → Trace) :
    Frame (traceUnits o) f s (t.modTrace r g) := h.step

/-- One trace block into ring 12: records in rings, and the trace's count of blocks. -/
theorem pumpStep_frame (o s : State) (r : RegionId) : Frame (traceUnits o) (fun _ => False) s (pumpStep s r) := by
  unfold pumpStep
  split
  · exact .refl _ _ _
  · next h =>
    have he : ringEn s 12 = true := by
      simp only [not_or, Bool.not_eq_false] at h
      exact h.2.2.2
    extract_lets i
    split
    · have hw : Frame (traceUnits o) (fun _ => False) s (ringWrite (s.modRing 12 fun g => { g with stopped := false }) 12 i) :=
        .of_record ((recorderOnly_ring s 12 _).trans (ringWrite_only _ 12 i he))
      exact hw.modTrace r _
    · split
      · exact .refl _ _ _
      · exact .of_record ((recorderOnly_ring s 12 _).trans (record_only _ _ _ _))

theorem unloadPump_frame (o s : State) : Frame (traceUnits o) (fun _ => False) s (unloadPump s) := by
  unfold unloadPump
  split
  · exact .refl _ _ _
  · exact Frame.foldl (.refl _ _ _) fun u _ _ h => h.trans (fun _ => id) (pumpStep_frame o u _)

/-- A ring resumes. -/
theorem ringResume_resumes {s : State} {r : RingId} (hf : s.chip.freeze = false) (he : ringEn s r = true) :
    ∃ t, exec (.ringResume r) s = .next t ∧
      (r = 2 → s.rings[r].stopped = true → ringSize s r ≤ 2 * ringFree s r → t.rings[r].stopped = false ∧ t.rings[r].gap = 0 ∧
        t.rings[r].recs = s.rings[r].recs ++ [{ len := 8, at_ := s.uptime, gap := some s.rings[r].gap }]) ∧
      (r = 14 → ∃ n, t.rings[r].held = s.rings[r].held.drop n) ∧ (r ≠ 2 → r ≠ 12 → r ≠ 14 → t = s) ∧
      Keeps s { t with traces := s.traces } (fun _ => False) := by
  have keeps {t : State} (h : Frame (traceUnits s) (fun _ => False) s t) : Keeps s { t with traces := s.traces } (fun _ => False) :=
    ⟨h.objects, h.units, h.outside⟩
  have hrun : exec (.ringResume r) s = if r = 2 then
      if s.rings[r].stopped ∧ ringSize s r ≤ 2 * ringFree s r then .next (ringGap (s.modRing r fun g => { g with stopped := false }) r)
      else .next s
    else if r = 12 then .next (unloadPump s) else if r = 14 then .next (copyHeld s) else .next s :=
    if_neg (by simp [hf, he])
  rw [hrun]
  by_cases h2 : r = 2
  · rw [if_pos h2]
    by_cases hs : s.rings[r].stopped ∧ ringSize s r ≤ 2 * ringFree s r
    · rw [if_pos hs]
      have hring := (ringGap_ring (s.modRing r fun g => { g with stopped := false }) r).trans
        (congrArg (gapMarked s.uptime) (State.modRing_same s r _))
      refine ⟨_, rfl, fun _ _ _ => ?_, fun h => absurd (h2.symm.trans h) (by decide), fun h => absurd h2 h,
        keeps (.of_record ((recorderOnly_ring s r _).trans (ringGap_only _ r he)))⟩
      rw [hring]
      exact ⟨rfl, rfl, rfl⟩
    · rw [if_neg hs]
      exact ⟨s, rfl, fun _ h h' => absurd ⟨h, h'⟩ hs, fun _ => ⟨0, rfl⟩, fun _ _ _ => rfl, keeps (.refl _ _ _)⟩
  · rw [if_neg h2]
    by_cases h12 : r = 12
    · rw [if_pos h12]
      exact ⟨_, rfl, fun h => absurd h h2, fun h => absurd (h12.symm.trans h) (by decide), fun _ h => absurd h12 h,
        keeps (unloadPump_frame s s)⟩
    · rw [if_neg h12]
      by_cases h14 : r = 14
      · obtain ⟨honly, hheld⟩ := copyHeld_only s
        subst h14
        exact ⟨_, rfl, fun h => absurd h h2, fun _ => hheld, fun _ _ h => absurd rfl h, keeps (.of_record honly)⟩
      · rw [if_neg h14]
        exact ⟨s, rfl, fun h => absurd h h2, fun h => absurd h h14, fun _ _ _ => rfl, keeps (.refl _ _ _)⟩

/-! ### Age (R687) and telemetry (R688) -/

theorem ringTmo_ages {s : State} {r : RingId} (hr : r ≠ 0) (he : ringEn s r = true) (ho : oldRecord s r = true) :
    exec (.ringTmoElapsed r) s = .next (s.modRing r fun g => { g with aged := true }) := if_pos ⟨hr, he, ho⟩

/-- A loop's next interval begins; `f` free values are drawn. -/
def telemetryBegins (s : State) (k : LoopId) (f : Nat) : State :=
  { s with free := f }.modLoop k fun l => { l with tel := { at_ := some s.uptime } }

/-- A loop's record is offered to its ring, from the state that a free value leaves. -/
def telemetryOffer (k : LoopId) (z : Nat × State) : State :=
  offerAsk (z.2.modLoop k fun l => { l with tel := { at_ := some z.2.uptime } }) ⟨4 + k.val, by omega⟩
    { ty := 5, words := loopWords z.2 k z.1 }

theorem telemetryOffer_only (s : State) (k : LoopId) (z f : Nat) :
    RecorderOnly (telemetryBegins s k f) (telemetryOffer k (z, { s with free := f })) := offerAsk_only _ _ _

/-- A loop's record is produced, and its next interval begins. -/
theorem telemetry_loop {s : State} {k : LoopId} (hr : s.getN (O.RING_OPT (4 + k.val)) ≠ 0) (ho : isOff s k = false)
    (hi : intervalDone s.loops[k].tel.at_ s.uptime (s.getN (O.RING_OPT (4 + k.val))) = true) :
    ∃ t, exec (.telemetryRecord (.loop k)) s = .next t ∧ t.loops[k].tel = { at_ := some s.uptime } ∧
      Keeps s { t with loops := t.loops.set k { t.loops[k] with tel := s.loops[k].tel }, free := s.free } (fun _ => False) := by
  have hrun : ¬ (isOff s k = true ∨ s.getN (O.RING_OPT (4 + k.val)) = 0 ∨
      intervalDone s.loops[k].tel.at_ s.uptime (s.getN (O.RING_OPT (4 + k.val))) = false) := by
    rw [ho, hi]
    simp [hr]
  have hdraw : ∃ z f, (if s.loops[k].tel.n = 0 then s.draw else (0, s)) = (z, { s with free := f }) := by
    split
    · exact ⟨_, _, rfl⟩
    · exact ⟨_, _, rfl⟩
  obtain ⟨z, f, hz⟩ := hdraw
  have ht : exec (.telemetryRecord (.loop k)) s = .next (telemetryOffer k (if s.loops[k].tel.n = 0 then s.draw else (0, s))) := if_neg hrun
  rw [hz] at ht
  have honly := telemetryOffer_only s k z f
  have htel : (telemetryBegins s k f).loops[k] = { s.loops[k] with tel := { at_ := some s.uptime } } := State.modLoop_same _ k _
  refine ⟨_, ht, ?_, fun a ha _ => honly.get a ha, ?_, honly.outside⟩
  · rw [honly.loops, htel]
  · have hset : (telemetryBegins s k f).loops.set k { (telemetryBegins s k f).loops[k] with tel := s.loops[k].tel } = s.loops := by
      rw [htel]
      exact (Vector.set_set ..).trans (Vector.set_getElem_self ..)
    rw [honly.loops]
    exact (congrArg (fun u : State => { u with
      loops := (telemetryBegins s k f).loops.set k { (telemetryBegins s k f).loops[k] with tel := s.loops[k].tel }
      free := s.free }) honly.rest).trans (congrArg (fun l => { rest s with loops := l }) hset)

/-- Loop FB's record is produced, and its next interval begins. -/
theorem telemetry_fb {s : State} (hr : s.getN (O.RING_OPT (13 : Nat)) ≠ 0) (ho : fbState s ≠ 0)
    (hi : intervalDone s.fb.telAt s.uptime (s.getN (O.RING_OPT (13 : Nat))) = true) :
    ∃ t, exec (.telemetryRecord .fb) s = .next t ∧ t.fb.telAt = some s.uptime ∧
      Keeps s { t with fb := { t.fb with telAt := s.fb.telAt } } (fun _ => False) := by
  have hrun : ¬ (fbState s = 0 ∨ s.getN (O.RING_OPT (13 : Nat)) = 0 ∨
      intervalDone s.fb.telAt s.uptime (s.getN (O.RING_OPT (13 : Nat))) = false) := by simp [ho, hr, hi]
  have honly := offerAsk_only { s with fb := { s.fb with telAt := some s.uptime } } 13 { ty := 7, words := fbWords s }
  refine ⟨_, if_neg hrun, ?_, fun a ha _ => honly.get a ha, ?_, honly.outside⟩
  · rw [honly.fb]
  · exact congrArg (fun u : State => { u with fb := { u.fb with telAt := s.fb.telAt } }) honly.rest

/-! ### The statement -/

/-- Settles O52: the three registers written and refused, a ring that resumes, a record's age, the two kinds of telemetry. -/
theorem ringRegisters : Obligations.RingRegisters := by
  unfold Obligations.RingRegisters
  refine ⟨fun s q r v h hv he => ?_, fun _ _ _ _ h hv => ringCfg_sets h hv, fun _ _ _ h he hci hpi hb => ringPi_publishes h he hci hpi hb,
    fun _ _ _ _ _ h hr hu hl => ringCi_consumes h hr hu hl, fun s q v h he hx => ?_, fun s q r v h hr hx => ?_,
    fun _ _ _ _ _ h => ringCount_readOnly h, fun _ _ hf he => ringResume_resumes hf he, fun _ _ hr he ho => ⟨_, ringTmo_ages hr he ho, rfl⟩,
    fun _ _ hr ho hi => telemetry_loop hr ho hi, fun _ hr ho hi => telemetry_fb hr ho hi⟩
  · obtain ⟨t, ht, hok, hbad⟩ := ringCfg_enables h hv he
    refine ⟨t, ht, fun ha hm => hok fun hb => ?_, hbad⟩
    rcases hb with hb | ⟨x, hx, hxe, hxm⟩
    · exact absurd ha (Nat.not_le.mpr hb)
    · exact absurd ((hm x hx hxe).symm.trans hxm) Bool.false_ne_true
  · exact ⟨_, exec_ringPiWrite s q 0 v, ringReg_refused (r := 0) h (by simp [ringRegs])
      ((ownUnit_ringPi s q 0 v.toNat).trans (congrArg some (ringPiPut_refuses he hx))) (by decide)⟩
  · exact ⟨_, exec_ringCiWrite s q r v, ringReg_refused (r := r) h (by simp [ringRegs])
      ((ownUnit_ringCi s q r v.toNat).trans (congrArg some (ringCiPut_refuses hr hx))) (by decide)⟩

end Sys2Proof.Machine
end

section
/-! Plain writes: which objects a write with no operation of its own may set, what follows from it (R49, R50, R229, R285, R387, R447,
R494, R531, R636), and what it leaves unchanged. -/

namespace Sys2Proof.Machine

/-! ### Rows -/

theorem all_ite {α : Type} {p : Prop} [Decidable p] {l m : List α} {f : α → Bool} (hl : l.all f = true) (hm : m.all f = true) :
    (if p then l else m).all f = true := by
  split
  · exact hl
  · exact hm

theorem rowsFor_str (t : Addr) : (rowsFor t).all (fun r => r.ty != .str || r.acc == .ro) = true := by
  unfold rowsFor
  extract_lets i
  iterate 19 refine all_ite (by decide +kernel) ?_
  decide +kernel

/-- An object is named by its row, or lies where etched objects are mirrored (R599). -/
theorem resolve_obj {a : Addr} {r : Row} (h : resolve a = .obj a r) : rowOf a = some r ∨ (0x7C00 ≤ a / 256 ∧ ∃ f, rowOf f = some r) := by
  unfold resolve at h
  split_ifs at h with h0 hm hsub hknown
  · right
    refine ⟨hm.1, ?_⟩
    split at h
    · cases h
    · split at h
      · next hr =>
        cases h
        exact ⟨_, hr⟩
      all_goals cases h
  all_goals
    left
    cases hr : rowOf a with
    | none =>
      rw [hr] at h
      cases h
    | some r' =>
      rw [hr] at h
      cases he : etchedAt a <;> simp_all

/-- A string is read-only. -/
theorem str_readOnly {a : Addr} {r : Row} (h : resolve a = .obj a r) (ht : r.ty = .str) : r.acc = .ro := by
  obtain ⟨f, hf⟩ : ∃ f, rowOf f = some r := (resolve_obj h).elim (fun h => ⟨a, h⟩) And.right
  have hr := List.all_eq_true.mp (rowsFor_str (template f)) r (List.mem_of_find?_eq_some hf)
  simpa [ht] using hr

/-! ### Objects with an operation of their own -/

theorem isSome_ite {α : Type} {p : Prop} [Decidable p] {x y : α} {m n : Option α} (h : m.isSome = n.isSome) :
    (if p then some x else m).isSome = (if p then some y else n).isSome := by
  split
  · rfl
  · exact h

theorem isSome_some {α : Type} (x y : α) : (some x).isSome = (some y).isSome := rfl

section
variable {s : State} {q : Requester} {a : Addr} {v : Nat} {w : With}

/-- Whether a chip-level object has an operation of its own depends on its address alone. -/
theorem ownChip_isSome (s t : State) (q : Requester) (a : Addr) (v : Nat) (w x : With) :
    (ownChip s q a v w).isSome = (ownChip t q a v x).isSome := by
  unfold ownChip
  iterate 17 refine isSome_ite ?_
  rfl

/-- The same of a unit's object. -/
theorem ownUnit_isSome (s t : State) (q : Requester) (a : Addr) (v : Nat) : (ownUnit s q a v).isSome = (ownUnit t q a v).isSome := by
  unfold ownUnit
  extract_lets
  iterate 17 refine isSome_ite ?_
  cases tableCmdAt a with
  | some i => exact isSome_some _ _
  | none =>
    cases latchObjAt a with
    | some o => exact isSome_some _ _
    | none => rfl

theorem ownChip_none (h : ownChip s q a v w = none) (t : State) (x : With) : ownChip t q a v x = none :=
  Option.not_isSome_iff_eq_none.mp (by rw [ownChip_isSome t s q a v x w, h]; decide)

theorem ownUnit_none (h : ownUnit s q a v = none) (t : State) : ownUnit t q a v = none :=
  Option.not_isSome_iff_eq_none.mp (by rw [ownUnit_isSome t s q a v, h]; decide)

/-- The templates of objects with an operation of their own among those that other operations write as well. -/
def ownedTemplates : List Addr := [O.LOOP_FLT 0, O.ENG_FLAGS 0, O.RING_CFG 0, O.RING_PI 0, O.RING_CI 0]

theorem not_owned (h : ownUnit s q a v = none) : template a ∉ ownedTemplates := by
  intro ht
  simp only [ownedTemplates, List.mem_cons, List.not_mem_nil, or_false] at ht
  rcases ht with ht | ht | ht | ht | ht
  · have hl : latchObjAt a = some (.loop (loopOf (instOf a))) := if_pos ht
    simp only [ownUnit, ht, hl] at h
    cases hc : tableCmdAt a <;> rw [hc] at h <;> cases h
  all_goals simp [ownUnit, ht] at h

end

/-! ### Objects that other operations write -/

/-- The objects that a plain write may change beside its own. -/
def plainSide (a : Addr) : Prop := a = O.FB_PERIOD_CNT ∨ among [O.PERIOD_CNT 0, O.BUR_VALID 0] a ∨ among loopTemplates a

/-- The templates of the objects that records, accepted writes, reports of write frames and plain writes of other objects may change,
and that of RING_CFG. -/
def sideTemplates : List Addr :=
  loopTemplates ++ [O.PERIOD_CNT 0, O.BUR_VALID 0, O.FB_PERIOD_CNT, O.DICT_GEN, O.TW_ROLE, O.SP_WSTAT, O.PUSH_DROP_CNT, O.ALERT_DROP_CNT,
    O.RING_CFG 0, O.RING_PI 0, O.RING_CI 0, O.RING_LOST 0] ++ (List.range 5).map (O.LOG_STAT + ·)

theorem template_mirror {a : Nat} (h : 0x7C00 ≤ a / 256) : template a = a := by
  unfold template Addr
  iterate 14 rw [if_neg (by omega)]

/-- An object of these templates is read-only, or has an operation of its own. -/
theorem sideTemplates_readOnly {a : Addr} {r : Row} (h : resolve a = .obj a r) (ht : template a ∈ sideTemplates) :
    r.acc = .ro ∨ template a ∈ ownedTemplates := by
  have hall : ∀ t ∈ sideTemplates, t / 256 < 0x7C00 ∧ (t ∈ ownedTemplates ∨
      ((rowsFor t).find? fun r => r.addr ≤ t && t < r.addr + r.count).all (fun r => r.acc == .ro) = true) := by decide +kernel
  obtain ⟨hlow, hro⟩ := hall _ ht
  rcases resolve_obj h with hr | ⟨hm, -⟩
  · refine hro.symm.imp_left fun hro => ?_
    have hfind : ((rowsFor (template a)).find? fun r => r.addr ≤ template a && template a < r.addr + r.count) = some r := hr
    rw [hfind] at hro
    simpa using hro
  · rw [template_mirror hm] at hlow
    exact absurd hm (Nat.not_le.mpr hlow)

theorem template_recorder {a : Addr} (h : recorderObj a = true) : template a ∈ sideTemplates := by
  have hlog : ∀ i : Nat, i < 5 → template (O.LOG_STAT + i) ∈ sideTemplates := by decide
  have hring : ∀ n < 16, ∀ i ∈ [2, 3, 6], template ((0x1140 + n) * 256 + i) ∈ sideTemplates := by decide
  simp only [recorderObj, Bool.or_eq_true, Bool.and_eq_true, decide_eq_true_eq, beq_iff_eq] at h
  rcases h with ((⟨h1, h2⟩ | h) | h) | ⟨⟨h1, h2⟩, h3⟩
  · obtain ⟨i, rfl⟩ := Nat.exists_eq_add_of_le h1
    exact hlog i (by have h3 : 0x700202 + i ≤ 0x700206 := h2; omega)
  · rw [h]
    decide
  · rw [h]
    decide
  · obtain ⟨n, hn⟩ := Nat.exists_eq_add_of_le h1
    have ha : a = (0x1140 + n) * 256 + a % 256 := by
      rw [← hn]
      exact (Nat.div_add_mod' a 256).symm
    have hlt : n < 16 := by
      rw [hn] at h2
      exact Nat.lt_of_add_lt_add_left (n := 0x1140) h2
    rw [ha]
    exact hring n hlt _ (by simpa [or_assoc] using h3)

/-- An object that a plain write may set: no record, no accepted write and no plain write of another object touches it. -/
structure Settable (a : Addr) : Prop where
  free : writeFree a
  side : ¬ plainSide a
  report : a ≠ O.SP_WSTAT
  ring : ∀ r : RingId, a ≠ O.RING_CFG r

theorem Settable.of_sideTemplates {a : Addr} (h : template a ∉ sideTemplates) : Settable a := by
  have ne {b : Addr} (hb : template b ∈ sideTemplates) : a ≠ b := fun e => h (e ▸ hb)
  have hl : ∀ l ∈ [loopTemplates, [O.PERIOD_CNT 0, O.BUR_VALID 0]], ∀ b ∈ l.map template, b ∈ sideTemplates := by decide
  refine ⟨⟨?_, ne (by decide), ne (by decide)⟩, ?_, ne (by decide), fun r => ne (by revert r; decide)⟩
  · exact Bool.eq_false_iff.mpr fun hr => h (template_recorder hr)
  · rintro (hb | hb | hb)
    · exact ne (by decide) hb
    · exact h (hl _ (by simp) _ hb)
    · exact h (hl _ (by simp) _ hb)

/-- An admitted write with no operation of its own sets such an object. -/
theorem settable_of_admitted {s : State} {q : Requester} {a : Addr} {data : List Byte} {r : Row} (h : Admitted s q a data)
    (hr : resolve a = .obj a r) (hu : ownUnit s q a (ofBytes r.ty data).toNat = none) : Settable a := by
  obtain ⟨-, -, r', hr', -, hw, -⟩ := h
  obtain rfl : r = r' := by simpa [hr] using hr'
  refine .of_sideTemplates fun ht => (sideTemplates_readOnly hr ht).elim (fun hro => ?_) (not_owned hu)
  unfold writeCheck at hw
  rw [if_pos hro] at hw
  exact absurd hw (by decide)

/-- The number of the loop of an object in a loop's range. -/
theorem instOf_loop {a c : Nat} (h : template a = c) (hc : 0x300000 ≤ c ∧ c < 0x310000) : instOf a < 8 := by
  have hr : 0x3000 ≤ a / 256 ∧ a / 256 < 0x3800 := by
    replace h : @Eq Nat (template a) c := h
    unfold template Addr at h
    grind
  unfold instOf Addr
  iterate 6 rw [if_neg (by omega)]
  rw [if_pos (by omega)]
  omega

/-- A state with everything taken from `o` that a plain write may change beside objects. -/
def plainUnits (o s : State) : State :=
  writeUnits o { loopUnits o s with tw := { s.tw with clash := o.tw.clash } }

theorem keepOld_eq (s : State) (k : LoopId) (a : Addr) : ∃ n l, s.keepOld k a = { s with free := n, loops := l } := by
  have heff : ∃ m n, s.effSample k = (m, { s with free := n }) := by
    unfold State.effSample
    split
    · exact ⟨_, _, rfl⟩
    · exact ⟨_, _, rfl⟩
  obtain ⟨m, n, heff⟩ := heff
  unfold State.keepOld
  split
  · rw [heff]
    exact ⟨n, _, rfl⟩
  · exact ⟨_, _, rfl⟩

namespace Frame
variable {o s t : State} {f : Addr → Prop}

theorem keepOld (h : Frame (plainUnits o) f s t) (k : LoopId) (a : Addr) : Frame (plainUnits o) f s (t.keepOld k a) := by
  obtain ⟨n, l, he⟩ := keepOld_eq t k a
  rw [he]
  exact h.step

/-- What a shared transition of the loops changes. -/
theorem transition {u : State} (hf : ∀ b, among loopTemplates b → f b) (hc : ∀ r : RingId, ¬ f (O.RING_CFG r))
    (h : Frame (plainUnits o) f s t) (hl : Frame (loopUnits o) (among loopTemplates) t u) : Frame (plainUnits o) f s u :=
  h.trans hc ((hl.mono hf).hide fun u => writeUnits o { u with tw := { u.tw with clash := o.tw.clash } })

end Frame

theorem plainSide_ring_cfg (r : RingId) : ¬ plainSide (O.RING_CFG r) := by
  rintro (h | h | h)
  · revert h r; decide
  · exact among_ring_cfg (by decide) r h
  · exact among_ring_cfg (by decide) r h

theorem levelAgain_frame (o s : State) (k : LoopId) : Frame (plainUnits o) plainSide s (levelAgain s k) := by
  unfold levelAgain
  extract_lets v
  have hkeep : Frame (plainUnits o) plainSide s (keepFactors s k v) := by
    unfold keepFactors
    split
    · exact .refl _ _ _
    · exact ((Frame.refl _ _ s).keepOld k _).keepOld k _
  split
  · exact .refl _ _ _
  · exact hkeep.transition (fun _ hb => .inr (.inr hb)) plainSide_ring_cfg
      (.of_loopsOnly ((LoopsOnly.refl _).putLevel k v) (loopRest_putLevel o _ k v))

/-- What follows from a setting (R229, R285, R385, R387, R447, R494, R531, R534, R636). -/
theorem afterPlain_frame (o s : State) (a : Addr) (v : Int) : Frame (plainUnits o) plainSide s (afterPlain s a v) := by
  have hperiod {k : Nat} (hk : k < 8) : plainSide (O.PERIOD_CNT k) := .inr (.inl (among_loop (hn := hk)))
  have hvalid {k : Nat} (hk : k < 8) : plainSide (O.BUR_VALID k) := .inr (.inl (among_loop (hn := hk)))
  have hll {k : Nat} (hk : k < 8) : plainSide (O.LL_R_NOW k) := .inr (.inr (among_loop (hn := hk)))
  have refl : Frame (plainUnits o) plainSide s s := .refl _ _ _
  unfold afterPlain
  extract_lets t k l
  split
  · next h => exact refl.setN (hperiod (instOf_loop h (by decide))) _
  split
  · exact refl.setN (.inl rfl) _
  split
  · split
    · next k _ => exact refl.setN (hvalid k.isLt) _
    · exact refl
  split
  · next h => exact refl.setN (hvalid (instOf_loop h (by decide))) _
  split
  · exact levelAgain_frame o s l
  split
  · next h =>
    split
    · exact refl.setN (hll (instOf_loop h (by decide))) _
    · exact refl
  split
  · exact refl.transition (fun _ hb => .inr (.inr hb)) plainSide_ring_cfg (.rearm o s l)
  split
  · exact refl.step
  · exact refl

/-- The objects that a plain write may change. -/
def plainObj (a b : Addr) : Prop := b = a ∨ plainSide b

variable {s : State} {a : Addr}

/-- A plain write changes its object, and what follows from it. -/
theorem plainPut_frame (o s : State) (a : Addr) (v : Int) (hc : ∀ r : RingId, a ≠ O.RING_CFG r) :
    Frame (plainUnits o) (plainObj a) s (plainPut s a v) := by
  unfold plainPut
  extract_lets u
  have hu : Frame (plainUnits o) (plainObj a) s u := by
    unfold u
    split
    · exact (Frame.refl _ _ s).keepOld _ _
    · exact .refl _ _ _
  refine (hu.set (.inl rfl) v).trans ?_ ((afterPlain_frame o _ a v).mono fun _ => .inr)
  rintro r (h | h)
  · exact hc r h.symm
  · exact plainSide_ring_cfg r h

/-- The object reads the value written. -/
theorem get_plainPut (s : State) (v : Int) (ha : Settable a) : (plainPut s a v).get a = v := by
  unfold plainPut
  extract_lets u
  rw [(afterPlain_frame s (u.set a v) a v).get ha.free.1 ha.side]
  exact State.get_set_same u a v

/-! ### Admitted plain writes -/

section
variable {q : Requester} {r : Row} {data : List Byte}

/-- An admitted write with no operation of its own answers no abort, and does beside the plain write what every accepted write may. -/
theorem plainWrite_done (h : Admitted s q a data) (hr : resolve a = .obj a r)
    (hchip : ownChip s q a (ofBytes r.ty data).toNat {} = none) (hunit : ownUnit s q a (ofBytes r.ty data).toNat = none) (w : With) :
    (writeWhole s q a data w).2.abort = 0 ∧ Written (plainPut s a (ofBytes r.ty data)) (writeWhole s q a data w).1 (fun _ => False) := by
  have hc := ownChip_none hchip s w
  constructor
  · obtain ⟨-, -, r', hr', hacc, -, hsh, hst, hcf, -⟩ := id h
    obtain rfl : r = r' := by simpa [hr] using hr'
    have ha : applyWrite s q a r (ofBytes r.ty data) w = (plainPut s a (ofBytes r.ty data), 0) := by
      unfold applyWrite
      rw [if_neg (by simp [hsh, hst]), if_neg (by simp [hcf]), if_neg hacc, hc, hunit]
    obtain ⟨x, -, hx⟩ := writeWhole_applied h hr ha
    rw [hx]
  · obtain ⟨t, ht, hw⟩ := writeWhole_admitted (w := w) (u := plainPut s a (ofBytes r.ty data)) h fun r' hr' => by
      obtain rfl : r = r' := by simpa [hr] using hr'
      rw [hc, hunit]
    rwa [← ht, serve_admitted h] at hw

end

end Sys2Proof.Machine
end

section
/-! Write frames of the stream port (R662, R667 to R672, R677), and the statement of O51. -/

namespace Sys2Proof.Machine

/-! ### Bytes -/

theorem length_leBytes (n v : Nat) : (leBytes n v).length = n := by
  induction n generalizing v with
  | zero => rfl
  | succ n ih => exact congrArg (· + 1) (ih _)

theorem leBytes_ofLe (bs : List Byte) : leBytes bs.length (ofLe bs) = bs := by
  induction bs with
  | nil => rfl
  | cons b bs ih =>
    have hlow : BitVec.ofNat 8 (b.toNat + 256 * ofLe bs) = b := by
      apply BitVec.eq_of_toNat_eq
      have := b.isLt
      simp only [BitVec.toNat_ofNat]
      omega
    have hhigh : (b.toNat + 256 * ofLe bs) / 256 = ofLe bs := by
      have := b.isLt
      omega
    simp only [List.length_cons, ofLe, leBytes, hlow, hhigh, ih]

theorem length_words (ws : List Nat) : (ws.flatMap (leBytes 4)).length = 4 * ws.length := by
  induction ws with
  | nil => rfl
  | cons w ws ih =>
    rw [List.flatMap_cons, List.length_append, ih, length_leBytes, List.length_cons]
    omega

theorem putBytes_append (m : List (Nat × Byte)) (a : Nat) (bs cs : List Byte) :
    putBytes m a (bs ++ cs) = putBytes (putBytes m a bs) (a + bs.length) cs := by
  induction bs generalizing m a with
  | nil => rfl
  | cons b bs ih =>
    have hlen : a + (b :: bs).length = a + 1 + bs.length := by rw [List.length_cons]; omega
    rw [hlen]
    exact ih _ _

theorem byteAt_putBytes_outside (m : List (Nat × Byte)) {a c : Nat} {bs : List Byte} (h : c < a ∨ a + bs.length ≤ c) :
    byteAt (putBytes m a bs) c = byteAt m c := by
  induction bs generalizing m a with
  | nil => rfl
  | cons b bs ih =>
    rw [List.length_cons] at h
    exact (ih _ (by omega)).trans (byteAt_putByte_ne m b (by omega))

theorem byteAt_putBytes_inside (m : List (Nat × Byte)) (a : Nat) (bs : List Byte) {i : Nat} (h : i < bs.length) :
    byteAt (putBytes m a bs) (a + i) = bs[i] := by
  induction bs generalizing m a i with
  | nil => exact absurd h (Nat.not_lt_zero i)
  | cons b bs ih =>
    cases i with
    | zero => exact (byteAt_putBytes_outside _ (.inl (Nat.lt_succ_self a))).trans (byteAt_putByte_same m a b)
    | succ i =>
      have hi : a + (i + 1) = a + 1 + i := by omega
      rw [hi]
      exact ih _ _ (Nat.lt_of_succ_lt_succ h)

/-! ### Frames -/

section
variable {s : State} {addr : BitVec 32} {ws : List (BitVec 32)} {a w c n : Nat}

/-- The state once the device's phases of a frame stand. -/
def spAnswered (s : State) (l : List Byte) : State := { s with sp := { s.sp with response := l } }

theorem exec_spWrite (hs : serves s = true) (addr : BitVec 32) (ws : List (BitVec 32)) (ok : Bool) :
    exec (.spWrite addr ws ok .whole) s = .next (wordsFrame s addr.toNat (ws.map BitVec.toNat) ok) :=
  if_neg (by simp [hs])

theorem exec_spWriteNarrow (hs : serves s = true) (addr : BitVec 32) (e : BitVec 16) (w : BitVec 32) (ok : Bool) :
    exec (.spWriteNarrow addr e w ok .whole) s = .next (narrowFrame s addr.toNat e.toNat w.toNat ok) :=
  if_neg (by simp [hs])

/-- The count of a write frame lies in its range (R660, R668). -/
def countOk (a n : Nat) : Prop := 1 ≤ n ∧ n ≤ 64 ∧ ¬ (inWindowRegion a = true ∧ 16 < n)

/-- A frame without a refusal of the port's: its trailer, then its effect, then SP_WSTAT (R670, R671). -/
theorem writeFrame_passes (s : State) (head : List Byte) (f : State → State × Nat × Nat) : ∃ l, writeFrame s head 0 f =
    reportWrite (f (spAnswered s l)).1 (f (spAnswered s l)).2.1 (f (spAnswered s l)).2.2 :=
  ⟨(trailer s (head ++ leBytes 2 (spCrc head)) [] false false false 0).sp.response, rfl⟩

/-- A frame that the port passes: its trailer, then its words as far as the dictionary takes them, then SP_WSTAT (R668, R670, R671). -/
theorem wordsFrame_passes {ws : List Nat} (hn : countOk a ws.length) (hp : ∀ i < ws.length, portRefusal s (a + 4 * i) false = 0) :
    ∃ l, wordsFrame s a ws true = reportWrite (writeWords (spAnswered s l) a 0 ws).1 (writeWords (spAnswered s l) a 0 ws).2.1
      (writeWords (spAnswered s l) a 0 ws).2.2 := by
  obtain ⟨h1, h64, hwin⟩ := hn
  have hcount : ¬ (ws.length = 0 ∨ 64 < ws.length ∨ (inWindowRegion a = true ∧ 16 < ws.length)) := by
    rintro (h | h | h)
    · omega
    · omega
    · exact hwin h
  have hrefusal : (((List.range ws.length).map fun i => portRefusal s (a + 4 * i) false).find? fun c => c != 0) = none := by
    simpa using hp
  unfold wordsFrame
  extract_lets head refusal
  have hzero : refusal = 0 := congrArg (Option.getD · 0) hrefusal
  obtain ⟨l, hl⟩ := writeFrame_passes s head fun s => writeWords s a 0 ws
  exact ⟨l, (if_neg hcount).trans ((if_neg (by simp)).trans ((congrArg (writeFrame s head · _) hzero).trans hl))⟩

theorem narrowFrame_passes {e : Nat} (he : lanesOk e = true) (hp : portRefusal s a true = 0) :
    ∃ l, narrowFrame s a e w true = reportWrite (narrowWrite (spAnswered s l) a w e).1 (narrowWrite (spAnswered s l) a w e).2
      (b2n ((narrowWrite (spAnswered s l) a w e).2 == 0)) := by
  unfold narrowFrame
  extract_lets head refusal
  have hzero : refusal = 0 := (if_neg (by simp [he])).trans hp
  obtain ⟨l, hl⟩ := writeFrame_passes s head fun s => ((narrowWrite s a w e).1, (narrowWrite s a w e).2, b2n ((narrowWrite s a w e).2 == 0))
  exact ⟨l, (if_neg (by simp)).trans ((congrArg (writeFrame s head · _) hzero).trans hl)⟩

theorem writeWords_one (s : State) (a w : Nat) : writeWords s a 0 [w] =
    if (writeWord s a w).2 = 0 then ((writeWord s a w).1, 0, 1) else ((writeWord s a w).1, (writeWord s a w).2, 0) := rfl

theorem writeWords_refused {ws : List Nat} (h : (writeWord s a w).2 ≠ 0) :
    writeWords s a n (w :: ws) = ((writeWord s a w).1, (writeWord s a w).2, n) := if_neg h

/-! ### SP_WSTAT (R671, R692) -/

theorem getN_reportWrite (s : State) (c n : Nat) :
    (reportWrite s c n).getN O.SP_WSTAT = c + n * 65536 + (s.sp.frames + 1) % 256 * 16777216 := State.getN_setN_same _ _ _

theorem get_reportWrite (s : State) (c n : Nat) {b : Addr} (hb : b ≠ O.SP_WSTAT) : (reportWrite s c n).get b = s.get b :=
  State.get_setN_ne _ _ hb

/-- What a report changes beside SP_WSTAT. -/
def reported (s : State) (c : Nat) : State :=
  { s with sp := { s.sp with frames := s.sp.frames + 1, pwerr := s.sp.pwerr || c != 0 } }

theorem reportWrite_eq (s : State) (c n : Nat) : ∃ v, reportWrite s c n = (reported s c).setN O.SP_WSTAT v := ⟨_, rfl⟩

theorem sp_reportWrite (s : State) (c n : Nat) : (reportWrite s c n).sp = (reported s c).sp := by
  obtain ⟨v, hv⟩ := reportWrite_eq s c n
  rw [hv, State.setN_sp]

theorem sp_reported (s : State) (c : Nat) :
    (reported s c).sp = { s.sp with frames := s.sp.frames + 1, pwerr := s.sp.pwerr || c != 0 } := rfl

/-- A frame whose words are all applied leaves PWERR. -/
theorem reported_done (s : State) : reported s 0 = { s with sp := { s.sp with frames := s.sp.frames + 1 } } := by
  have h : (s.sp.pwerr || (0 : Nat) != 0) = s.sp.pwerr := Bool.or_false _
  unfold reported
  rw [h]

theorem Silent.reportWrite {Q : State → State} {f : Addr → Prop} {s t : State} {c : Nat} (h : Silent Q f s (reported t c))
    (hf : f O.SP_WSTAT) (n : Nat) : Silent Q f s (reportWrite t c n) := by
  obtain ⟨v, hv⟩ := reportWrite_eq t c n
  rw [hv]
  exact h.setN hf v

theorem Frame.reportWrite {Q : State → State} {f : Addr → Prop} {s t : State} {c : Nat} (h : Frame Q f s (reported t c))
    (hf : f O.SP_WSTAT) (n : Nat) : Frame Q f s (reportWrite t c n) := by
  obtain ⟨v, hv⟩ := reportWrite_eq t c n
  rw [hv]
  exact h.setN hf v

end

/-! ### Stream memory (R677) -/

section
variable {s : State} {o : Nat}

theorem spAt_mem (h4 : o % 4 = 0) (ho : o < 0x80000) : spAt (0x20000000 + o) = .mem o := by
  unfold spAt
  rw [if_neg (by omega), if_neg (by omega), if_pos (by omega), Nat.add_sub_cancel_left]

theorem inWindow_mem (ho : o < 0x80000) : inWindowRegion (0x20000000 + o) = false := by
  have h1 : ¬ 0x20000000 + o < 0x2000000 := by omega
  have h2 : ¬ 0x40000000 ≤ 0x20000000 + o := by omega
  simp [inWindowRegion, h1, h2]

theorem portRefusal_mem (h4 : o % 4 = 0) (ho : o < 0x80000) (he : ringEn s 0 = true) (hb : ringBase s 0 ≤ o)
    (hz : o < ringBase s 0 + ringSize s 0) (narrow : Bool) : portRefusal s (0x20000000 + o) narrow = 0 := by
  unfold portRefusal
  rw [spAt_mem h4 ho]
  simp [he, hb, hz]

theorem toNat_memAddr (ho : o < 0x80000) : (BitVec.ofNat 32 (0x20000000 + o)).toNat = 0x20000000 + o := by
  rw [BitVec.toNat_ofNat]
  omega

/-- The state with bytes written to stream memory. -/
def memPut (s : State) (o : Nat) (bs : List Byte) : State := { s with sp := { s.sp with mem := putBytes s.sp.mem o bs } }

theorem writeWords_mem {ws : List Nat} {n : Nat} (h4 : o % 4 = 0) (ho : o + 4 * ws.length ≤ 0x80000) :
    writeWords s (0x20000000 + o) n ws = (memPut s o (ws.flatMap (leBytes 4)), 0, n + ws.length) := by
  induction ws generalizing s o n with
  | nil => rfl
  | cons w ws ih =>
    rw [List.length_cons] at ho
    have hword : writeWord s (0x20000000 + o) w = (memPut s o (leBytes 4 w), 0) := by
      unfold writeWord
      rw [spAt_mem h4 (by omega)]
      rfl
    have hrest := ih (s := memPut s o (leBytes 4 w)) (o := o + 4) (n := n + 1) (by omega) (by omega)
    have hbytes : memPut (memPut s o (leBytes 4 w)) (o + 4) (ws.flatMap (leBytes 4)) = memPut s o ((w :: ws).flatMap (leBytes 4)) := by
      rw [List.flatMap_cons]
      simp only [memPut, putBytes_append, length_leBytes]
    unfold writeWords
    rw [hword]
    refine (if_pos rfl).trans (hrest.trans ?_)
    rw [hbytes, List.length_cons, Nat.add_assoc, Nat.add_comm 1]

/-- What a write frame to stream memory may change of the units. -/
def memUnits (o s : State) : State :=
  { s with sp := { s.sp with mem := o.sp.mem, response := o.sp.response, frames := o.sp.frames } }

theorem Silent.still_mem {t : State} {f : Addr → Prop} (h : Silent (memUnits s) f s t) :
    Still s { t with sp := { t.sp with mem := s.sp.mem, response := s.sp.response, frames := s.sp.frames } } f := ⟨h.objects, h.units⟩

theorem memPut_reported (s : State) (l : List Byte) (o : Nat) (bs : List Byte) (n : Nat) :
    Silent (memUnits s) (· = O.SP_WSTAT) s (reportWrite (memPut (spAnswered s l) o bs) 0 n) := by
  have h : Silent (memUnits s) (· = O.SP_WSTAT) s (reported (memPut (spAnswered s l) o bs) 0) := by
    rw [reported_done]
    exact (Silent.refl _ s).step
  exact h.reportWrite rfl n

/-- A write frame stores its words in ring 0's area. -/
theorem spWrite_mem {ws : List (BitVec 32)} (hs : serves s = true) (h1 : 1 ≤ ws.length) (h64 : ws.length ≤ 64) (h4 : o % 4 = 0)
    (he : ringEn s 0 = true) (hb : ringBase s 0 ≤ o) (hz : o + 4 * ws.length ≤ ringBase s 0 + ringSize s 0)
    (ho : o + 4 * ws.length ≤ 0x80000) :
    ∃ t, exec (.spWrite (BitVec.ofNat 32 (0x20000000 + o)) ws true .whole) s = .next t ∧
      (∀ i (h : i < (ws.flatMap fun w => leBytes 4 w.toNat).length),
        byteAt t.sp.mem (o + i) = (ws.flatMap fun w => leBytes 4 w.toNat)[i]) ∧
      (∀ a, a < o ∨ o + 4 * ws.length ≤ a → byteAt t.sp.mem a = byteAt s.sp.mem a) ∧
      t.getN O.SP_WSTAT = ws.length * 65536 + (s.sp.frames + 1) % 256 * 16777216 ∧
      Still s { t with sp := { t.sp with mem := s.sp.mem, response := s.sp.response, frames := s.sp.frames } } (· = O.SP_WSTAT) := by
  have hlen : (ws.map BitVec.toNat).length = ws.length := List.length_map _
  have hbytes : (ws.map BitVec.toNat).flatMap (leBytes 4) = ws.flatMap fun w => leBytes 4 w.toNat := List.flatMap_map ..
  have hcount : countOk (0x20000000 + o) (ws.map BitVec.toNat).length := by
    rw [hlen]
    exact ⟨h1, h64, by simp [inWindow_mem (o := o) (by omega)]⟩
  obtain ⟨l, ht⟩ := wordsFrame_passes (s := s) hcount fun i hi => by
    rw [hlen] at hi
    rw [Nat.add_assoc]
    exact portRefusal_mem (by omega) (by omega) he (by omega) (by omega) _
  rw [writeWords_mem h4 (by omega), hbytes, hlen, Nat.zero_add] at ht
  refine ⟨reportWrite (memPut (spAnswered s l) o (ws.flatMap fun w => leBytes 4 w.toNat)) 0 ws.length,
    (exec_spWrite hs _ _ _).trans (congrArg Host.Outcome.next ?_), ?_, ?_, ?_, ?_⟩
  · rw [toNat_memAddr (by omega), ht]
  · intro i hi
    rw [sp_reportWrite]
    exact byteAt_putBytes_inside _ _ _ hi
  · intro a ha
    rw [sp_reportWrite]
    refine byteAt_putBytes_outside _ ?_
    rwa [← hbytes, length_words, hlen]
  · rw [getN_reportWrite, Nat.zero_add]
    rfl
  · exact (memPut_reported s l o _ ws.length).still_mem

/-! ### Narrow writes (R669) -/

/-- The four bytes of a word whose enabled lanes come from `w`. -/
def laneBytes (m : List (Nat × Byte)) (o e w : Nat) : List Byte :=
  (List.range 4).map fun i => if bit e i then BitVec.ofNat 8 (w / 256 ^ i) else byteAt m (o + i)

/-- One lane of a word in its place, where it is enabled. -/
def lane (e w i : Nat) : Nat := if bit e i then bits w (8 * i) 8 * 2 ^ (8 * i) else 0

theorem lanesOf_eq (e w : Nat) : lanesOf e w = lane e w 0 + lane e w 1 + lane e w 2 + lane e w 3 := by
  have h : lanesOf e w = lane e w 0 + (lane e w 1 + (lane e w 2 + (lane e w 3 + 0))) := rfl
  rw [h]
  omega

theorem bits_getBytes (m : List (Nat × Byte)) (o : Nat) {i : Nat} (hi : i < 4) :
    bits (ofLe (getBytes m o 4)) (8 * i) 8 = (byteAt m (o + i)).toNat := by
  have h : ofLe (getBytes m o 4) = (byteAt m o).toNat + 256 * ((byteAt m (o + 1)).toNat + 256 * ((byteAt m (o + 2)).toNat +
      256 * ((byteAt m (o + 3)).toNat + 256 * 0))) := rfl
  have h0 := (byteAt m o).isLt
  have h1 := (byteAt m (o + 1)).isLt
  have h2 := (byteAt m (o + 2)).isLt
  have h3 := (byteAt m (o + 3)).isLt
  rw [h]
  unfold bits
  interval_cases i
  all_goals
    norm_num only [Nat.div_one, Nat.add_zero]
    omega

theorem lane_merged (m : List (Nat × Byte)) (o w : Nat) {e i : Nat} (he : lanesOk e = true) (hi : i < 4) :
    lane e w i + lane (15 - e) (ofLe (getBytes m o 4)) i =
      (if bit e i then BitVec.ofNat 8 (w / 256 ^ i) else byteAt m (o + i)).toNat * 2 ^ (8 * i) := by
  have hrest : bit (15 - e) i = !bit e i := by
    have hall : ∀ e ∈ [1, 2, 4, 8, 3, 12], ∀ i < 4, bit (15 - e) i = !bit e i := by decide
    exact hall e (by simpa [lanesOk] using he) i hi
  unfold lane
  rw [hrest, bits_getBytes m o hi]
  cases bit e i
  · simp
  · simp [bits, pow_mul]

theorem lanes_merged (m : List (Nat × Byte)) (o w : Nat) {e : Nat} (he : lanesOk e = true) :
    lanesOf e w + lanesOf (15 - e) (ofLe (getBytes m o 4)) = ofLe (laneBytes m o e w) := by
  have h0 := lane_merged m o w he (i := 0) (by decide)
  have h1 := lane_merged m o w he (i := 1) (by decide)
  have h2 := lane_merged m o w he (i := 2) (by decide)
  have h3 := lane_merged m o w he (i := 3) (by decide)
  have h : ofLe (laneBytes m o e w) =
      (if bit e 0 then BitVec.ofNat 8 (w / 256 ^ 0) else byteAt m (o + 0)).toNat +
      256 * ((if bit e 1 then BitVec.ofNat 8 (w / 256 ^ 1) else byteAt m (o + 1)).toNat +
      256 * ((if bit e 2 then BitVec.ofNat 8 (w / 256 ^ 2) else byteAt m (o + 2)).toNat +
      256 * ((if bit e 3 then BitVec.ofNat 8 (w / 256 ^ 3) else byteAt m (o + 3)).toNat + 256 * 0))) := rfl
  rw [lanesOf_eq, lanesOf_eq, h]
  omega

theorem narrowWrite_mem (h4 : o % 4 = 0) (ho : o < 0x80000) {e : Nat} (he : lanesOk e = true) (w : Nat) :
    narrowWrite s (0x20000000 + o) w e = (memPut s o (laneBytes s.sp.mem o e w), 0) := by
  have hword : leBytes 4 (lanesOf e w + lanesOf (15 - e) (ofLe (getBytes s.sp.mem o 4))) = laneBytes s.sp.mem o e w := by
    rw [lanes_merged _ _ _ he]
    exact leBytes_ofLe (laneBytes s.sp.mem o e w)
  unfold narrowWrite
  rw [spAt_mem h4 ho]
  dsimp only
  unfold writeWord
  rw [spAt_mem h4 ho, hword]
  rfl

/-- WRITE_NARROW stores the enabled lanes alone. -/
theorem spWriteNarrow_mem {e : BitVec 16} {w : BitVec 32} (hs : serves s = true) (hl : lanesOk e.toNat = true) (h4 : o % 4 = 0)
    (he : ringEn s 0 = true) (hb : ringBase s 0 ≤ o) (hz : o + 4 ≤ ringBase s 0 + ringSize s 0) (ho : o + 4 ≤ 0x80000) :
    ∃ t, exec (.spWriteNarrow (BitVec.ofNat 32 (0x20000000 + o)) e w true .whole) s = .next t ∧
      (∀ i, i < 4 → byteAt t.sp.mem (o + i) = if bit e.toNat i then BitVec.ofNat 8 (w.toNat / 256 ^ i) else byteAt s.sp.mem (o + i)) ∧
      (∀ a, a < o ∨ o + 4 ≤ a → byteAt t.sp.mem a = byteAt s.sp.mem a) ∧
      Still s { t with sp := { t.sp with mem := s.sp.mem, response := s.sp.response, frames := s.sp.frames } } (· = O.SP_WSTAT) := by
  obtain ⟨l, ht⟩ := narrowFrame_passes (s := s) (w := w.toNat) hl (portRefusal_mem h4 (by omega) he hb (by omega) true)
  rw [narrowWrite_mem h4 (by omega) hl] at ht
  refine ⟨reportWrite (memPut (spAnswered s l) o (laneBytes s.sp.mem o e.toNat w.toNat)) 0 1,
    (exec_spWriteNarrow hs _ _ _ _).trans (congrArg Host.Outcome.next ?_), fun i hi => ?_, fun a ha => ?_, ?_⟩
  · rw [toNat_memAddr (by omega), ht]
    rfl
  · have h : byteAt (putBytes s.sp.mem o (laneBytes s.sp.mem o e.toNat w.toNat)) (o + i) =
        (laneBytes s.sp.mem o e.toNat w.toNat)[i]'hi := byteAt_putBytes_inside _ _ _ hi
    rw [sp_reportWrite]
    exact h.trans (by simp [laneBytes])
  · rw [sp_reportWrite]
    exact byteAt_putBytes_outside _ ha
  · exact (memPut_reported s l o _ 1).still_mem

end

/-! ### The window (R667, R670 to R672) -/

section
variable {s t : State} {addr w : BitVec 32} {a : Addr} {r : Row} {data : List Byte} {l : List Byte} {lanes : Nat}

theorem countOk_one (a : Nat) : countOk a 1 := ⟨by decide, by decide, fun h => absurd h.2 (by decide)⟩

/-- The port passes a word of an object that has one there (R668). -/
theorem portRefusal_win {n : Nat} {high : Bool} (hat : spAt n = .win a high) (hr : resolve a = .obj a r) (hb : r.ty.bytes ≠ 0)
    (hh : high = true → r.ty = .u64) : portRefusal s n false = 0 := by
  have hw : winAbort a high = 0 := by
    unfold winAbort
    rw [hr]
    dsimp only
    rw [if_neg hb, if_neg]
    rintro h
    simp only [Bool.and_eq_true, bne_iff_ne] at h
    exact h.2 (hh h.1)
  unfold portRefusal
  rw [hat]
  simp [hw, hr]

/-- A WRITE frame of one word that the port passes. -/
theorem spWrite_one (hs : serves s = true) (hp : portRefusal s addr.toNat false = 0) :
    ∃ l, exec (.spWrite addr [w] true .whole) s = .next (reportWrite (writeWords (spAnswered s l) addr.toNat 0 [w.toNat]).1
      (writeWords (spAnswered s l) addr.toNat 0 [w.toNat]).2.1 (writeWords (spAnswered s l) addr.toNat 0 [w.toNat]).2.2) := by
  obtain ⟨l, ht⟩ := wordsFrame_passes (s := s) (ws := [w.toNat]) (countOk_one addr.toNat) fun i hi => by
    obtain rfl : i = 0 := Nat.lt_one_iff.mp hi
    exact hp
  exact ⟨l, (exec_spWrite hs _ _ _).trans (congrArg Host.Outcome.next ht)⟩

theorem writeWord_win {n v : Nat} {high : Bool} (hat : spAt n = .win a high) : writeWord s n v = winWrite s a high v 15 := by
  unfold writeWord
  rw [hat]

/-- What the words of a write frame to the window may change of the units where no transaction does. -/
def spUnits (o s : State) : State :=
  { s with sp := { s.sp with high := o.sp.high, response := o.sp.response, frames := o.sp.frames } }

theorem Silent.still_sp {f : Addr → Prop} (h : Silent (spUnits s) f s t) :
    Still s { t with sp := { t.sp with high := s.sp.high, response := s.sp.response, frames := s.sp.frames } } f := ⟨h.objects, h.units⟩

/-- The state that holds the high word of an object. -/
def holdHigh (s : State) (a : Addr) (v : Nat) : State := { s with sp := { s.sp with high := insertAt s.sp.high a v } }

/-- A high word waits for its low word. -/
theorem spWrite_high (hs : serves s = true) (hat : spAt addr.toNat = .win a true) (hr : resolve a = .obj a r) (ht : r.ty = .u64) :
    ∃ t, exec (.spWrite addr [w] true .whole) s = .next t ∧ lookupAt t.sp.high a = some w.toNat ∧
      Still s { t with sp := { t.sp with high := s.sp.high, response := s.sp.response, frames := s.sp.frames } } (· = O.SP_WSTAT) := by
  obtain ⟨l, hx⟩ := spWrite_one (w := w) hs (portRefusal_win hat hr (by rw [ht]; decide) fun _ => ht)
  have hwin : writeWord (spAnswered s l) addr.toNat w.toNat = (holdHigh (spAnswered s l) a w.toNat, 0) := by
    rw [writeWord_win hat]
    unfold winWrite
    rw [hr]
    rfl
  have hone : writeWords (spAnswered s l) addr.toNat 0 [w.toNat] = (holdHigh (spAnswered s l) a w.toNat, 0, 1) := by
    rw [writeWords_one, hwin]
    exact if_pos rfl
  rw [hone] at hx
  have hheld : Silent (spUnits s) (· = O.SP_WSTAT) s (reported (holdHigh (spAnswered s l) a w.toNat) 0) := by
    rw [reported_done]
    exact (Silent.refl _ s).step
  refine ⟨_, hx, ?_, (hheld.reportWrite rfl 1).still_sp⟩
  rw [sp_reportWrite]
  exact lookupAt_insertAt_same _ _ _

/-- The state without the held high word of an object. -/
def dropHigh (s : State) (a : Addr) : State := { s with sp := { s.sp with high := eraseAt s.sp.high a } }

/-- The bytes that a low word gives its object (R667, R672). -/
def lowData (s : State) (a : Addr) (t : Ty) (w : Nat) : List Byte :=
  if t = .u64 then leBytes 4 w ++ leBytes 4 (heldHigh s a) else leBytes t.bytes w

theorem winWrite_low {v : Nat} (hr : resolve a = .obj a r) (hok : upperOk r.ty v = true) : ∃ x : With, winWrite s a false v lanes =
    ((writeWhole (dropHigh s a) .stream a (lowData s a r.ty v) x).1, (writeWhole (dropHigh s a) .stream a (lowData s a r.ty v) x).2.abort) := by
  refine ⟨{ pagesOk := logPagesOk (dropHigh s a), enables := lanes }, ?_⟩
  unfold winWrite
  rw [hr]
  exact (if_neg (by decide)).trans (if_pos (.inl hok))

/-- An admitted write is of an object of some bytes. -/
theorem bytes_ne_zero (h : Admitted s .stream a data) (hr : resolve a = .obj a r) : r.ty.bytes ≠ 0 := by
  obtain ⟨-, -, r', hr', -, hw, -⟩ := h
  obtain rfl : r = r' := by simpa [hr] using hr'
  have hro : r.acc ≠ .ro := fun h => by simp [writeCheck, h] at hw
  have hst : stagedTy r.ty = false := by
    by_contra hst
    simp only [Bool.not_eq_false] at hst
    unfold writeCheck at hw
    simp only [hst, Bool.true_or, if_true] at hw
    split_ifs at hw
  have hstr : r.ty ≠ .str := fun ht => hro (str_readOnly hr ht)
  revert hst hstr
  cases r.ty <;> decide

/-- A low word applies one transaction to its object; SP_WSTAT reports it. -/
theorem spWrite_low (hat : spAt addr.toNat = .win a false) (hr : resolve a = .obj a r) (hok : upperOk r.ty w.toNat = true)
    (h : Admitted s .stream a (lowData s a r.ty w.toNat))
    (hchip : ownChip s .stream a (ofBytes r.ty (lowData s a r.ty w.toNat)).toNat {} = none)
    (hunit : ownUnit s .stream a (ofBytes r.ty (lowData s a r.ty w.toNat)).toNat = none) :
    ∃ l t, exec (.spWrite addr [w] true .whole) s = .next (reportWrite t 0 1) ∧
      Written (plainPut (dropHigh (spAnswered s l) a) a (ofBytes r.ty (lowData s a r.ty w.toNat))) t (fun _ => False) := by
  have hs : serves s = true := h.1
  obtain ⟨l, hx⟩ := spWrite_one (w := w) hs (portRefusal_win hat hr (bytes_ne_zero h hr) fun h => absurd h (by decide))
  have hadm : Admitted (dropHigh (spAnswered s l) a) .stream a (lowData s a r.ty w.toNat) := h
  obtain ⟨x, hwin⟩ := winWrite_low (s := spAnswered s l) (lanes := 15) hr hok
  have hdata : lowData (spAnswered s l) a r.ty w.toNat = lowData s a r.ty w.toNat := rfl
  obtain ⟨habort, hw⟩ := plainWrite_done hadm hr (ownChip_none hchip _ _) (ownUnit_none hunit _) x
  rw [hdata, habort] at hwin
  have hone : writeWords (spAnswered s l) addr.toNat 0 [w.toNat] =
      ((writeWhole (dropHigh (spAnswered s l) a) .stream a (lowData s a r.ty w.toNat) x).1, 0, 1) := by
    rw [writeWords_one, writeWord_win hat, hwin]
    rfl
  rw [hone] at hx
  exact ⟨l, _, hx, hw⟩

/-- What a word of the window may change of the units. -/
def windowUnits (o s : State) : State := plainUnits o (spUnits o s)

theorem Frame.written_window {f : Addr → Prop} (h : Frame (windowUnits s) (writeObj f) s t) :
    Written s { t with loops := s.loops, cells := s.cells, aml := s.aml, tree := s.tree, seen := s.seen,
                       tw := { t.tw with clash := s.tw.clash }, twin := { t.twin with abdDue := s.twin.abdDue },
                       sp := { t.sp with high := s.sp.high, response := s.sp.response, frames := s.sp.frames } } f :=
  ⟨h.objects, h.units, h.outside⟩

/-- The objects that a word of the window may change. -/
def windowObj (a b : Addr) : Prop := b = a ∨ b = O.SP_WSTAT ∨ plainSide b

theorem windowWrite_frame {v : Int} (ha : Settable a) (hw : Written (plainPut (dropHigh (spAnswered s l) a) a v) t (fun _ => False)) :
    Frame (windowUnits s) (writeObj (windowObj a)) s (reportWrite t 0 1) := by
  have hcfg : ∀ r : RingId, ¬ writeObj (windowObj a) (O.RING_CFG r) := writeObj_ring_cfg fun r h => by
    rcases h with h | h | h
    · exact ha.ring r h.symm
    · revert h r; decide
    · exact plainSide_ring_cfg r h
  have hdrop : Frame (windowUnits s) (writeObj (windowObj a)) s (dropHigh (spAnswered s l) a) := (Frame.refl _ _ s).step
  have hput : Frame (windowUnits s) (writeObj (windowObj a)) (dropHigh (spAnswered s l) a) (plainPut (dropHigh (spAnswered s l) a) a v) :=
    ((plainPut_frame s _ a v ha.ring).mono fun b hb => .inr (.inr (hb.imp_right .inr))).hide (windowUnits s)
  have hwrite : Frame (windowUnits s) (writeObj (windowObj a)) (plainPut (dropHigh (spAnswered s l) a) a v) t :=
    (Frame.of_written s (hw.mono fun _ => False.elim)).hide (windowUnits s)
  have hdone : Frame (windowUnits s) (writeObj (windowObj a)) s t := (hdrop.trans hcfg hput).trans hcfg hwrite
  refine Frame.reportWrite ?_ (.inr (.inr (.inr (.inl rfl)))) 1
  rw [reported_done]
  exact hdone.step

theorem windowWrite_get {v : Int} (ha : Settable a) (hw : Written (plainPut (dropHigh (spAnswered s l) a) a v) t (fun _ => False)) :
    (reportWrite t 0 1).get a = v := by
  rw [get_reportWrite _ _ _ ha.report, hw.get ha.free id, get_plainPut _ _ ha]

/-- After a low word no high word is held. -/
theorem windowWrite_high {v : Int} (ha : Settable a) (hw : Written (plainPut (dropHigh (spAnswered s l) a) a v) t (fun _ => False)) :
    heldHigh (reportWrite t 0 1) a = 0 := by
  have hwrite : t.sp.high = (plainPut (dropHigh (spAnswered s l) a) a v).sp.high :=
    (Frame.of_written s hw).field (fun u => u.sp.high)
  have hput : (plainPut (dropHigh (spAnswered s l) a) a v).sp.high = eraseAt s.sp.high a :=
    (plainPut_frame s _ a v ha.ring).field (fun u => u.sp.high)
  have hhigh : (reportWrite t 0 1).sp.high = eraseAt s.sp.high a := by
    rw [sp_reportWrite, sp_reported]
    exact hwrite.trans hput
  unfold heldHigh
  rw [hhigh, lookupAt_eraseAt_same]
  rfl

theorem windowWrite_stat {v : Int} (ha : Settable a) (hw : Written (plainPut (dropHigh (spAnswered s l) a) a v) t (fun _ => False)) :
    (reportWrite t 0 1).getN O.SP_WSTAT = 65536 + (s.sp.frames + 1) % 256 * 16777216 := by
  have hwrite : t.sp.frames = (plainPut (dropHigh (spAnswered s l) a) a v).sp.frames :=
    (Frame.of_written s hw).field (fun u => u.sp.frames)
  have hput : (plainPut (dropHigh (spAnswered s l) a) a v).sp.frames = s.sp.frames :=
    (plainPut_frame s _ a v ha.ring).field (fun u => u.sp.frames)
  rw [getN_reportWrite, hwrite, hput, Nat.zero_add, Nat.one_mul]

/-! ### A word that the dictionary refuses (R670, R671) -/

theorem writeWhole_refused {q : Requester} {x : With} (hr : resolve a = .obj a r) (hc : writeCheck s q a r data ≠ 0)
    (hl : writeCheck s q a r data ≠ 0xA013) :
    writeWhole s q a data x = (noteAns s q a (writeCheck s q a r data), ⟨writeCheck s q a r data, []⟩) := by
  unfold writeWhole
  rw [hr]
  exact (if_neg hl).trans (if_pos hc)

/-- The same with what a refused transaction changes. -/
def refusedUnits (o s : State) : State :=
  { s with req := o.req, sp := { s.sp with high := o.sp.high, response := o.sp.response, frames := o.sp.frames, pwerr := o.sp.pwerr } }

theorem Silent.still_refused {f : Addr → Prop} (h : Silent (refusedUnits s) f s t) : Still s { t with
    req := s.req, sp := { t.sp with high := s.sp.high, response := s.sp.response, frames := s.sp.frames, pwerr := s.sp.pwerr } } f :=
  ⟨h.objects, h.units⟩

/-- The first word that the dictionary refuses ends the frame and sets PWERR. -/
theorem spWrite_refused {ws : List (BitVec 32)} (hs : serves s = true) (hn : ws.length < 16)
    (hp : ∀ i, i ≤ ws.length → portRefusal s (addr.toNat + 4 * i) false = 0) (hat : spAt addr.toNat = .win a false)
    (hr : resolve a = .obj a r) (ht : r.ty ≠ .u64) (hok : upperOk r.ty w.toNat = true)
    (hc : writeCheck s .stream a r (leBytes r.ty.bytes w.toNat) ≠ 0) (hl : writeCheck s .stream a r (leBytes r.ty.bytes w.toNat) ≠ 0xA013) :
    ∃ t, exec (.spWrite addr (w :: ws) true .whole) s = .next t ∧ t.sp.pwerr = true ∧
      t.getN O.SP_WSTAT = writeCheck s .stream a r (leBytes r.ty.bytes w.toNat) + (s.sp.frames + 1) % 256 * 16777216 ∧
      Still s { t with req := s.req, sp := { t.sp with high := s.sp.high, response := s.sp.response, frames := s.sp.frames, pwerr := s.sp.pwerr } }
        (· = O.SP_WSTAT) := by
  have hlen : ((w :: ws).map BitVec.toNat).length = ws.length + 1 := by simp
  obtain ⟨l, hx⟩ := wordsFrame_passes (s := s) (a := addr.toNat) (ws := (w :: ws).map BitVec.toNat)
    (by rw [hlen]; exact ⟨by omega, by omega, fun h => by omega⟩) fun i hi => hp i (by omega)
  obtain ⟨x, hwin⟩ := winWrite_low (s := spAnswered s l) (lanes := 15) hr hok
  have hdata : lowData (spAnswered s l) a r.ty w.toNat = leBytes r.ty.bytes w.toNat := if_neg ht
  have hcheck : writeCheck (dropHigh (spAnswered s l) a) .stream a r (leBytes r.ty.bytes w.toNat) =
      writeCheck s .stream a r (leBytes r.ty.bytes w.toNat) := rfl
  set c := writeCheck s .stream a r (leBytes r.ty.bytes w.toNat) with hcdef
  have hrefused := writeWhole_refused (s := dropHigh (spAnswered s l) a) (q := .stream) (x := x) (data := leBytes r.ty.bytes w.toNat) hr
    (hcheck ▸ hc) (hcheck ▸ hl)
  rw [hdata, hrefused, hcheck] at hwin
  have hword := (writeWord_win (s := spAnswered s l) (v := w.toNat) hat).trans hwin
  have hwords : writeWords (spAnswered s l) addr.toNat 0 ((w :: ws).map BitVec.toNat) =
      (noteAns (dropHigh (spAnswered s l) a) .stream a c, c, 0) := by
    rw [List.map_cons, writeWords_refused (by rw [hword]; exact hc), hword]
  rw [hwords] at hx
  refine ⟨_, (exec_spWrite hs _ _ _).trans (congrArg Host.Outcome.next hx), ?_, ?_, ?_⟩
  · rw [sp_reportWrite, sp_reported]
    simp [hc]
  · have hframes : (noteAns (dropHigh (spAnswered s l) a) .stream a c).sp.frames = s.sp.frames := rfl
    rw [getN_reportWrite, hframes, Nat.zero_mul, Nat.add_zero]
  · have h : Silent (refusedUnits s) (· = O.SP_WSTAT) s (reported (noteAns (dropHigh (spAnswered s l) a) .stream a c) c) :=
      (Silent.refl _ s).step
    exact (h.reportWrite rfl 0).still_refused

end

/-! ### A CRC mismatch (R662) -/

section
variable {s : State}

/-- What a CRC mismatch may change of the units. -/
def crcUnits (o s : State) : State :=
  { s with free := o.free, sp := { s.sp with response := o.sp.response, crcAt := o.sp.crcAt, crcN := o.sp.crcN } }

theorem Frame.keeps_crc {t : State} {f : Addr → Prop} (h : Frame (crcUnits s) f s t) :
    Keeps s { t with free := s.free, sp := { t.sp with response := s.sp.response, crcAt := s.sp.crcAt, crcN := s.sp.crcN } } f :=
  ⟨h.objects, h.units, h.outside⟩

/-- The state whose interval of CRC records begins. -/
def crcFirst (s : State) : State := { s with sp := { s.sp with crcAt := some s.uptime, crcN := 0 } }

/-- The mismatch in the event log: one record per 10 ms, with the count of the mismatches it stands for. -/
def crcLogged (s : State) : State :=
  if quietFor s.sp.crcAt s.uptime 10000 then record (crcFirst s) 0x0921 .chip (leBytes 4 (s.sp.crcN + 1))
  else { s with sp := { s.sp with crcN := s.sp.crcN + 1 } }

theorem crcError_eq (s : State) (head : List Byte) : crcError s head =
    trailer (crcLogged (s.bump O.SP_ERR_CNT)).draw.2 (head ++ leBytes 2 (crcLogged (s.bump O.SP_ERR_CNT)).draw.1) [] false true false 0 :=
  rfl

/-- The mismatch in the event log changes no object of its own, and nothing else than the interval. -/
theorem crcLogged_frame (o s : State) : Frame (crcUnits o) (fun _ => False) s (crcLogged s) := by
  have hfirst : Frame (crcUnits o) (fun _ => False) s (crcFirst s) := (Frame.refl _ _ s).step
  unfold crcLogged
  split
  · exact hfirst.trans (fun _ => id) (.of_record (record_only _ _ _ _))
  · exact (Frame.refl _ _ s).step

theorem getN_crcLogged (s : State) : (crcLogged s).getN O.SP_ERR_CNT = s.getN O.SP_ERR_CNT := by
  unfold crcLogged
  split
  · exact congrArg Int.toNat ((record_only (crcFirst s) _ _ _).get O.SP_ERR_CNT rfl)
  · rfl

/-- A CRC mismatch counts, and its frame does nothing else. -/
theorem crcError_counts (s : State) (head : List Byte) :
    (crcError s head).getN O.SP_ERR_CNT = (s.getN O.SP_ERR_CNT + 1) % 2 ^ 32 ∧
      Frame (crcUnits s) (· = O.SP_ERR_CNT) s (crcError s head) := by
  have hcfg : ∀ r : RingId, ¬ O.RING_CFG r = O.SP_ERR_CNT := by decide
  have hrefl : Frame (crcUnits s) (· = O.SP_ERR_CNT) s s := .refl _ _ s
  have hbump : Frame (crcUnits s) (· = O.SP_ERR_CNT) s (s.bump O.SP_ERR_CNT) := hrefl.setN rfl _
  have hlog := hbump.trans hcfg ((crcLogged_frame s (s.bump O.SP_ERR_CNT)).mono fun _ => False.elim)
  have hcount : (crcLogged (s.bump O.SP_ERR_CNT)).getN O.SP_ERR_CNT = (s.getN O.SP_ERR_CNT + 1) % 2 ^ 32 := by
    rw [getN_crcLogged, State.getN_bump_same]
    rfl
  rw [crcError_eq]
  exact ⟨hcount, hlog.step⟩

theorem wordsFrame_crc {a : Nat} {ws : List Nat} (hn : countOk a ws.length) :
    ∃ head, wordsFrame s a ws false = crcError s head := by
  obtain ⟨h1, h64, hwin⟩ := hn
  refine ⟨_, (if_neg ?_).trans (if_pos rfl)⟩
  rintro (h | h | h)
  · omega
  · omega
  · exact hwin h

/-- A frame whose CRC does not hold. -/
theorem crc_frame {addr w : BitVec 32} {ws : List (BitVec 32)} {e : BitVec 16} {c : Instr} (hs : serves s = true)
    (hc : c = .spWriteNarrow addr e w false .whole ∨ (c = .spWrite addr ws false .whole ∧ countOk addr.toNat ws.length)) :
    ∃ head, exec c s = .next (crcError s head) := by
  rcases hc with rfl | ⟨rfl, hn⟩
  · exact ⟨_, exec_spWriteNarrow hs _ _ _ _⟩
  · obtain ⟨head, h⟩ := wordsFrame_crc (s := s) (ws := ws.map BitVec.toNat) ((List.length_map BitVec.toNat).symm ▸ hn)
    exact ⟨head, (exec_spWrite hs _ _ _).trans (congrArg Host.Outcome.next h)⟩

end

/-- Settles O51: a frame that the port passes is its trailer, then its words, then SP_WSTAT. A word of stream memory is stored; a low word
of the window is one plain write, whose frame the dictionary gives; a CRC mismatch takes the frame's place. -/
theorem streamPortWrites : Obligations.StreamPortWrites := by
  unfold Obligations.StreamPortWrites
  refine ⟨?_, ?_, ?_, ?_, ?_, ?_, ?_, ?_⟩
  · intro s o ws hs h1 h64 h4 he hb hz ho
    exact spWrite_mem hs h1 h64 h4 he hb hz ho
  · intro s addr w a r hat hr ht hok h hchip hunit
    have hdata : lowData s a r.ty w.toNat = leBytes r.ty.bytes w.toNat := if_neg ht
    rw [← hdata] at h hchip hunit ⊢
    have ha := settable_of_admitted h hr hunit
    obtain ⟨l, t, hx, hw⟩ := spWrite_low hat hr hok h hchip hunit
    exact ⟨_, hx, windowWrite_get ha hw, windowWrite_stat ha hw, (windowWrite_frame ha hw).written_window⟩
  · intro s addr w a r hs hat hr ht
    exact spWrite_high hs hat hr ht
  · intro s addr w a r hat hr ht h hchip hunit
    have hdata : lowData s a r.ty w.toNat = leBytes 4 w.toNat ++ leBytes 4 (heldHigh s a) := if_pos ht
    have hok : upperOk r.ty w.toNat = true := by rw [ht]; rfl
    rw [← hdata] at h hchip hunit ⊢
    have ha := settable_of_admitted h hr hunit
    obtain ⟨l, t, hx, hw⟩ := spWrite_low hat hr hok h hchip hunit
    exact ⟨_, hx, windowWrite_get ha hw, windowWrite_high ha hw⟩
  · intro s hmain
    exact ⟨_, if_pos hmain, rfl⟩
  · intro s addr w ws a r hs hn hp hat hr ht hok hc hl
    exact spWrite_refused hs hn hp hat hr ht hok hc hl
  · intro s addr ws e w c hs hc
    obtain ⟨head, hx⟩ := crc_frame hs hc
    obtain ⟨hcount, hframe⟩ := crcError_counts s head
    exact ⟨_, hx, hcount, hframe.keeps_crc⟩
  · intro s o e w hs hl h4 he hb hz ho
    exact spWriteNarrow_mem hs hl h4 he hb hz ho

end Sys2Proof.Machine
end

section
/-! What recording does to the log: it only grows, by the new record where that fits, and it stands while the recorder is at fault
(R724, R725, R728). -/

namespace Sys2Proof.Machine

/-! ### Operations that leave the log -/

/-- The log and LOG_STAT are as before. -/
structure LogKept (s t : State) : Prop where
  log : t.plate.log = s.plate.log
  stat : t.get O.LOG_STAT = s.get O.LOG_STAT

theorem touchFor_log (p : Plate) (a : Addr) : (touchFor p a).log = p.log := by
  rcases touchFor_cases p a with h | ⟨n, h⟩ <;> rw [h]
  rfl

theorem ringReg_ne_logStat (r : RingId) :
    O.RING_PI r ≠ O.LOG_STAT ∧ O.RING_CI r ≠ O.LOG_STAT ∧ O.RING_LOST r ≠ O.LOG_STAT := by
  revert r
  decide

namespace LogKept

variable {s t u : State}

theorem refl (s : State) : LogKept s s := ⟨rfl, rfl⟩

theorem trans (h : LogKept s t) (k : LogKept t u) : LogKept s u := ⟨k.log.trans h.log, k.stat.trans h.stat⟩

theorem set (h : LogKept s t) {a : Addr} (v : Int) (ha : a ≠ O.LOG_STAT := by decide) : LogKept s (t.set a v) :=
  ⟨(touchFor_log _ _).trans h.log, (State.get_set_ne t v ha.symm).trans h.stat⟩

theorem setN (h : LogKept s t) {a : Addr} (v : Nat) (ha : a ≠ O.LOG_STAT := by decide) : LogKept s (t.setN a v) := h.set v ha

theorem bump (h : LogKept s t) {a : Addr} (ha : a ≠ O.LOG_STAT := by decide) : LogKept s (t.bump a) := h.setN _ ha

/-- A step that touches neither the log nor an object. -/
theorem step (h : LogKept s t) (hl : u.plate.log = t.plate.log := by rfl) (hd : u.dict = t.dict := by rfl) : LogKept s u :=
  ⟨hl.trans h.log, (congrArg (dval · O.LOG_STAT) hd).trans h.stat⟩

theorem modRing (h : LogKept s t) (r : RingId) (f : Ring → Ring) : LogKept s (t.modRing r f) := h.step

theorem mem (h : LogKept s t) (m : List (Nat × Byte)) : LogKept s { t with sp := { t.sp with mem := m } } := h.step

theorem ringPut (h : LogKept s t) (r : RingId) (bs : List Byte) (g : Option Nat) : LogKept s (Machine.ringPut t r bs g) := by
  unfold Machine.ringPut
  exact ((h.mem _).setN _ (ringReg_ne_logStat r).1).modRing r _

theorem ringGap (h : LogKept s t) (r : RingId) : LogKept s (Machine.ringGap t r) := by
  unfold Machine.ringGap
  exact (h.ringPut r _ _).modRing r _

theorem ringWrite (h : LogKept s t) (r : RingId) (i : RingItem) : LogKept s (Machine.ringWrite t r i) := by
  unfold Machine.ringWrite
  extract_lets u v
  have hu : LogKept s u := by
    unfold u
    split
    · exact h.ringGap r
    · exact h
  exact (hu.ringPut r _ _).modRing r _

theorem ringLost (h : LogKept s t) (r : RingId) (f : Ring → Ring) : LogKept s ((t.bump (O.RING_LOST r)).modRing r f) :=
  (h.bump (ringReg_ne_logStat r).2.2).modRing r f

theorem ringDrop (h : LogKept s t) (r : RingId) (n : Nat) : LogKept s (Machine.ringDrop t r n) := by
  unfold Machine.ringDrop
  dsimp only
  split
  · exact h
  · exact (((h.mem _).setN _ (ringReg_ne_logStat r).2.1).setN _ (ringReg_ne_logStat r).2.2).modRing r _

theorem dropNoted (h : LogKept s t) (r : RingId) : LogKept s (Machine.dropNoted t r).1 := by
  unfold Machine.dropNoted
  simp only [apply_ite Prod.fst]
  split
  · exact h.modRing r _
  · exact h

theorem produce (h : LogKept s t) (r : RingId) (i : RingItem) : LogKept s (Machine.produce t r i).1 := by
  unfold Machine.produce
  simp only [apply_ite Prod.fst]
  split
  · exact h
  split
  · split
    · exact h.modRing r _
    split
    · exact h.ringLost r _
    · exact h.modRing r _
  split
  · split
    · exact h.ringLost r _
    split
    · exact h.ringWrite r i
    · exact h.ringLost r _
  split
  · split
    · exact h.ringWrite r i
    split
    · exact h.modRing r _
    · exact h.ringLost r _
  split
  · exact h.ringWrite r i
  split
  · exact h.ringWrite r i
  · exact ((h.ringDrop r _).ringWrite r i).dropNoted r

theorem mirrorRecord (h : LogKept s t) (r : Record) : LogKept s (Machine.mirrorRecord t r).1 := by
  unfold Machine.mirrorRecord
  split
  · exact h.produce 2 _
  · exact h

theorem canDrain (h : LogKept s t) : LogKept s (Machine.canDrain t) := by
  unfold Machine.canDrain
  split
  · exact h.step
  · exact h

theorem canPush (h : LogKept s t) (r : Record) : LogKept s (Machine.canPush t r) := by
  unfold Machine.canPush
  split
  · split
    · exact canDrain h.step
    · exact step (h.bump (a := O.PUSH_DROP_CNT))
  · exact h

theorem twAlert (h : LogKept s t) (r : Record) : LogKept s (Machine.twAlert t r).1 := by
  unfold Machine.twAlert
  split
  · split
    · exact h.step
    · exact h.bump
  · exact h

end LogKept

/-! ### The plate copy of a record (R725, R728) -/

/-- Nothing is written to the log: the recorder is at fault, or LOST as well (R728, R729). -/
def logStopped (s : State) : Bool := s.getB O.LOG_STAT 1 || s.getB O.LOG_STAT 2

section
variable {s t : State}

theorem LogKept.getB_stat (h : LogKept s t) (b : Nat) : t.getB O.LOG_STAT b = s.getB O.LOG_STAT b := by
  simp only [State.getB, State.getN, h.stat]

theorem LogKept.stopped (h : LogKept s t) : logStopped t = logStopped s := by
  simp only [logStopped, h.getB_stat]

theorem logAppend_log (s : State) (r : Record) : (logAppend s r).plate.log = s.plate.log ++ [r] := by
  unfold logAppend logCounts
  refine (touchFor_log _ _).trans ?_
  split
  · exact touchFor_log _ _
  · rfl

theorem logRecord_stopped (h : logStopped s = true) (r : Record) : logRecord s r = (s, false) := if_pos h

/-- A record that fits goes to the end of the log. -/
theorem logRecord_fits (h : logStopped s = false) (hf : s.getB O.LOG_STAT 0 = false) {r : Record}
    (hr : logBytes s.plate.log + 32 + r.payload.length ≤ 524288 - 64) : logRecord s r = (logAppend s r, false) := by
  unfold logRecord
  rw [if_neg (by simpa [logStopped] using h), if_neg (by simp [hf]), if_pos hr]

theorem logRecord_grows (s : State) (r : Record) : s.plate.log <+: (logRecord s r).1.plate.log := by
  have hb : LogKept s (s.bump O.LOG_REFUSED) := (LogKept.refl s).bump
  unfold logRecord
  split
  · exact List.prefix_rfl
  split
  · exact hb.log ▸ List.prefix_rfl
  split
  · exact logAppend_log s r ▸ List.prefix_append _ _
  · dsimp only
    have hl : ((s.bump O.LOG_REFUSED).setBitAt O.LOG_STAT 0 true).plate.log = s.plate.log := (touchFor_log _ _).trans hb.log
    rw [logAppend_log, hl]
    exact List.prefix_append _ _

/-! ### Records (R724, R725) -/

/-- After the log has its copy of a record, the copies to rings, CAN FD and alerts leave it. -/
theorem recordCore_kept (s : State) (code sev : Nat) (trunc : Bool) (payload : List Byte) :
    LogKept (logRecord s (mkRecord s code sev trunc payload)).1 (recordCore s code sev trunc payload).1 := by
  have hk (r : Record) : LogKept (logRecord s r).1 (keepRecord s r) := (LogKept.step (.refl _)).setN _
  exact ((((hk _).mirrorRecord _).produce 3 _).canPush _).twAlert _

theorem recordCore_grows (s : State) (code sev : Nat) (trunc : Bool) (payload : List Byte) :
    s.plate.log <+: (recordCore s code sev trunc payload).1.plate.log :=
  (recordCore_kept s code sev trunc payload).log ▸ logRecord_grows s _

theorem recordCore_stopped (h : logStopped s = true) (code sev : Nat) (trunc : Bool) (payload : List Byte) :
    LogKept s (recordCore s code sev trunc payload).1 := by
  have hk := recordCore_kept s code sev trunc payload
  rwa [logRecord_stopped h] at hk

/-- The records of the ring and queue events that a record causes. -/
def recordAsks (s : State) (asks : List (Nat × Nat)) : State :=
  asks.foldl (fun s a => (recordCore s a.1 (sevOf a.1) false (payloadOf .chip (askVals a))).1) s

theorem recordAsks_grows (asks : List (Nat × Nat)) (s : State) : s.plate.log <+: (recordAsks s asks).plate.log := by
  induction asks generalizing s with
  | nil => exact List.prefix_rfl
  | cons a asks ih => exact (recordCore_grows s _ _ _ _).trans (ih _)

theorem recordAsks_stopped (asks : List (Nat × Nat)) (h : logStopped s = true) : LogKept s (recordAsks s asks) := by
  induction asks generalizing s with
  | nil => exact .refl s
  | cons a asks ih =>
    have hk := recordCore_stopped h a.1 (sevOf a.1) false (payloadOf .chip (askVals a))
    exact hk.trans (ih (hk.stopped.trans h))

/-- The record that an event forms (R722, R723). -/
def recordOf (s : State) (code : Nat) (u : UnitId) (vals : List Byte) : Record :=
  mkRecord s code (sevOf code) (decide (224 < (padWord vals).length + 4)) (payloadOf u vals)

/-- What the record of an event leaves before those of the events that it causes. -/
def recordFirst (s : State) (code : Nat) (u : UnitId) (vals : List Byte) : State × List (Nat × Nat) :=
  recordCore s code (sevOf code) (decide (224 < (padWord vals).length + 4)) (payloadOf u vals)

theorem record_eq (s : State) (code : Nat) (u : UnitId) (vals : List Byte) :
    record s code u vals = recordAsks (recordFirst s code u vals).1 (recordFirst s code u vals).2 := rfl

theorem record_grows (s : State) (code : Nat) (u : UnitId) (vals : List Byte) :
    s.plate.log <+: (record s code u vals).plate.log :=
  (recordCore_grows s _ _ _ _).trans (recordAsks_grows _ _)

/-- An event's record that fits stands first behind the records of the log. -/
theorem record_appends (h : logStopped s = false) (hf : s.getB O.LOG_STAT 0 = false) {code : Nat} {u : UnitId} {vals : List Byte}
    (hr : logBytes s.plate.log + 32 + (payloadOf u vals).length ≤ 524288 - 64) :
    s.plate.log ++ [recordOf s code u vals] <+: (record s code u vals).plate.log := by
  have hl : (recordFirst s code u vals).1.plate.log = s.plate.log ++ [recordOf s code u vals] := by
    refine (recordCore_kept s _ _ _ _).log.trans ?_
    rw [logRecord_fits h hf hr]
    exact logAppend_log s _
  rw [← hl, record_eq]
  exact recordAsks_grows _ _

/-- While the recorder is at fault, an event leaves the log and LOG_STAT. -/
theorem record_stopped (h : logStopped s = true) (code : Nat) (u : UnitId) (vals : List Byte) :
    LogKept s (record s code u vals) := by
  have hk : LogKept s (recordFirst s code u vals).1 := recordCore_stopped h _ _ _ _
  exact hk.trans (recordAsks_stopped _ (hk.stopped.trans h))

end

end Sys2Proof.Machine
end

section
/-! The events of the recorder: a record, a correctable and an uncorrectable error of the plate (R695, R722 to R729). -/

namespace Sys2Proof.Machine

/-! ### An event's record (R722 to R725) -/

section
variable {s : State}

theorem exec_eventRecord {code : Nat} (hk : knownCode code = true) (hu : code ≠ 0x080A) (hc : code ≠ 0x0805) (u : UnitId)
    (vals : List Byte) : exec (.eventRecord code u vals) s = .next (record s code u vals) := by
  change execEventRecord code u vals s = _
  unfold execEventRecord
  rw [if_neg (by simp [hk]), if_neg hu, if_neg hc]

theorem eventRecord_appends {code : Nat} {u : UnitId} {vals : List Byte} (hk : knownCode code = true) (hu : code ≠ 0x080A)
    (hc : code ≠ 0x0805) (h0 : s.getB O.LOG_STAT 0 = false) (h1 : s.getB O.LOG_STAT 1 = false) (h2 : s.getB O.LOG_STAT 2 = false)
    (hr : logBytes s.plate.log + 32 + (payloadOf u vals).length ≤ 524288 - 64) :
    ∃ t r l, exec (.eventRecord code u vals) s = .next t ∧ t.plate.log = s.plate.log ++ r :: l ∧ r.code = code ∧ r.seq = s.plate.nextSeq ∧
      r.uptime = s.uptime ∧ r.wall = s.wall ∧ r.payload = payloadOf u vals ∧ Keeps s t (fun _ => False) := by
  have hs : logStopped s = false := by simp only [logStopped, h1, h2, Bool.or_self]
  obtain ⟨l, hl⟩ := record_appends hs h0 hr (code := code)
  refine ⟨_, recordOf s code u vals, l, exec_eventRecord hk hu hc u vals, ?_, rfl, rfl, rfl, rfl, rfl, ?_⟩
  · rw [← hl, List.append_assoc, List.singleton_append]
  · exact .of_record (record_only _ _ _ _) _

/-! ### A correctable error (R695) -/

/-- The state with the time of its latest record of a correctable error. -/
def ceNoted (s : State) : State := { s with plate := { s.plate with ceAt := some s.uptime } }

theorem exec_correctable (s : State) (u : UnitId) (vals : List Byte) : exec (.eventRecord 0x0805 u vals) s =
    .next (if quietFor (s.bump O.ECC_CE_CNT).plate.ceAt s.uptime 10000 then record (ceNoted (s.bump O.ECC_CE_CNT)) 0x0805 u vals
      else s.bump O.ECC_CE_CNT) := by
  change execEventRecord 0x0805 u vals s = _
  unfold execEventRecord
  rw [if_neg (by decide), if_neg (by decide), if_pos rfl, apply_ite Host.Outcome.next]
  rfl

/-- A state with the time of the latest record of a correctable error taken from `o`. -/
def ceUnits (o s : State) : State := { s with plate := { s.plate with ceAt := o.plate.ceAt } }

theorem Frame.ceNoted {o t : State} {f : Addr → Prop} (h : Frame (ceUnits o) f s t) : Frame (ceUnits o) f s (ceNoted t) := h.step

theorem correctable_counts (s : State) (u : UnitId) (vals : List Byte) : ∃ t, exec (.eventRecord 0x0805 u vals) s = .next t ∧
    t.getN O.ECC_CE_CNT = (s.getN O.ECC_CE_CNT + 1) % 2 ^ 32 ∧
    Keeps s { t with plate := { t.plate with ceAt := s.plate.ceAt } } (· = O.ECC_CE_CNT) := by
  have hb : Frame (ceUnits s) (· = O.ECC_CE_CNT) s (s.bump O.ECC_CE_CNT) := (Frame.refl _ (· = O.ECC_CE_CNT) s).setN rfl _
  have hc : ∀ r : RingId, O.RING_CFG r ≠ O.ECC_CE_CNT := by decide
  have keeps {t : State} (h : Frame (ceUnits s) (· = O.ECC_CE_CNT) s t) :
      Keeps s { t with plate := { t.plate with ceAt := s.plate.ceAt } } (· = O.ECC_CE_CNT) := ⟨h.objects, h.units, h.outside⟩
  refine ⟨_, exec_correctable s u vals, ?_⟩
  split
  · have hr := record_only (ceNoted (s.bump O.ECC_CE_CNT)) 0x0805 u vals
    refine ⟨?_, keeps (hb.ceNoted.trans hc (.of_record hr))⟩
    exact (congrArg Int.toNat (hr.get O.ECC_CE_CNT (by decide))).trans (State.getN_bump_same s _)
  · exact ⟨State.getN_bump_same s _, keeps hb⟩

/-! ### An uncorrectable error (R728, R729) -/

/-- The RECORDER-FAULT record, its payload as a margin slot or the alert queue takes it. -/
def faultRecord (s : State) (payload : List Byte) : Record := mkRecord s 0x080A 3 false payload

/-- The record goes to the next margin slot. -/
def marginPut (s : State) (r : Record) : State :=
  State.setN { s with plate := { s.plate.touch (0xB10 + 4 * s.getN O.MARGIN_USED) with margin := s.plate.margin ++ [r] } }
    O.MARGIN_USED (s.getN O.MARGIN_USED + 1)

/-- The recorder stops: at fault (bit 1), or LOST (bit 2). -/
def logStops (s : State) (b : Nat) : State := s.setBitAt O.LOG_STAT b true

theorem exec_uncorrectable (s : State) (u : UnitId) (vals : List Byte) : exec (.eventRecord 0x080A u vals) s =
    .next (recorderFault (s.bump O.ECC_UE_CNT) (ofLe (vals.take 4))) := by
  change execEventRecord 0x080A u vals s = _
  unfold execEventRecord
  rw [if_neg (by decide), if_pos rfl]

theorem recorderFault_free (h : marginFree s = true) (a : Nat) : recorderFault s a =
    record (marginPut (logStops s 1) (faultRecord (logStops s 1) (payloadOf .chip (leBytes 4 a)))) 0x080A .chip (leBytes 4 a) :=
  if_pos h

theorem recorderFault_lost (h : marginFree s = false) (a : Nat) : recorderFault s a =
    (twAlert (logStops s 2) (faultRecord (logStops s 2) [])).1 := by
  unfold recorderFault
  rw [if_neg (by simp [h])]
  rfl

theorem getB_logStops (s : State) (b : Nat) : (logStops s b).getB O.LOG_STAT b = true := by
  rw [logStops, State.getB_setBitAt, if_pos ⟨rfl, rfl⟩]

theorem logStops_log (s : State) (b : Nat) : (logStops s b).plate.log = s.plate.log := touchFor_log _ _

theorem logStops_only (s : State) (b : Nat) : RecorderOnly s (logStops s b) := recorderOnly_setN s _ rfl

theorem marginPut_kept (s : State) (r : Record) : LogKept s (marginPut s r) := (LogKept.step (.refl s)).setN _

theorem touchFor_margin (p : Plate) (a : Addr) : (touchFor p a).margin = p.margin := by
  rcases touchFor_cases p a with h | ⟨n, h⟩ <;> rw [h]
  rfl

theorem marginPut_margin (s : State) (r : Record) : (marginPut s r).plate.margin = s.plate.margin ++ [r] := touchFor_margin _ _

theorem RecorderOnly.margin {t : State} (h : RecorderOnly s t) : t.plate.margin = s.plate.margin :=
  (congrArg (fun u => u.plate.margin) h.rest :)

/-- A state with its margin records taken from `o`. -/
def marginUnits (o s : State) : State := { s with plate := { s.plate with margin := o.plate.margin } }

/-- The objects that an uncorrectable error writes, those of the recorder apart. -/
def faultObj (a : Addr) : Prop := a ∈ [O.ECC_UE_CNT, O.MARGIN_USED]

theorem faultObj_ring_cfg : ∀ r : RingId, ¬ faultObj (O.RING_CFG r) := by
  unfold faultObj
  decide

theorem Frame.marginPut {o t : State} (h : Frame (marginUnits o) faultObj s t) (r : Record) :
    Frame (marginUnits o) faultObj s (marginPut t r) := by
  unfold Machine.marginPut
  exact setN (step h) (.tail _ (.head _)) _

/-- The recorder is at fault: the RECORDER-FAULT record in a margin slot, the log as it is. -/
structure Faulted (s t : State) : Prop where
  count : t.getN O.ECC_UE_CNT = s.getN O.ECC_UE_CNT
  log : t.plate.log = s.plate.log
  frame : ∀ o, Frame (marginUnits o) faultObj s t

theorem recorderFault_faulted (s : State) (a : Nat) : Faulted s (recorderFault s a) ∧
    (marginFree s = true → (recorderFault s a).getB O.LOG_STAT 1 = true ∧
      ∃ r, (recorderFault s a).plate.margin = s.plate.margin ++ [r] ∧ r.code = 0x080A) ∧
    (marginFree s = false → (recorderFault s a).getB O.LOG_STAT 2 = true ∧ (recorderFault s a).plate.margin = s.plate.margin) := by
  cases hm : marginFree s with
  | true =>
    rw [recorderFault_free hm]
    set r := faultRecord (logStops s 1) (payloadOf .chip (leBytes 4 a))
    set u := marginPut (logStops s 1) r
    have hu : LogKept (logStops s 1) u := marginPut_kept _ _
    have hstop : logStopped u = true := by rw [hu.stopped, logStopped, getB_logStops, Bool.true_or]
    have hk := hu.trans (record_stopped hstop 0x080A .chip (leBytes 4 a))
    have ho := record_only u 0x080A .chip (leBytes 4 a)
    have hf (o : State) : Frame (marginUnits o) faultObj s u := (Frame.of_record (logStops_only s 1)).marginPut r
    have hmargin : u.plate.margin = s.plate.margin ++ [r] := (marginPut_margin _ _).trans (by rw [(logStops_only s 1).margin])
    refine ⟨⟨?_, hk.log.trans (logStops_log s 1), fun o => (hf o).trans faultObj_ring_cfg (.of_record ho)⟩, fun _ => ⟨?_, r, ?_, rfl⟩, nofun⟩
    · refine (congrArg Int.toNat (ho.get O.ECC_UE_CNT (by decide))).trans ?_
      exact (State.getN_setN_ne _ _ (by decide)).trans (State.getN_setN_ne s _ (by decide))
    · rw [hk.getB_stat, getB_logStops]
    · rw [ho.margin, hmargin]
  | false =>
    rw [recorderFault_lost hm]
    set r := faultRecord (logStops s 2) []
    have hk : LogKept (logStops s 2) (twAlert (logStops s 2) r).1 := (LogKept.refl _).twAlert r
    have ho : RecorderOnly s (twAlert (logStops s 2) r).1 := (logStops_only s 2).trans (twAlert_only _ _)
    refine ⟨⟨congrArg Int.toNat (ho.get _ (by decide)), hk.log.trans (logStops_log s 2), fun _ => .of_record ho⟩, nofun, fun _ => ⟨?_, ho.margin⟩⟩
    rw [hk.getB_stat, getB_logStops]

theorem marginFree_bump (s : State) : marginFree (s.bump O.ECC_UE_CNT) = marginFree s := by
  have hn : (s.bump O.ECC_UE_CNT).getN O.MARGIN_USED = s.getN O.MARGIN_USED := State.getN_setN_ne s _ (by decide)
  have hp : (s.bump O.ECC_UE_CNT).plate.bad = s.plate.bad := by
    change (touchFor s.plate O.ECC_UE_CNT).bad = _
    rcases touchFor_cases s.plate O.ECC_UE_CNT with h | ⟨n, h⟩ <;> rw [h]
    rfl
  simp only [marginFree, hn, hp]

theorem uncorrectable_stops (s : State) (u : UnitId) (vals : List Byte) : ∃ t, exec (.eventRecord 0x080A u vals) s = .next t ∧
    t.getN O.ECC_UE_CNT = (s.getN O.ECC_UE_CNT + 1) % 2 ^ 32 ∧ t.plate.log = s.plate.log ∧
    (marginFree s = true → t.getB O.LOG_STAT 1 = true ∧ ∃ r, t.plate.margin = s.plate.margin ++ [r] ∧ r.code = 0x080A) ∧
    (marginFree s = false → t.getB O.LOG_STAT 2 = true ∧ t.plate.margin = s.plate.margin) ∧
    Keeps s { t with plate := { t.plate with margin := s.plate.margin } } (· ∈ [O.ECC_UE_CNT, O.MARGIN_USED]) := by
  have hb : Frame (marginUnits s) faultObj s (s.bump O.ECC_UE_CNT) := .setN (.refl _ _ _) (.head _) _
  have hmargin : (s.bump O.ECC_UE_CNT).plate.margin = s.plate.margin := touchFor_margin _ _
  obtain ⟨⟨hcount, hlog, hframe⟩, hfree, hlost⟩ := recorderFault_faulted (s.bump O.ECC_UE_CNT) (ofLe (vals.take 4))
  rw [marginFree_bump, hmargin] at hfree hlost
  have hall := hb.trans faultObj_ring_cfg (hframe s)
  exact ⟨_, exec_uncorrectable s u vals, hcount.trans (State.getN_bump_same s _), hlog.trans (touchFor_log _ _), hfree, hlost,
    hall.objects, hall.units, hall.outside⟩

end

end Sys2Proof.Machine
end

section
/-! The microsecond of uptime (R353, R486, R716 to R718). -/

namespace Sys2Proof.Machine

/-- A state with what the meters and the inputs of a microsecond write taken from `o`: loops, loop FB, inputs and what is seen of them. -/
def meterUnits (o s : State) : State := { s with fb := o.fb, inputs := o.inputs, loops := o.loops, seen := o.seen }

/-- ENERGY of a loop, or of loop FB. -/
def energyObj (a : Addr) : Prop := ∃ i : Fin 9, a = O.ENERGY i

namespace Silent

variable {Q : State → State} {f : Addr → Prop} {o s t : State}

/-- An operation repeated over a list. -/
theorem foldl {α : Type} {l : List α} {F : State → α → State} (h : Silent Q f s t)
    (hF : ∀ u, ∀ x ∈ l, Silent Q f s u → Silent Q f s (F u x)) : Silent Q f s (l.foldl F t) := by
  induction l generalizing t with
  | nil => exact h
  | cons x l ih => exact ih (hF t x List.mem_cons_self h) fun u y hy => hF u y (List.mem_cons_of_mem x hy)

theorem modLoop (h : Silent (meterUnits o) f s t) (k : LoopId) (g : Loop → Loop) : Silent (meterUnits o) f s (t.modLoop k g) := h.step

theorem tickLoop (h : Silent (meterUnits o) energyObj s t) (k : LoopId) : Silent (meterUnits o) energyObj s (tickLoop t k) := by
  unfold Machine.tickLoop
  dsimp only
  split
  · exact h
  split
  · exact (h.modLoop k _).setN ⟨k.castSucc, rfl⟩ _
  · exact h.modLoop k _

theorem fb (h : Silent (meterUnits o) f s t) (x : Fb) : Silent (meterUnits o) f s { t with fb := x } := h.step

theorem tickFb (h : Silent (meterUnits o) energyObj s t) : Silent (meterUnits o) energyObj s (tickFb t) := by
  unfold Machine.tickFb
  dsimp only
  split
  · exact h
  split
  · exact (h.fb _).setN ⟨8, rfl⟩ _
  · exact h.fb _

theorem seeActive (h : Silent (meterUnits o) f s t) (l : LatchId) : Silent (meterUnits o) f s (seeActive t l) := h.step

theorem inputs (h : Silent (meterUnits o) f s t) (l : List Nat) : Silent (meterUnits o) f s { t with inputs := l } := h.step

end Silent

/-- The meters and the inputs at the end of a microsecond. -/
def microsecondSeen (active : List LatchId) (s : State) : State :=
  allLatches.foldl (fun s l => if inputNow s l then seeActive s l else s)
    (tickFb (eachLoop { s with inputs := (active.map latchNo).foldl insertNat [] } tickLoop))

theorem microsecondSeen_silent (active : List LatchId) (s : State) :
    Silent (meterUnits s) energyObj s (microsecondSeen active s) := by
  have h1 : Silent (meterUnits s) energyObj s { s with inputs := (active.map latchNo).foldl insertNat [] } :=
    (Silent.refl energyObj s).inputs _
  have h2 := (h1.foldl (l := List.finRange 8) fun _ k _ h => h.tickLoop k).tickFb
  refine h2.foldl fun u l _ h => ?_
  split
  · exact h.seeActive l
  · exact h

/-- The clocks take the microsecond, and the restart conditions are judged. -/
def microsecondEnds (s : State) : State := noteCool { s with uptime := (s.uptime + 1) % 2 ^ 64, wall := s.wall + 1 }

/-- What the meters and inputs leave, the end of the microsecond changes in the clocks and in the time of the restart conditions. -/
theorem microsecondEnds_still {f : Addr → Prop} {s u : State} (h : Silent (meterUnits s) f s u) :
    (microsecondEnds u).uptime = (s.uptime + 1) % 2 ^ 64 ∧ (microsecondEnds u).wall = s.wall + 1 ∧
      Still s { microsecondEnds u with
        fb := s.fb, inputs := s.inputs, loops := s.loops, seen := s.seen, uptime := s.uptime, wall := s.wall
        chip := { (microsecondEnds u).chip with coolAt := s.chip.coolAt } } f := by
  obtain ⟨hobj, hunits⟩ := h
  have hup : u.uptime = s.uptime := (congrArg State.uptime hunits :)
  have hwall : u.wall = s.wall := (congrArg State.wall hunits :)
  refine ⟨?_, ?_, hobj, ?_⟩
  · rw [← hup]
    rfl
  · rw [← hwall]
    rfl
  · exact congrArg (fun v : State => { v with
      uptime := s.uptime, wall := s.wall, chip := { v.chip with coolAt := s.chip.coolAt } }) hunits

theorem exec_uptimeTick {s : State} (ha : s.chip.aon = true) (active : List LatchId) :
    exec (.uptimeTick active) s = .next (microsecondEnds (microsecondSeen active s)) := by
  change execUptimeTick active s = _
  unfold execUptimeTick
  rw [if_pos ha]
  rfl

end Sys2Proof.Machine
end

section
/-! Wall time set and read (R718 to R720), records read (R727), the clear of the log (R726), and the statement of O54. -/

namespace Sys2Proof.Machine

/-! ### Wall time set (R718, R720) -/

section
variable {s t : State} {q : Requester}

/-- A state with what an accepted write may change beside objects, and wall time, taken from `o`. -/
def wallUnits (o s : State) : State := { writeUnits o s with wall := o.wall }

/-- Wall time set, and known to be set. -/
def wallTaken (s : State) (n : Nat) : State := { s.setBitAt O.WALL_STAT 0 true with wall := n }

theorem wallTaken_frame (o s : State) (n : Nat) : Frame (wallUnits o) (writeObj (· = O.WALL_STAT)) s (wallTaken s n) :=
  .step (.setN (.refl _ _ s) (.inr (.inr rfl)) _)

theorem setWall_only (s : State) (n : Nat) : RecorderOnly (wallTaken s n) (setWall s n) := by
  unfold setWall
  dsimp only
  split
  · exact record_only _ _ _ _
  · exact .refl _

theorem Written.wall {f : Addr → Prop} (h : Written s t f) : t.wall = s.wall := by
  obtain ⟨-, hrest, -⟩ := h
  exact (congrArg State.wall hrest :)

theorem wallSetUs_ty {r : Row} (h : resolve O.WALL_SET_US = .obj O.WALL_SET_US r) : r.ty = .u32 := by
  have hr : (match resolve O.WALL_SET_US with | .obj _ r => r.ty | _ => .u32) = .u32 := by decide +kernel
  rwa [h] at hr

theorem ownChip_wallSetUs (s : State) (q : Requester) (v : Nat) (w : With) :
    ownChip s q O.WALL_SET_US v w = some (setWall s (s.getN O.WALL_SET_S * 1000000 + v), 0) := rfl

theorem exec_wallSet (q : Requester) (us : Nat) (s : State) :
    exec (.wallSet q us) s = .next (serve s fun s => writeWhole s q O.WALL_SET_US (leBytes 4 us)) := rfl

theorem wallSet_sets {us : Nat} (hus : us < 2 ^ 32) (h : Admitted s q O.WALL_SET_US (leBytes 4 us)) :
    ∃ t, exec (.wallSet q us) s = .next t ∧ t.wall = s.getN O.WALL_SET_S * 1000000 + us ∧ t.getB O.WALL_STAT 0 = true ∧
      Written s { t with wall := s.wall } (· = O.WALL_STAT) := by
  set n := s.getN O.WALL_SET_S * 1000000 + us
  have ho : RecorderOnly (wallTaken s n) (setWall s n) := setWall_only s n
  obtain ⟨t, ht, hw⟩ := writeWhole_admitted (u := setWall s n) (w := {}) h fun r hr => by
    have hv := ofBytes_word (wallSetUs_ty hr) (BitVec.ofNat 32 us)
    rw [BitVec.toNat_ofNat, Nat.mod_eq_of_lt hus] at hv
    rw [ownChip_wallSetUs, hv]
  have hfree : writeFree O.WALL_STAT := by unfold writeFree; decide
  have hstat : t.getN O.WALL_STAT = (wallTaken s n).getN O.WALL_STAT :=
    (hw.getN hfree id).trans (congrArg Int.toNat (ho.get _ hfree.1))
  have hc : ∀ r : RingId, ¬ writeObj (· = O.WALL_STAT) (O.RING_CFG r) := writeObj_ring_cfg (by decide)
  have hall : Frame (wallUnits s) (writeObj (· = O.WALL_STAT)) s t :=
    ((wallTaken_frame s s n).trans hc (.of_record ho)).trans hc
      (((Frame.of_written s hw).mono fun a ha => ha.imp_right (Or.imp_right False.elim)).hide fun u => { u with wall := s.wall })
  refine ⟨t, by rw [exec_wallSet, ht], hw.wall.trans ho.wall, ?_, hall.objects, hall.units, hall.outside⟩
  rw [State.getB, hstat, ← State.getB]
  exact (State.getB_setBitAt s O.WALL_STAT 0 true O.WALL_STAT 0).trans (if_pos ⟨rfl, rfl⟩)

/-! ### Wall time read (R719) -/

theorem resolve_wallS : resolve O.WALL_S = .obj O.WALL_S { addr := O.WALL_S, ty := .u64, acc := .ro, ranges := [(0, 2 ^ 64 - 1)] } := by
  decide +kernel

theorem resolve_wallUs : resolve O.WALL_US = .obj O.WALL_US { addr := O.WALL_US, ty := .u32, acc := .ro, ranges := [(0, 999999)] } := by
  decide +kernel

/-- A read that no rule refuses. -/
theorem readWhole_answers {a : Addr} {r : Row} (hr : resolve a = .obj a r) (hc : readAbort s a r = 0) :
    readWhole s q a = (noteAns (readSide s q a) q a 0, ⟨0, objBytes s q a r⟩) := by
  unfold readWhole
  rw [hr]
  simp only [hc, if_true]

/-- No plate page holds an object that is not stored. -/
theorem readAbort_unstored {a : Addr} {r : Row} (hp : r.plate = false) (hw : r.acc ≠ .wo) (hs : a ≠ O.SCR_DATA) (hl : a ≠ O.LOG_REC) :
    readAbort s a r = 0 := by
  simp [readAbort, pagesFor, hp, hw, hs, hl]

theorem readVal_thawed {a : Addr} (hf : s.chip.freeze = false) (hr : regionAt s a = none) (r : Row) : readVal s q a r = liveVal s q a := by
  unfold readVal servedVal cutRegion
  rw [hf, hr]
  rfl

theorem readVal_wallS (hf : s.chip.freeze = false) (r : Row) : readVal s q O.WALL_S r = (s.wall / 1000000 : Nat) :=
  readVal_thawed hf rfl r

theorem readVal_wallUs (hf : s.chip.freeze = false) (r : Row) : (readVal s q O.WALL_US r).toNat = s.wall % 1000000 := by
  rw [readVal_thawed hf rfl r]
  rfl

/-- What a requester has of a read that a command of its own makes. -/
theorem readOut_eq (hs : serves s = true) (f : State → State × Ans) :
    readOut s q f = (f s).1.modReq q fun r => { r with out := (f s).2.data } := if_pos hs

theorem rqOf_noteAns (s : State) (q : Requester) (a : Addr) : (noteAns s q a 0).rqOf q = { s.rqOf q with served := s.uptime } :=
  State.modReq_same s q _

theorem readWhole_wallS (s : State) (q : Requester) : readWhole s q O.WALL_S = (noteAns (s.modReq q fun r => { r with
      wallUs := some (readVal s q O.WALL_US { addr := O.WALL_US, ty := .u32, acc := .ro }).toNat }) q O.WALL_S 0,
    ⟨0, toBytes .u64 (readVal s q O.WALL_S { addr := O.WALL_S, ty := .u64, acc := .ro, ranges := [(0, 2 ^ 64 - 1)] })⟩) :=
  readWhole_answers resolve_wallS (readAbort_unstored rfl (by decide) (by decide) (by decide))

theorem readWhole_wallUs (s : State) (q : Requester) : readWhole s q O.WALL_US =
    (noteAns (s.modReq q fun r => { r with wallUs := none }) q O.WALL_US 0, ⟨0, leBytes 4 ((s.rqOf q).wallUs.getD
      (readVal s q O.WALL_US { addr := O.WALL_US, ty := .u32, acc := .ro, ranges := [(0, 999999)] }).toNat)⟩) :=
  readWhole_answers resolve_wallUs (readAbort_unstored rfl (by decide) (by decide) (by decide))

/-- The µs that a read of WALL_S records. -/
theorem wallUs_readWallS (hf : s.chip.freeze = false) : ((readWhole s q O.WALL_S).1.rqOf q).wallUs = some (s.wall % 1000000) := by
  rw [readWhole_wallS]
  simp only [rqOf_noteAns, State.modReq_same, readVal_wallUs hf]

theorem data_readWallS (hf : s.chip.freeze = false) : (readWhole s q O.WALL_S).2.data = toBytes .u64 (s.wall / 1000000 : Nat) := by
  rw [readWhole_wallS, readVal_wallS hf]

theorem wallSRead_reads (hs : serves s = true) : ∃ t, exec (.wallSRead q) s = .next t ∧ { t with req := s.req } = s ∧
    (s.chip.freeze = false → (t.rqOf q).out = toBytes .u64 (s.wall / 1000000 : Nat) ∧ (t.rqOf q).wallUs = some (s.wall % 1000000)) := by
  have hx : exec (.wallSRead q) s = .next _ := congrArg Host.Outcome.next (readOut_eq hs fun s => readWhole s q O.WALL_S)
  refine ⟨_, hx, ?_, fun hf => ?_⟩
  · rw [readWhole_wallS]
    rfl
  · rw [State.modReq_same]
    exact ⟨data_readWallS hf, wallUs_readWallS hf⟩

theorem wallUsRead_reads (hs : serves s = true) : ∃ t, exec (.wallUsRead q) s = .next t ∧ { t with req := s.req } = s ∧
    (t.rqOf q).wallUs = none ∧ (∀ us, (s.rqOf q).wallUs = some us → (t.rqOf q).out = leBytes 4 us) ∧
    ((s.rqOf q).wallUs = none → s.chip.freeze = false → (t.rqOf q).out = leBytes 4 (s.wall % 1000000)) := by
  have hx : exec (.wallUsRead q) s = .next _ := congrArg Host.Outcome.next (readOut_eq hs fun s => readWhole s q O.WALL_US)
  rw [readWhole_wallUs] at hx
  refine ⟨_, hx, rfl, ?_, fun us hu => ?_, fun hu hf => ?_⟩
  · rw [State.modReq_same, rqOf_noteAns, State.modReq_same]
  · rw [State.modReq_same, hu]
    rfl
  · rw [State.modReq_same, hu, readVal_wallUs hf]
    rfl

/-! ### WALL_S through the stream port's window (R666, R667) -/

/-- A READ frame of one word that the dictionary answers: the word leads the response. -/
theorem readFrame_one {u : State} {a w : Nat} (h : readWord s a = (u, 0, w)) :
    ∃ bs p, readFrame s a 1 = { u with sp := { u.sp with pwerr := p, response := leBytes 4 w ++ bs } } := by
  have hc : ¬ (1 = 0 ∨ 65535 < 1 ∨ (inWindowRegion a = true ∧ 16 < 1)) := by omega
  have hw : readWords s a 1 = (u, 0, [w]) := by
    simp only [readWords, h]
    rfl
  unfold readFrame trailer
  rw [if_neg hc, hw]
  simp only [List.flatMap_cons, List.flatMap_nil, List.append_nil, List.append_assoc]
  exact ⟨_, _, rfl⟩

theorem exec_spRead (hs : serves s = true) (addr : BitVec 32) (n : Nat) :
    exec (.spRead addr n .whole) s = .next (readFrame s addr.toNat n) := by
  change execSpRead addr n .whole s = _
  unfold execSpRead
  rw [hs]
  rfl

/-- The low word of WALL_S in the window. -/
def wallSWord : BitVec 32 := BitVec.ofNat 32 (0x1000000 + O.WALL_S / 256 * 256 + O.WALL_S % 256 * 4)

theorem readWord_wallS (s : State) : readWord s wallSWord.toNat =
    ((readWhole s .stream O.WALL_S).1, 0, ofLe ((readWhole s .stream O.WALL_S).2.data.take 4)) := by
  have hat : spAt wallSWord.toNat = .win O.WALL_S false := by decide +kernel
  have hab : winAbort O.WALL_S false = 0 := by decide +kernel
  unfold readWord winRead
  rw [hat]
  simp only [hab, resolve_wallS, readWhole_wallS]
  rfl

theorem spRead_wallS (hs : serves s = true) (hf : s.chip.freeze = false) : ∃ t, exec (.spRead wallSWord 1 .whole) s = .next t ∧
    t.sp.response.take 4 = (toBytes .u64 (s.wall / 1000000 : Nat)).take 4 ∧ (t.rqOf .stream).wallUs = some (s.wall % 1000000) := by
  obtain ⟨bs, p, ht⟩ := readFrame_one (readWord_wallS s)
  refine ⟨_, exec_spRead hs wallSWord 1, ?_, ?_⟩
  · rw [ht, data_readWallS hf]
    have hlen : ((toBytes .u64 (s.wall / 1000000 : Nat)).take 4).length = 4 := by
      rw [List.length_take, toBytes, length_leBytes]
      rfl
    have hle := leBytes_ofLe ((toBytes .u64 (s.wall / 1000000 : Nat)).take 4)
    rw [hlen] at hle
    rw [hle]
    exact List.take_left' hlen
  · rw [ht]
    exact wallUs_readWallS hf

/-! ### Records read by their SEQ (R727) -/

theorem resolve_logRec : resolve O.LOG_REC = .obj O.LOG_REC { addr := O.LOG_REC, ty := .dom, acc := .ro, len := 256 } := by
  decide +kernel

theorem readWhole_logRec_none (h : selectedRecord s = none) :
    readWhole s q O.LOG_REC = (noteAns s q O.LOG_REC 0xA030, ⟨0xA030, []⟩) := by
  have hc : readAbort s O.LOG_REC { addr := O.LOG_REC, ty := .dom, acc := .ro, len := 256 } = 0xA030 := by
    simp [readAbort, pagesFor, h]
  unfold readWhole
  rw [resolve_logRec]
  simp only [hc]
  rfl

theorem readWhole_logRec_some {r : Record} (h : selectedRecord s = some r) :
    readWhole s q O.LOG_REC = (noteAns s q O.LOG_REC 0, ⟨0, recordBytes r⟩) := by
  have hc : readAbort s O.LOG_REC { addr := O.LOG_REC, ty := .dom, acc := .ro, len := 256 } = 0 := by
    simp [readAbort, pagesFor, h]
  rw [readWhole_answers resolve_logRec hc]
  have hb : blobOf s O.LOG_REC = recordBytes r := by
    unfold blobOf
    rw [if_neg (by decide), if_pos rfl, h]
  exact congrArg (fun bs => (noteAns s q O.LOG_REC 0, (⟨0, bs⟩ : Ans))) hb

/-- A segment at offset 0 reads the object anew (R605). -/
theorem readSegment_first (s : State) (q : Requester) (a : Addr) (n : Nat) : readSegment s q a 0 n =
    if (readWhole s q a).2.abort = 0 then
      ((readWhole s q a).1.modReq q fun r => { r with buffer := some (a, (readWhole s q a).2.data) },
        ⟨0, ((readWhole s q a).2.data.drop 0).take n⟩)
    else readWhole s q a := by
  unfold readSegment
  cases (s.rqOf q).buffer with
  | none => rfl
  | some x => simp

/-- A later segment reads on in the requester's buffer (R605). -/
theorem readSegment_on {a : Addr} {bs : List Byte} {ofs : Nat} (ho : ofs ≠ 0) (hb : (s.rqOf q).buffer = some (a, bs)) (n : Nat) :
    readSegment s q a ofs n = (noteAns s q a 0, ⟨0, (bs.drop ofs).take n⟩) := by
  unfold readSegment
  simp [hb, ho]

theorem readWhole_logRec_req (s : State) (q : Requester) : { (readWhole s q O.LOG_REC).1 with req := s.req } = s := by
  cases h : selectedRecord s with
  | none => rw [readWhole_logRec_none h]; rfl
  | some r => rw [readWhole_logRec_some h]; rfl

theorem readSegment_logRec_req (s : State) (q : Requester) (ofs n : Nat) :
    { (readSegment s q O.LOG_REC ofs n).1 with req := s.req } = s := by
  unfold readSegment
  dsimp only
  split
  · rfl
  · split
    · exact readWhole_logRec_req s q
    · exact readWhole_logRec_req s q

theorem logRecRead_reads (ofs n : Nat) (hs : serves s = true) :
    ∃ t, exec (.logRecRead q ofs n) s = .next t ∧ { t with req := s.req } = s ∧
    (ofs = 0 → selectedRecord s = none → (t.rqOf q).lastAbort = 0xA030) ∧
    (∀ r, ofs = 0 → selectedRecord s = some r →
      (t.rqOf q).out = (recordBytes r).take (min n 64) ∧ (t.rqOf q).buffer = some (O.LOG_REC, recordBytes r)) ∧
    (∀ bs, ofs ≠ 0 → (s.rqOf q).buffer = some (O.LOG_REC, bs) → (t.rqOf q).out = (bs.drop ofs).take (min n 64)) := by
  have hx : exec (.logRecRead q ofs n) s = .next _ :=
    congrArg Host.Outcome.next (readOut_eq hs fun s => readSegment s q O.LOG_REC ofs (min n 64))
  refine ⟨_, hx, readSegment_logRec_req s q ofs _, fun ho hn => ?_, fun r ho hr => ?_, fun bs ho hb => ?_⟩
  · subst ho
    rw [State.modReq_same, readSegment_first, readWhole_logRec_none hn]
    exact lastAbort_noteAns s q O.LOG_REC (by decide)
  · subst ho
    rw [State.modReq_same, readSegment_first, readWhole_logRec_some hr, if_pos rfl]
    exact ⟨rfl, congrArg Req.buffer (State.modReq_same _ q _)⟩
  · rw [State.modReq_same, readSegment_on ho hb]

end

end Sys2Proof.Machine
end

section
/-! The clear of the log (R726), and the statement of O54. -/

namespace Sys2Proof.Machine

/-! ### What follows a write only adds to the log -/

section
variable {s t u : State} {q : Requester} {a : Addr} {r : Row} {data : List Byte} {w : With}

theorem set_log (s : State) (a : Addr) (v : Int) : (s.set a v).plate.log = s.plate.log := touchFor_log _ _

theorem bump_log (s : State) (a : Addr) : (s.bump a).plate.log = s.plate.log := touchFor_log _ _

theorem noteWrite_grows (s t : State) (q : Requester) (a : Addr) (r : Row) (data : List Byte) :
    t.plate.log <+: (noteWrite s t q a r data).plate.log := by
  unfold noteWrite
  split
  · dsimp only
    split
    · exact record_grows t.draw.2 _ _ _
    · exact record_grows t _ _ _
  · exact List.prefix_rfl

theorem offerAsk_grows (s : State) (r : RingId) (i : RingItem) : s.plate.log <+: (offerAsk s r i).plate.log := by
  have hp : (produce s r i).1.plate.log = s.plate.log := ((LogKept.refl s).produce r i).log
  unfold offerAsk
  dsimp only
  split
  · exact hp ▸ record_grows _ _ _ _
  · exact hp ▸ List.prefix_rfl

theorem journalFull_grows (s : State) : s.plate.log <+: (journalFull s).plate.log :=
  (set_log s O.TW_ROLE 0) ▸ record_grows { s.setN O.TW_ROLE 0 with twin := { s.twin with journal := [] } } _ _ _

theorem journalSend_grows (s : State) (q : Requester) (a : Addr) (r : Row) (v : Int) (o : Option Nat) (data : List Byte) :
    s.plate.log <+: (journalSend s q a r v o data).plate.log := by
  have hx (n : Nat) (l : List JournalEntry) (i : RingItem) :
      s.plate.log <+: (offerAsk { s with twin := { s.twin with jseq := n, journal := l } } 14 i).plate.log :=
    offerAsk_grows { s with twin := { s.twin with jseq := n, journal := l } } 14 i
  unfold journalSend
  split
  · dsimp only
    split
    · exact (hx _ _ _).trans (journalFull_grows _)
    · exact hx _ _ _
  · exact List.prefix_rfl

/-- An admitted write adds to the log behind what its object's operation leaves there. -/
theorem writeWhole_grows (h : Admitted s q a data) (hr : resolve a = .obj a r)
    (ha : applyWrite s q a r (ofBytes r.ty data) w = (u, 0)) : u.plate.log <+: (writeWhole s q a data w).1.plate.log := by
  obtain ⟨x, hx, ht⟩ := writeWhole_applied h hr ha
  have hu : u.plate.log <+: x.plate.log := by
    rcases hx with rfl | rfl
    · exact noteWrite_grows s u q a r data
    · rw [bump_log]
      exact noteWrite_grows s u q a r data
  rw [ht]
  exact hu.trans (journalSend_grows _ _ _ _ _ _ _)

/-- The operation of a chip-level object is what an admitted write of it applies. -/
theorem applyWrite_chip {x : State × Nat} (h : Admitted s q a data) (hr : resolve a = .obj a r)
    (hc : ownChip s q a (ofBytes r.ty data).toNat w = some x) : applyWrite s q a r (ofBytes r.ty data) w = x := by
  obtain ⟨-, -, r', hr', hacc, -, hsh, hst, hcf, -⟩ := h
  obtain rfl : r = r' := by simpa [hr] using hr'
  unfold applyWrite
  rw [if_neg (by simp [hsh, hst]), if_neg (by simp [hcf]), if_neg hacc, hc]

end

/-! ### The clear (R726) -/

section
variable {s : State} {q : Requester}

/-- The log emptied, its pages marked dirty, and LOG_STAT clear. -/
def logBlank (s : State) : State :=
  (State.setN { s with plate := { (logPages 0 (max 1 (logBytes s.plate.log))).foldl Plate.touch s.plate with log := [] } }
    O.LOG_USED 0).setN O.LOG_STAT 0

theorem logBlank_log (s : State) : (logBlank s).plate.log = [] := (set_log _ _ _).trans (set_log _ _ _)

theorem logBlank_stat (s : State) (b : Nat) : (logBlank s).getB O.LOG_STAT b = false := by
  have h : (logBlank s).getN O.LOG_STAT = 0 := State.getN_setN_same _ _ _
  simp [State.getB, bit, h]

theorem logBlank_only (s : State) : RecorderOnly s (logBlank s) := by
  have h : RecorderOnly s { s with plate := { (logPages 0 (max 1 (logBytes s.plate.log))).foldl Plate.touch s.plate with log := [] } } :=
    ⟨fun _ _ => rfl, id, congrArg (fun p => { rest s with plate := p }) (touch_all _ s.plate), id, fun _ _ => rfl⟩
  exact (h.trans (recorderOnly_setN _ 0 rfl)).trans (recorderOnly_setN _ 0 rfl)

/-- The clear with pages that pass: the emptied log, and event 0x0808. The SEQ values of an empty log are drawn (log entry 5). -/
theorem logClearPut_passes (s : State) : ∃ n vals, logClearPut s true = (record (logBlank { s with free := n }) 0x0808 .chip vals, 0) := by
  unfold logClearPut
  rw [if_neg (by decide)]
  dsimp only
  split <;> split <;> exact ⟨_, _, rfl⟩

/-- The clear's own record stands first in the emptied log. -/
theorem record_logBlank (s : State) (vals : List Byte) :
    [recordOf (logBlank s) 0x0808 .chip vals] <+: (record (logBlank s) 0x0808 .chip vals).plate.log := by
  have hs : logStopped (logBlank s) = false := by simp only [logStopped, logBlank_stat, Bool.or_self]
  have hp : (payloadOf .chip vals).length ≤ 224 := List.length_take_le _ _
  have hr : logBytes (logBlank s).plate.log + 32 + (payloadOf .chip vals).length ≤ 524288 - 64 := by
    have hb : logBytes (logBlank s).plate.log = 0 := congrArg logBytes (logBlank_log s)
    omega
  have h := record_appends hs (logBlank_stat s 0) hr (code := 0x0808)
  rwa [logBlank_log, List.nil_append] at h

theorem ownChip_logCmd (s : State) (q : Requester) (v : Nat) (w : With) :
    ownChip s q O.LOG_CMD v w = some (logClearPut s w.pagesOk) := rfl

theorem exec_logClear (q : Requester) (ok : Bool) (s : State) :
    exec (.logClear q ok) s = .next (serve s fun s => writeWhole s q O.LOG_CMD [0xC1] { pagesOk := ok }) := rfl

theorem logClear_clears (h : Admitted s q O.LOG_CMD [0xC1]) : ∃ t, exec (.logClear q true) s = .next t ∧
    (∃ r l, t.plate.log = r :: l ∧ r.code = 0x0808) ∧ Written s t (fun _ => False) := by
  obtain ⟨n, vals, hput⟩ := logClearPut_passes s
  have hchip (v : Nat) : ownChip s q O.LOG_CMD v { pagesOk := true } =
      some (record (logBlank { s with free := n }) 0x0808 .chip vals, 0) :=
    (ownChip_logCmd s q v _).trans (congrArg some hput)
  obtain ⟨t, ht, hw⟩ := writeWhole_admitted (w := { pagesOk := true }) h fun r _ => by rw [hchip]
  refine ⟨t, by rw [exec_logClear, ht], ?_, ?_⟩
  · obtain ⟨-, -, r, hr, -⟩ := id h
    have hg := writeWhole_grows (w := { pagesOk := true }) h hr (applyWrite_chip h hr (hchip _))
    obtain ⟨l, hl⟩ := (record_logBlank _ vals).trans hg
    rw [serve_admitted h] at ht
    exact ⟨_, l, by rw [← ht, ← hl]; rfl, rfl⟩
  · have hdrawn : Written s { s with free := n } (fun _ => False) := ⟨fun _ _ _ => rfl, rfl, fun _ _ => rfl⟩
    exact (hdrawn.trans (fun _ h => h) (.of_record ((logBlank_only _).trans (record_only _ _ _ _)) _)).trans (fun _ h => h) hw

theorem logClear_refused (h : Admitted s q O.LOG_CMD [0xC1]) : ∃ t, exec (.logClear q false) s = .next t ∧
    (t.rqOf q).lastAbort = 0xA050 ∧ { t with req := s.req } = s := by
  have ht := writeWhole_aborted (u := s) (w := { pagesOk := false }) (c := 0xA050) h (by decide) fun r _ => ownChip_logCmd s q _ _
  refine ⟨_, by rw [exec_logClear, ht], lastAbort_noteAns s q _ (by decide), rfl⟩

theorem logClear_answers (ok : Bool) (h : Admitted s q O.LOG_CMD [0xC1]) : ∃ t, exec (.logClear q ok) s = .next t ∧
    (ok = true → (∃ r l, t.plate.log = r :: l ∧ r.code = 0x0808) ∧ Written s t (fun _ => False)) ∧
    (ok = false → (t.rqOf q).lastAbort = 0xA050 ∧ { t with req := s.req } = s) := by
  cases ok with
  | true =>
    obtain ⟨t, ht, hc⟩ := logClear_clears h
    exact ⟨t, ht, fun _ => hc, nofun⟩
  | false =>
    obtain ⟨t, ht, hc⟩ := logClear_refused h
    exact ⟨t, ht, nofun, fun _ => hc⟩

end

/-! ### The statement -/

/-- Settles O54: an event's record stands first behind the log's records, since whatever follows it only adds to the log; a write that is
done adds to the log in the same way, so the clear's own record stays first. A recorder at fault leaves the log. -/
theorem recorderAndTime : Obligations.RecorderAndTime := by
  unfold Obligations.RecorderAndTime
  refine ⟨?_, ?_, ?_, ?_, ?_, ?_, ?_, ?_, ?_, ?_⟩
  · intro s code u vals hk hu hc h0 h1 h2 hr
    exact eventRecord_appends hk hu hc h0 h1 h2 hr
  · exact correctable_counts
  · exact uncorrectable_stops
  · intro s l ha
    exact ⟨_, exec_uptimeTick ha l, microsecondEnds_still (microsecondSeen_silent l s)⟩
  · intro s q us hus h
    exact wallSet_sets hus h
  · intro s q hs
    exact wallSRead_reads hs
  · intro s q hs
    exact wallUsRead_reads hs
  · intro s hs hf
    exact spRead_wallS hs hf
  · intro s q ofs n hs
    exact logRecRead_reads ofs n hs
  · intro s q ok h
    exact logClear_answers ok h

end Sys2Proof.Machine
end
